-- ==== Sys2Proof/Word.lean ====
section
/-! DEFINITION. The words of the machine: plain names for the bit widths the spec gives. -/

namespace Sys2Proof

/-- One byte of memory or local store (R2). -/
abbrev Byte := BitVec 8
/-- A core scalar, a sequencer register, a control register (R25). -/
abbrev Word := BitVec 64
/-- A vector register: 1024 bits (R25). -/
abbrev Vec := BitVec 1024
/-- A predicate register: 128 bits, one a vector byte (R25). -/
abbrev Pred := BitVec 128
/-- A tile register: 256 elements of 32 bits (R151). -/
abbrev Tile := BitVec 8192
/-- The six numerical flags, in the layout of %nflags (R57): sat ec nx uf of nv. -/
abbrev Flags := BitVec 6

/-- A table of `α` by address, listed in strictly rising order of the address. -/
abbrev Sparse (α : Type) := List (Nat × α)

end Sys2Proof
end

