-- ==== Sys2Proof/Machine/Bytes.lean ====
section
/-! DEFINITION. Bytes and the numbers they hold: the low-order byte at the lowest address (R2), and the bit fields of a number. -/

namespace Sys2Proof.Machine

/-- The number that bytes hold, least significant first. -/
def natOfBytes : List Byte → Nat
  | [] => 0
  | b :: bs => b.toNat + 256 * natOfBytes bs

/-- The low `n` bytes of a number, least significant first. -/
def bytesOfNat (x : Nat) : Nat → List Byte
  | 0 => []
  | n + 1 => BitVec.ofNat 8 x :: bytesOfNat (x / 256) n

/-- The 64-bit word of eight bytes. -/
def wordOfBytes (bs : List Byte) : Word := BitVec.ofNat 64 (natOfBytes bs)
/-- The eight bytes of a word. -/
def bytesOfWord (w : Word) : List Byte := bytesOfNat w.toNat 8

/-- Bits `hi:lo` of a number. -/
def slice (x hi lo : Nat) : Nat := x / 2 ^ lo % 2 ^ (hi + 1 - lo)

end Sys2Proof.Machine
end

