-- ==== Sys2Proof/Machine/Ciphers.lean ====
section
/-! DEFINITION. The standard functions that the spec names and does not write out: AES-256 (FIPS 197), its modes GCM (SP 800-38D) and XTS
(IEEE 1619), and SHA-3 (FIPS 202) (R213, R311, R316, R375, R377, R381).
(PRESUMED: log entry 11.) -/

namespace Sys2Proof.Machine

/-! ## AES-256 -/

/-- A byte of GF(2^8) times x. -/
def gfDouble (b : Byte) : Byte := (b <<< 1) ^^^ (if b.msb then 0x1B else 0)

/-- A product in GF(2^8). -/
def gfMul (a b : Byte) : Byte :=
  ((List.range 8).foldl (fun (x : Byte × Byte) i => (if b.getLsbD i then x.1 ^^^ x.2 else x.1, gfDouble x.2)) (0, a)).1

/-- The inverse in GF(2^8), 0 of 0: the 254th power. -/
def gfInverse (a : Byte) : Byte :=
  let square (x : Byte) : Byte := gfMul x x
  let p3 := gfMul (square a) a
  let p15 := gfMul (square (square p3)) p3
  let p63 := gfMul (square (square p15)) p3
  let p127 := gfMul (square p63) a
  square p127

/-- The substitution of a byte, and its inverse. -/
def aesSub (b : Byte) : Byte :=
  let i := gfInverse b
  i ^^^ i.rotateLeft 1 ^^^ i.rotateLeft 2 ^^^ i.rotateLeft 3 ^^^ i.rotateLeft 4 ^^^ 0x63
def aesSubBack (b : Byte) : Byte := gfInverse (b.rotateLeft 1 ^^^ b.rotateLeft 3 ^^^ b.rotateLeft 6 ^^^ 0x05)

/-- Two byte strings combined by exclusive or, as long as the first. -/
def xorBytes (a b : List Byte) : List Byte := (List.range a.length).map fun i => (a[i]?).getD 0 ^^^ (b[i]?).getD 0

/-- The 60 words of a 32-byte key's schedule, four bytes each. -/
def aesSchedule (key : List Byte) : List (List Byte) :=
  ((List.range 52).foldl (fun (a : List (List Byte) × Byte) n =>
    let w := a.1
    let last := (w[n + 7]?).getD []
    let turned := (last.drop 1 ++ last.take 1).map aesSub
    let step := if n % 8 = 0 then xorBytes turned [a.2, 0, 0, 0] else if n % 8 = 4 then last.map aesSub else last
    (w ++ [xorBytes ((w[n]?).getD []) step], if n % 8 = 0 then gfDouble a.2 else a.2))
    ((List.range 8).map fun i => (key.drop (4 * i)).take 4, 1)).1

/-- The 16 bytes of round key `n`. -/
def aesRoundKey (w : List (List Byte)) (n : Nat) : List Byte := ((w.drop (4 * n)).take 4).flatten

/-- The rows of a block shifted by their number, or back. -/
def aesShift (b : List Byte) : List Byte := (List.range 16).map fun i => (b[(i + 4 * (i % 4)) % 16]?).getD 0
def aesShiftBack (b : List Byte) : List Byte := (List.range 16).map fun i => (b[(i + 12 * (i % 4)) % 16]?).getD 0

/-- The columns of a block multiplied by a circulant matrix, given by its first row. -/
def aesMix (row : List Byte) (b : List Byte) : List Byte :=
  (List.range 16).map fun i =>
    (List.range 4).foldl (fun x k => x ^^^ gfMul ((row[(k + 4 - i % 4) % 4]?).getD 0) ((b[i / 4 * 4 + k]?).getD 0)) 0

/-- AES-256 of a 16-byte block under a schedule. -/
def aesEncrypt (w : List (List Byte)) (b : List Byte) : List Byte :=
  let b := (List.range 13).foldl (fun b n =>
    xorBytes (aesMix [2, 3, 1, 1] (aesShift (b.map aesSub))) (aesRoundKey w (n + 1))) (xorBytes b (aesRoundKey w 0))
  xorBytes (aesShift (b.map aesSub)) (aesRoundKey w 14)

/-- Its inverse. -/
def aesDecrypt (w : List (List Byte)) (b : List Byte) : List Byte :=
  let b := (aesShiftBack (xorBytes b (aesRoundKey w 14))).map aesSubBack
  let b := (List.range 13).foldl (fun b n =>
    (aesShiftBack (aesMix [14, 11, 13, 9] (xorBytes b (aesRoundKey w (13 - n))))).map aesSubBack) b
  xorBytes b (aesRoundKey w 0)

/-- The schedule of a key, whose low byte is its first. -/
def keySchedule (key : BitVec 256) : List (List Byte) := aesSchedule (bytesOfNat key.toNat 32)

/-! ## GCM -/

/-- A block as the number GHASH multiplies: its first byte the most significant. -/
def blockNumber (b : List Byte) : BitVec 128 := BitVec.ofNat 128 (natOfBytes b.reverse)
def numberBlock (x : BitVec 128) : List Byte := (bytesOfNat x.toNat 16).reverse

/-- The product of GHASH. -/
def ghashMul (x y : BitVec 128) : BitVec 128 :=
  ((List.range 128).foldl (fun (a : BitVec 128 × BitVec 128) i =>
    (if x.getLsbD (127 - i) then a.1 ^^^ a.2 else a.1,
      if a.2.getLsbD 0 then (a.2 >>> 1) ^^^ (0xE1 <<< 120) else a.2 >>> 1)) (0, y)).1

/-- A text filled up with zeros to whole blocks. -/
def padBlocks (bs : List Byte) : List Byte := bs ++ List.replicate ((16 - bs.length % 16) % 16) 0

/-- GHASH of whole blocks under a hash key. -/
def ghash (h : BitVec 128) (bs : List Byte) : BitVec 128 :=
  (List.range (bs.length / 16)).foldl (fun y i => ghashMul (y ^^^ blockNumber ((bs.drop (16 * i)).take 16)) h) 0

/-- The counter block `n` of an initialisation vector: the vector, then n in 32 bits. -/
def counterBlock (iv : BitVec 96) (n : Nat) : List Byte := bytesOfNat iv.toNat 12 ++ (bytesOfNat n 4).reverse

/-- A text encrypted or decrypted in counter mode. -/
def gcmText (key : BitVec 256) (iv : BitVec 96) (text : List Byte) : List Byte :=
  let w := keySchedule key
  xorBytes text ((List.range ((text.length + 15) / 16)).flatMap fun i => aesEncrypt w (counterBlock iv (i + 2)))

/-- The tag over additional data and a cipher text, its first byte the low one. -/
def gcmTag (key : BitVec 256) (iv : BitVec 96) (aad text : List Byte) : BitVec 128 :=
  let w := keySchedule key
  let lengths := (bytesOfNat (8 * aad.length) 8).reverse ++ (bytesOfNat (8 * text.length) 8).reverse
  let y := ghash (blockNumber (aesEncrypt w (List.replicate 16 0))) (padBlocks aad ++ padBlocks text ++ lengths)
  BitVec.ofNat 128 (natOfBytes (xorBytes (numberBlock y) (aesEncrypt w (counterBlock iv 1))))

/-! ## XTS -/

/-- A tweak block times x. -/
def tweakDouble (t : BitVec 128) : BitVec 128 := (t <<< 1) ^^^ (if t.msb then 0x87 else 0)

/-- A line of whole blocks through XTS: the data key's cipher in the given direction, under the tweak as the second key encrypts it. -/
def xtsLine (cipher : List (List Byte) → List Byte → List Byte) (k1 k2 : BitVec 256) (tweak : BitVec 128) (line : List Byte) : List Byte :=
  let w := keySchedule k1
  let t := BitVec.ofNat 128 (natOfBytes (aesEncrypt (keySchedule k2) (bytesOfNat tweak.toNat 16)))
  ((List.range (line.length / 16)).foldl (fun (a : List Byte × BitVec 128) i =>
    let mask := bytesOfNat a.2.toNat 16
    (a.1 ++ xorBytes (cipher w (xorBytes ((line.drop (16 * i)).take 16) mask)) mask, tweakDouble a.2)) ([], t)).1

/-! ## SHA-3 -/

/-- The 24 round constants of Keccak-f[1600]. -/
def keccakRounds : List (BitVec 64) :=
  [0x0000000000000001, 0x0000000000008082, 0x800000000000808A, 0x8000000080008000, 0x000000000000808B, 0x0000000080000001,
   0x8000000080008081, 0x8000000000008009, 0x000000000000008A, 0x0000000000000088, 0x0000000080008009, 0x000000008000000A]
  ++ [0x000000008000808B, 0x800000000000008B, 0x8000000000008089, 0x8000000000008003, 0x8000000000008002, 0x8000000000000080,
   0x000000000000800A, 0x800000008000000A, 0x8000000080008081, 0x8000000000008080, 0x0000000080000001, 0x8000000080008008]

/-- By how much lane (x, y), number x + 5y, is rotated. -/
def keccakTurns : List Nat :=
  [0, 1, 62, 28, 27, 36, 44, 6, 55, 20, 3, 10, 43, 25, 39, 41, 45, 15, 21, 8, 18, 2, 61, 56, 14]

/-- One round over 25 lanes. -/
def keccakRound (a : List (BitVec 64)) (constant : BitVec 64) : List (BitVec 64) :=
  let lane (l : List (BitVec 64)) (x y : Nat) : BitVec 64 := (l[x % 5 + 5 * (y % 5)]?).getD 0
  let sums := (List.range 5).map fun x => (List.range 5).foldl (fun t y => t ^^^ lane a x y) 0
  let sum (x : Nat) : BitVec 64 := (sums[x % 5]?).getD 0
  let mixed := (List.range 25).map fun i => lane a i (i / 5) ^^^ sum (i + 4) ^^^ (sum (i + 1)).rotateLeft 1
  let turned := (List.range 25).map fun i =>
    let x := (i % 5 + 3 * (i / 5)) % 5
    (lane mixed x (i % 5)).rotateLeft ((keccakTurns[x + 5 * (i % 5)]?).getD 0)
  let out := (List.range 25).map fun i => lane turned i (i / 5) ^^^ (~~~ lane turned (i + 1) (i / 5) &&& lane turned (i + 2) (i / 5))
  match out with
  | l :: rest => (l ^^^ constant) :: rest
  | [] => []

/-- The permutation. -/
def keccak (a : List (BitVec 64)) : List (BitVec 64) := keccakRounds.foldl keccakRound a

/-- SHA-3 with digests of `out` bytes: the message with its suffix absorbed in blocks of 200 - 2·out bytes. -/
def sha3Bytes (out : Nat) (message : List Byte) : List Byte :=
  let rate := 200 - 2 * out
  let gap := rate - message.length % rate
  let padded := message ++ if gap = 1 then [0x86] else 0x06 :: (List.replicate (gap - 2) 0 ++ [0x80])
  let lanes := (List.range (padded.length / rate)).foldl (fun a i =>
    keccak ((List.range 25).map fun k =>
      (a[k]?).getD 0 ^^^ (if k < rate / 8 then wordOfBytes ((padded.drop (rate * i + 8 * k)).take 8) else 0))) (List.replicate 25 0)
  (lanes.flatMap bytesOfWord).take out

/-- SHA3-512 and SHA3-256 of a byte string, as numbers whose low byte is the digest's first. -/
def sha3 (message : List Byte) : BitVec 512 := BitVec.ofNat 512 (natOfBytes (sha3Bytes 64 message))
def sha3Short (message : List Byte) : BitVec 256 := BitVec.ofNat 256 (natOfBytes (sha3Bytes 32 message))

end Sys2Proof.Machine
end

