-- ==== Sys2Proof/Config.lean ====
section
/-! DEFINITION. What the spec leaves to firmware or names without giving a body: constants with no body, of which nothing can be
proved but that they are functions (log entries 2, 11 to 14, 36, 108, 113). -/

namespace Sys2Proof.Config

/-- The free values: an open value of width `w`, the `n`-th drawn (log entry 2). -/
opaque freeValue (n : Nat) (w : Nat) : BitVec w

/-- Whether an ML-DSA-87 signature over a digest verifies under the key of the named authority (R316, R375, R376, R379; log entry 11). -/
opaque mldsaVerify (key : Nat) (digest : BitVec 512) (signature : List Byte) : Bool

/-- The ML-DSA-87 signature of the panel's attestation key over a byte string (R384; log entry 11). -/
opaque mldsaSign : List Byte → List Byte

/-- A world's release key of ML-KEM-1024, by a number drawn as the world is created, and its public half; what a wrapping to it releases,
none when it does not unwrap (R385; log entry 11). -/
opaque releaseKey (draw : Nat) : BitVec 512
opaque releasePublic (key : BitVec 512) : List Byte
opaque mlkemUnwrap (key : BitVec 512) (wrapped : List Byte) : Option (BitVec 256)

/-- The vendor key's fused digest (R375, R379; log entry 10). -/
opaque vendorKey : BitVec 512

/-- The fused identity key of a die, junction or edge die, and the key that the two ends of a link establish at a panel time by ML-KEM-1024
(R376; log entry 11). The ends are numbered: dies from 0, junctions from 160, edge slots from 320. -/
opaque identityKey (device : Nat) : BitVec 512
opaque linkKey (time device peer : Nat) : BitVec 256

/-- The XTS tweak of a line: address space, tensor id, tile index, line index (R381 names the four and packs them in no way; log entry 11). -/
opaque xtsTweak (space tensor tile line : Nat) : BitVec 128

/-- The number of host-memory frames of the pool and of attached CXL frames behind a host die (R282: host pool size, as attached;
log entry 12). -/
opaque hostFrames : Nat
opaque cxlFrames (h : Nat) : Nat

/-- The frames of host memory that the driver supplies in answer to a request for frames (R283, R313; log entry 12). -/
opaque suppliedFrames (request : Nat) : List Nat

/-- Predicted power, in watts, of a choice of points: the list of (task id, level, rows) of the running tasks, and how many dies are gated
(R324: a firmware policy; log entry 13). -/
opaque predictedPower (tasks : List (Word × Nat × Nat)) (gated : Nat) : Nat

/-- Predicted time to finish, in ns, of a task at a point: task id, level, rows (R333: a firmware policy; log entry 13). -/
opaque predictedFinish (task : Word) (level rows : Nat) : Nat

/-- Whether the pod maps a panel id (R210, R314: set by the pod management; log entry 108). -/
opaque podMaps (panel : BitVec 13) : Bool

/-- How many entries a host die's request ring has, and a byte of an entry: request number, kind, what it names. The manual gives the kinds
and no layout (R313; log entry 36). -/
opaque hostRingEntries : Nat
opaque ringByte (number kind : Nat) (payload : Word) (position : Nat) : Byte

/-- Which of its two ports an error at a link die is of (R314, R365: the manual gives none; log entry 113). -/
opaque faultyPort (time : Nat) : Fin 2

/-- The initialisation vector of an image's encryption: the image's layout has no field for one (R287, R311; log entry 11). -/
opaque imageIv (image : List Byte) : BitVec 96

/-- Whether an image authenticates at the world's measured load (R311): key, image bytes (log entry 11). -/
opaque imageTagOk (key : BitVec 256) (image : List Byte) : Bool

/-- The length in bytes of a mailbox request block, and what it says: a number, or bytes, of a field of a command's request. The manual
names the fields and gives the block no layout (R384, R385, R389, R390; log entry 14). -/
opaque requestLength : Nat
opaque requestField (command field : Nat) (block : List Byte) : Nat
opaque requestBytes (command field : Nat) (block : List Byte) : List Byte
/-- The answer block of a command, laid out from what it holds (R384, R390; log entry 14). -/
opaque answerBlock (command : Nat) (content : List Byte) : List Byte
/-- The world a tenant session belongs to (R389, R390; log entry 14). -/
opaque sessionWorld (session : BitVec 32) : Byte

/-- The length of a firmware image, and what it carries: security version, flag bit 0, signature (R375, R388; log entry 14). -/
opaque firmwareLength : Nat
opaque firmwareVersion (image : List Byte) : Nat
opaque firmwareCommit (image : List Byte) : Bool
opaque firmwareSignature (image : List Byte) : List Byte
/-- The image of a component that firmware holds: 0 the station firmware, 1 the management core, 2 the timetable unit, 3 the command
processors, 4 the region governors (R375, R389; log entry 14). -/
opaque firmwarePart (component : Nat) (image : List Byte) : List Byte

end Sys2Proof.Config
end

