-- ==== Sys2Proof/Syntax/Fields.lean ====
section
/-! DEFINITION. The operand types of the instructions: register classes, immediates with a stated range, and the
closed sets of modifiers the encoding tables list (R62, R69, R90-R94, R117, R131-R150, R157, R174, R199, R215). -/

namespace Sys2Proof

/-- Which of the twin units runs a scalar (SA, SB) or vector (VA, VB) syllable (R60). -/
inductive Twin where
  | a
  | b
deriving DecidableEq, Repr

/-- One of the two context banks of a row (R24). -/
inductive Side where
  | a
  | b
deriving DecidableEq, Repr

/-- s0-s30: a scalar destination; s31 is no destination (R62). -/
abbrev SDst := Fin 31
/-- s0-s31: a scalar source; s31 pops (R66). -/
abbrev SReg := Fin 32
/-- v0-v30: a vector destination; v31 is no destination (R62). -/
abbrev VDst := Fin 31
/-- v0-v31: a vector source; v31 pops (R66). -/
abbrev VReg := Fin 32
/-- q0-q7 (R62). -/
abbrev QReg := Fin 8
/-- k0-k15 (R62). -/
abbrev KReg := Fin 16
/-- t0-t7 (R62). -/
abbrev TReg := Fin 8
/-- reel0-reel7 (R62). -/
abbrev Reel := Fin 8
/-- tl0-tl7 (R62). -/
abbrev TlReg := Fin 8

/-- The width of a vector syllable (R62). -/
inductive Width where
  | w256
  | w512
  | w1024
deriving DecidableEq, Repr

/-- The integer element types (R132). -/
inductive EType where
  | i8
  | i16
  | i32
  | i64
deriving DecidableEq, Repr

/-- The floating element formats of vector arithmetic (R70). -/
inductive FType where
  | f32
  | bf16
deriving DecidableEq, Repr

/-- The widths of sext and zext (R117). -/
inductive ExtW where
  | w8
  | w16
  | w32
deriving DecidableEq, Repr

/-- The conditions of chk and vchk (R125, R150). -/
inductive ChkOp where
  | eq
  | ne
  | lt
deriving DecidableEq, Repr

/-- The conditions of vcmp (R136). -/
inductive VCond where
  | eq
  | ne
  | lt
  | le
  | ltn
  | len
deriving DecidableEq, Repr

/-- The conditions of vfcmp (R137). -/
inductive FCond where
  | eq
  | ne
  | lt
  | le
  | un
deriving DecidableEq, Repr

/-- The operations of kvote (R95). -/
inductive VoteOp where
  | any
  | all
  | sum
  | max
deriving DecidableEq, Repr

/-- The rounding modes (R54). -/
inductive RMode where
  | rne
  | rz
  | ru
  | rd
deriving DecidableEq, Repr

/-- The element types of atomics and red (R69, R211). -/
inductive AType where
  | i32
  | i64
  | f32
deriving DecidableEq, Repr

/-- The element type of a tile in %deckle (R152). -/
inductive TType where
  | none
  | f32
  | i32
deriving DecidableEq, Repr

/-- The nine scopes, narrowest first (R7, R21). -/
inductive Scope where
  | lane
  | core
  | quad
  | row
  | die
  | region
  | panel
  | pod
  | system
deriving DecidableEq, Repr

/-- The operations of vred and vscan: integer ones with their element type, floating ones with theirs (R145). -/
inductive RedOp where
  | add (t : EType)
  | min (t : EType)
  | max (t : EType)
  | fadd (f : FType)
  | fmin (f : FType)
  | fmax (f : FType)
deriving DecidableEq, Repr

/-- The syllable field a step-table entry steps (R103). -/
inductive StepField where
  | d
  | a
  | b
  | q
  | imm
deriving DecidableEq, Repr

/-- The sys22 fields of lstep (R103); `mod` is the modulus less one. -/
structure StepFields where
  active : Bool
  offset : Fin 64
  unit   : Fin 8
  field  : StepField
  step   : BitVec 4
  mod    : Fin 32
deriving DecidableEq, Repr

/-- The control registers, each under its code (R93, R94, R124, R216). -/
inductive CReg where
  | rankBlk
  | rankRegion
  | rankDie
  | rankRow
  | rankQuad
  | rankCore
  | index (n : Fin 6)
  | fmt
  | mxstep
  | chk
  | loopDepth
  | callDepth
  | deckleLo
  | lswin
  | tsave
  | deckleHi
  | nflags
  | chkAlias
  | tl (n : Fin 8)
  | sysperm
  | trapvec
  | trapWord (n : Fin 6)
  | bank
  | istep
  | barsel
  | barmask
  | wgen
deriving DecidableEq, Repr

/-- A panel row number (R22). -/
abbrev RowId := Fin 10240
/-- A compute die number (R16). -/
abbrev DieId := Fin 160
/-- A junction number (R16). -/
abbrev JunId := Fin 160
/-- A region number (R15). -/
abbrev RegionId := Fin 16
/-- A queue number, 32 x region + thread (R20). -/
abbrev QueueId := Fin 512

/-- The packet header, less its type: the stamp, the MSI-X flag, the after flag (R306). -/
structure PktHdr where
  stamp : BitVec 32
  msi   : Bool
  after : Bool
deriving DecidableEq, Repr

/-- The body of a TASK packet (R306). -/
structure TaskBody where
  deadline : Word
  cls      : Byte
  points   : Byte
  task     : Word
  table    : Word
deriving DecidableEq, Repr

/-- A unit of a memory tier with a demotion engine and, for tiers 0 and 1, a scrub engine (R282, R368). -/
inductive TierUnit where
  | junction (j : Fin 160)
  | siding (s : Fin 32)
  | cxl (h : Fin 4)
  | host
deriving DecidableEq, Repr

/-- Who asks for a line at its home: a die of the panel, or a pod switch for the panels behind it (R355, R359). -/
inductive Requester where
  | die (d : Fin 160)
  | switch (k : Nat)
deriving DecidableEq, Repr

/-- What another panel returns of a line it held dirty: its 64 bytes, its form and its poison (R360, R361). -/
structure LineReturn where
  data   : BitVec 512
  cipher : Bool
  poison : Bool
deriving DecidableEq, Repr

/-- How a recovery leaves a line: in S, or in X, with the dirty data that an answer returned (R361). -/
structure Recovered where
  shared : Bool
  dirty  : Option LineReturn
deriving DecidableEq, Repr

/-- The answers to recovery's queries when one has not come for 1 ms: the panel that failed, and the lines that the others own (R361). -/
structure PanelAnswers where
  failed  : BitVec 13
  claimed : List Nat
deriving DecidableEq, Repr

/-- What a takeover finds: the stations that pass their self-test, and the images stored (R374, R375). -/
structure Spares where
  healthy : BitVec 4
  images  : List (List Byte)
deriving DecidableEq, Repr

/-- Where an error stood: the place fields of an error record (R367). -/
inductive ErrPlace where
  | die (d : Fin 160) (row : Fin 64) (core : Option (Fin 64))
  | junction (j : Fin 160)
  | edge (n : Fin 72)
deriving DecidableEq, Repr

/-- What a detector reports (R365): the structure's code, the place, whether it was corrected, the line's physical
address or 0, the entry the structure names (a register, a queue), with its bank, and for a register the unit that read it (R60, R369). -/
structure ErrorReport where
  structureCode : Fin 14
  place         : ErrPlace
  corrected     : Bool
  address       : Nat
  entry         : Nat
  side          : Side
  unit          : Fin 8
deriving DecidableEq, Repr

/-- What a scrub step finds at its line (R368). -/
inductive ScrubResult where
  | clean
  | corrected
  | uncorrectable
deriving DecidableEq, Repr

/-- A place with an injection register (R369). -/
inductive InjPlace where
  | die (d : Fin 160)
  | junction (j : Fin 160)
deriving DecidableEq, Repr

/-- The alarm sources (R380). -/
inductive AlarmSource where
  | supply
  | temp
  | mesh
deriving DecidableEq, Repr

end Sys2Proof
end

