-- ==== Sys2Proof/Syntax.lean ====
section
/-! DEFINITION. The instructions and whole-machine operations of the opcode table, one constructor a row, in its order.
A syllable has its operand fields as arguments; the E bit belongs to the bundle and is no operand (R60). -/

namespace Sys2Proof

/-- One row of the opcode table: a syllable, or a whole-machine operation or event without an encoding. -/
inductive Instr where
  /-- ADD (R118). -/
  | add (u : Twin) (d : SDst) (a : SReg) (b : SReg) (q : QReg)
  /-- SUB (R118). -/
  | sub (u : Twin) (d : SDst) (a : SReg) (b : SReg) (q : QReg)
  /-- MUL (R119). -/
  | mul (u : Twin) (d : SDst) (a : SReg) (b : SReg) (q : QReg)
  /-- MULH (R119). -/
  | mulh (u : Twin) (d : SDst) (a : SReg) (b : SReg) (q : QReg)
  /-- MULHN (R119). -/
  | mulhn (u : Twin) (d : SDst) (a : SReg) (b : SReg) (q : QReg)
  /-- DIV (R120). -/
  | div (u : Twin) (d : SDst) (a : SReg) (b : SReg) (q : QReg)
  /-- DIVN (R120). -/
  | divn (u : Twin) (d : SDst) (a : SReg) (b : SReg) (q : QReg)
  /-- REM (R120). -/
  | rem (u : Twin) (d : SDst) (a : SReg) (b : SReg) (q : QReg)
  /-- REMN (R120). -/
  | remn (u : Twin) (d : SDst) (a : SReg) (b : SReg) (q : QReg)
  /-- AND (R118). -/
  | and (u : Twin) (d : SDst) (a : SReg) (b : SReg) (q : QReg)
  /-- OR (R118). -/
  | or (u : Twin) (d : SDst) (a : SReg) (b : SReg) (q : QReg)
  /-- XOR (R118). -/
  | xor (u : Twin) (d : SDst) (a : SReg) (b : SReg) (q : QReg)
  /-- ANDN (R118). -/
  | andn (u : Twin) (d : SDst) (a : SReg) (b : SReg) (q : QReg)
  /-- SHL (R118). -/
  | shl (u : Twin) (d : SDst) (a : SReg) (b : SReg) (q : QReg)
  /-- SHR (R118). -/
  | shr (u : Twin) (d : SDst) (a : SReg) (b : SReg) (q : QReg)
  /-- SAR (R118). -/
  | sar (u : Twin) (d : SDst) (a : SReg) (b : SReg) (q : QReg)
  /-- ROL (R118). -/
  | rol (u : Twin) (d : SDst) (a : SReg) (b : SReg) (q : QReg)
  /-- MIN (R118). -/
  | min (u : Twin) (d : SDst) (a : SReg) (b : SReg) (q : QReg)
  /-- MAX (R118). -/
  | max (u : Twin) (d : SDst) (a : SReg) (b : SReg) (q : QReg)
  /-- MINN (R118). -/
  | minn (u : Twin) (d : SDst) (a : SReg) (b : SReg) (q : QReg)
  /-- MAXN (R118). -/
  | maxn (u : Twin) (d : SDst) (a : SReg) (b : SReg) (q : QReg)
  /-- SLT (R118). -/
  | slt (u : Twin) (d : SDst) (a : SReg) (b : SReg) (q : QReg)
  /-- SLTN (R118). -/
  | sltn (u : Twin) (d : SDst) (a : SReg) (b : SReg) (q : QReg)
  /-- SEQ (R118). -/
  | seq (u : Twin) (d : SDst) (a : SReg) (b : SReg) (q : QReg)
  /-- SNE (R118). -/
  | sne (u : Twin) (d : SDst) (a : SReg) (b : SReg) (q : QReg)
  /-- SEL (R122). -/
  | sel (u : Twin) (d : SDst) (a : SReg) (b : SReg) (q : QReg)
  /-- CLZ (R121). -/
  | clz (u : Twin) (d : SDst) (a : SReg) (q : QReg)
  /-- CTZ (R121). -/
  | ctz (u : Twin) (d : SDst) (a : SReg) (q : QReg)
  /-- POPC (R121). -/
  | popc (u : Twin) (d : SDst) (a : SReg) (q : QReg)
  /-- SEXT (R121). -/
  | sext (u : Twin) (d : SDst) (a : SReg) (q : QReg) (m : ExtW)
  /-- ZEXT (R121). -/
  | zext (u : Twin) (d : SDst) (a : SReg) (q : QReg) (m : ExtW)
  /-- MFS (R124). -/
  | mfs (u : Twin) (d : SDst) (c : CReg)
  /-- CHK (R125). -/
  | chk (u : Twin) (a : SReg) (b : SReg) (q : QReg) (m : ChkOp)
  /-- ADDI (R123). -/
  | addi (u : Twin) (d : SDst) (a : SReg) (imm : BitVec 12)
  /-- ANDI (R123). -/
  | andi (u : Twin) (d : SDst) (a : SReg) (imm : BitVec 12)
  /-- ORI (R123). -/
  | ori (u : Twin) (d : SDst) (a : SReg) (imm : BitVec 12)
  /-- XORI (R123). -/
  | xori (u : Twin) (d : SDst) (a : SReg) (imm : BitVec 12)
  /-- SHLI (R123). -/
  | shli (u : Twin) (d : SDst) (a : SReg) (n : Fin 64)
  /-- SHRI (R123). -/
  | shri (u : Twin) (d : SDst) (a : SReg) (n : Fin 64)
  /-- SARI (R123). -/
  | sari (u : Twin) (d : SDst) (a : SReg) (n : Fin 64)
  /-- LI (R123). -/
  | li (u : Twin) (d : SDst) (imm : BitVec 17)
  /-- LUI (R123). -/
  | lui (u : Twin) (d : SDst) (imm : BitVec 17)
  /-- VADD (R133). -/
  | vadd (u : Twin) (d : VDst) (a : VReg) (b : VReg) (q : QReg) (w : Width) (t : EType)
  /-- VSUB (R133). -/
  | vsub (u : Twin) (d : VDst) (a : VReg) (b : VReg) (q : QReg) (w : Width) (t : EType)
  /-- VMUL (R133). -/
  | vmul (u : Twin) (d : VDst) (a : VReg) (b : VReg) (q : QReg) (w : Width) (t : EType)
  /-- VMULH (R133). -/
  | vmulh (u : Twin) (d : VDst) (a : VReg) (b : VReg) (q : QReg) (w : Width) (t : EType)
  /-- VMIN (R133). -/
  | vmin (u : Twin) (d : VDst) (a : VReg) (b : VReg) (q : QReg) (w : Width) (t : EType)
  /-- VMAX (R133). -/
  | vmax (u : Twin) (d : VDst) (a : VReg) (b : VReg) (q : QReg) (w : Width) (t : EType)
  /-- VABS (R133). -/
  | vabs (u : Twin) (d : VDst) (a : VReg) (q : QReg) (w : Width) (t : EType)
  /-- VNEG (R133). -/
  | vneg (u : Twin) (d : VDst) (a : VReg) (q : QReg) (w : Width) (t : EType)
  /-- VAND (R133). -/
  | vand (u : Twin) (d : VDst) (a : VReg) (b : VReg) (q : QReg) (w : Width)
  /-- VOR (R133). -/
  | vor (u : Twin) (d : VDst) (a : VReg) (b : VReg) (q : QReg) (w : Width)
  /-- VXOR (R133). -/
  | vxor (u : Twin) (d : VDst) (a : VReg) (b : VReg) (q : QReg) (w : Width)
  /-- VANDN (R133). -/
  | vandn (u : Twin) (d : VDst) (a : VReg) (b : VReg) (q : QReg) (w : Width)
  /-- VSHL (R133). -/
  | vshl (u : Twin) (d : VDst) (a : VReg) (b : VReg) (q : QReg) (w : Width) (t : EType)
  /-- VSHR (R133). -/
  | vshr (u : Twin) (d : VDst) (a : VReg) (b : VReg) (q : QReg) (w : Width) (t : EType)
  /-- VSAR (R133). -/
  | vsar (u : Twin) (d : VDst) (a : VReg) (b : VReg) (q : QReg) (w : Width) (t : EType)
  /-- VADDS (R133). -/
  | vadds (u : Twin) (d : VDst) (a : VReg) (b : VReg) (q : QReg) (w : Width) (t : EType)
  /-- VSUBS (R133). -/
  | vsubs (u : Twin) (d : VDst) (a : VReg) (b : VReg) (q : QReg) (w : Width) (t : EType)
  /-- VFADD (R134). -/
  | vfadd (u : Twin) (d : VDst) (a : VReg) (b : VReg) (q : QReg) (w : Width) (f : FType)
  /-- VFSUB (R134). -/
  | vfsub (u : Twin) (d : VDst) (a : VReg) (b : VReg) (q : QReg) (w : Width) (f : FType)
  /-- VFMUL (R134). -/
  | vfmul (u : Twin) (d : VDst) (a : VReg) (b : VReg) (q : QReg) (w : Width) (f : FType)
  /-- VFMA (R134). -/
  | vfma (u : Twin) (d : VDst) (a : VReg) (b : VReg) (q : QReg) (w : Width) (f : FType)
  /-- VFMS (R134). -/
  | vfms (u : Twin) (d : VDst) (a : VReg) (b : VReg) (q : QReg) (w : Width) (f : FType)
  /-- VFMIN (R52). -/
  | vfmin (u : Twin) (d : VDst) (a : VReg) (b : VReg) (q : QReg) (w : Width) (f : FType)
  /-- VFMAX (R52). -/
  | vfmax (u : Twin) (d : VDst) (a : VReg) (b : VReg) (q : QReg) (w : Width) (f : FType)
  /-- VFABS (R134). -/
  | vfabs (u : Twin) (d : VDst) (a : VReg) (q : QReg) (w : Width) (f : FType)
  /-- VFNEG (R134). -/
  | vfneg (u : Twin) (d : VDst) (a : VReg) (q : QReg) (w : Width) (f : FType)
  /-- VEXP2 (R53). -/
  | vexp2 (u : Twin) (d : VDst) (a : VReg) (q : QReg) (w : Width) (f : FType)
  /-- VLOG2 (R53). -/
  | vlog2 (u : Twin) (d : VDst) (a : VReg) (q : QReg) (w : Width) (f : FType)
  /-- VRCP (R53). -/
  | vrcp (u : Twin) (d : VDst) (a : VReg) (q : QReg) (w : Width) (f : FType)
  /-- VRSQRT (R53). -/
  | vrsqrt (u : Twin) (d : VDst) (a : VReg) (q : QReg) (w : Width) (f : FType)
  /-- VCMP (R136). -/
  | vcmp (u : Twin) (d : QReg) (a : VReg) (b : VReg) (c : VCond) (w : Width) (t : EType)
  /-- VFCMP (R137). -/
  | vfcmp (u : Twin) (d : QReg) (a : VReg) (b : VReg) (c : FCond) (w : Width) (f : FType)
  /-- QAND (R138). -/
  | qand (u : Twin) (d : QReg) (a : QReg) (b : QReg) (w : Width)
  /-- QOR (R138). -/
  | qor (u : Twin) (d : QReg) (a : QReg) (b : QReg) (w : Width)
  /-- QXOR (R138). -/
  | qxor (u : Twin) (d : QReg) (a : QReg) (b : QReg) (w : Width)
  /-- QNOT (R138). -/
  | qnot (u : Twin) (d : QReg) (a : QReg) (w : Width)
  /-- QCNT (R138). -/
  | qcnt (u : Twin) (d : SDst) (a : QReg) (w : Width)
  /-- VSEL (R139). -/
  | vsel (u : Twin) (d : VDst) (a : VReg) (b : VReg) (q : QReg) (w : Width)
  /-- VCVT (R140). -/
  | vcvt (u : Twin) (d : VDst) (a : VReg) (c : Fin 32) (q : QReg) (w : Width) (m : RMode)
  /-- VBCAST (R142). -/
  | vbcast (u : Twin) (d : VDst) (a : SReg) (q : QReg) (w : Width) (t : EType)
  /-- VEXT (R143). -/
  | vext (u : Twin) (d : SDst) (a : VReg) (b : SReg) (w : Width) (t : EType)
  /-- VPERM (R144). -/
  | vperm (u : Twin) (d : VDst) (a : VReg) (b : VReg) (q : QReg) (w : Width) (t : EType)
  /-- VRED (R146). -/
  | vred (u : Twin) (d : VDst) (a : VReg) (o : RedOp) (q : QReg) (w : Width)
  /-- VSCAN (R147). -/
  | vscan (u : Twin) (d : VDst) (a : VReg) (o : RedOp) (q : QReg) (w : Width)
  /-- VPACK (R148). -/
  | vpack (u : Twin) (d : VDst) (a : VReg) (q : QReg) (w : Width)
  /-- VUNPACK (R149). -/
  | vunpack (u : Twin) (d : VDst) (a : VReg) (b : SReg) (q : QReg) (w : Width) (f : FType)
  /-- VCHK (R150). -/
  | vchk (u : Twin) (a : VReg) (b : VReg) (q : QReg) (w : Width) (c : ChkOp)
  /-- LD_L_S (R179). -/
  | ldLS (d : SDst) (a : SReg) (off : BitVec 12)
  /-- LD_L_V (R179). -/
  | ldLV (d : VDst) (a : SReg) (off : BitVec 12)
  /-- ST_L_S (R179). -/
  | stLS (d : SReg) (a : SReg) (off : BitVec 12)
  /-- ST_L_V (R179). -/
  | stLV (d : VReg) (a : SReg) (off : BitVec 12)
  /-- LD_Q_S (R179). -/
  | ldQS (d : SDst) (a : SReg) (off : BitVec 12)
  /-- LD_Q_V (R179). -/
  | ldQV (d : VDst) (a : SReg) (off : BitVec 12)
  /-- ST_Q_S (R179). -/
  | stQS (d : SReg) (a : SReg) (off : BitVec 12)
  /-- ST_Q_V (R179). -/
  | stQV (d : VReg) (a : SReg) (off : BitVec 12)
  /-- LDT (R182). -/
  | ldt (a : SReg) (b : SReg) (v : Bool)
  /-- STT (R182). -/
  | stt (d : Fin 32) (a : SReg) (b : SReg) (v : Bool)
  /-- LDG (R183). -/
  | ldg (a : SReg) (v : Bool) (off : BitVec 11)
  /-- STG (R183). -/
  | stg (d : Fin 32) (a : SReg) (v : Bool) (off : BitVec 11)
  /-- TAGQ (R185). -/
  | tagq (d : SDst) (a : SReg) (q : QReg)
  /-- TAGSET (R185). -/
  | tagset (a : SReg) (b : SReg) (q : QReg)
  /-- TAGCLR (R185). -/
  | tagclr (a : SReg) (q : QReg)
  /-- TAGCLR_ALL (R185). -/
  | tagclrAll (q : QReg)
  /-- ATOM_ADD (R186). -/
  | atomAdd (a : SReg) (b : SReg) (sc : Scope) (ret : Bool) (t : AType)
  /-- ATOM_MIN (R186). -/
  | atomMin (a : SReg) (b : SReg) (sc : Scope) (ret : Bool) (t : AType)
  /-- ATOM_MAX (R186). -/
  | atomMax (a : SReg) (b : SReg) (sc : Scope) (ret : Bool) (t : AType)
  /-- ATOM_AND (R186). -/
  | atomAnd (a : SReg) (b : SReg) (sc : Scope) (ret : Bool) (t : AType)
  /-- ATOM_OR (R186). -/
  | atomOr (a : SReg) (b : SReg) (sc : Scope) (ret : Bool) (t : AType)
  /-- ATOM_XOR (R186). -/
  | atomXor (a : SReg) (b : SReg) (sc : Scope) (ret : Bool) (t : AType)
  /-- ATOM_SWAP (R186). -/
  | atomSwap (a : SReg) (b : SReg) (sc : Scope) (ret : Bool) (t : AType)
  /-- ATOM_CAS (R186). -/
  | atomCas (d : SReg) (a : SReg) (b : SReg) (sc : Scope) (ret : Bool) (t : AType)
  /-- ARRIVE (R189). -/
  | arrive (a : SReg) (b : SReg) (sc : Scope) (row : Bool)
  /-- WAITP (R190). -/
  | waitp (d : SDst) (a : SReg) (b : SReg) (sc : Scope)
  /-- ACQ (R192). -/
  | acq (a : SReg) (sc : Scope) (row : Bool)
  /-- REL (R193). -/
  | rel (a : SReg) (sc : Scope) (row : Bool)
  /-- DISCARD (R194). -/
  | discard (a : SReg) (b : SReg) (n : Fin 11)
  /-- PREF (R195). -/
  | pref (a : SReg) (b : SReg) (w : Bool) (n : Fin 11)
  /-- VPUSH (R196). -/
  | vpush (d : Reel) (a : VReg) (p : Fin 4)
  /-- MMA (R165). -/
  | mma (d : TReg) (a : Reel) (b : Reel) (kb : Bool) (ka : Bool)
  /-- MMA_Z (R165). -/
  | mmaZ (d : TReg) (a : Reel) (b : Reel) (kb : Bool) (ka : Bool)
  /-- MMA_SAT (R165). -/
  | mmaSat (d : TReg) (a : Reel) (b : Reel) (kb : Bool) (ka : Bool)
  /-- MMA_N (R164). -/
  | mmaN (d : TReg) (kb : Bool) (ka : Bool) (a : Reel) (z : Bool) (b : Reel) (n : Fin 256)
  /-- TCFG (R159). -/
  | tcfg (d : TReg) (t : TType) (c : Fin 16) (r : Fin 16)
  /-- TZERO (R160). -/
  | tzero (d : TReg)
  /-- TROW_W (R162). -/
  | trowW (d : TReg) (a : VReg) (i : Fin 16) (q : QReg) (hi : Bool)
  /-- TROW_R (R162). -/
  | trowR (d : VDst) (a : TReg) (i : Fin 16) (q : QReg) (hi : Bool)
  /-- TCOL_W (R162). -/
  | tcolW (d : TReg) (a : VReg) (i : Fin 16) (q : QReg) (hi : Bool)
  /-- TCOL_R (R162). -/
  | tcolR (d : VDst) (a : TReg) (i : Fin 16) (q : QReg) (hi : Bool)
  /-- TLD (R163). -/
  | tld (d : TReg) (a : SReg) (b : SReg)
  /-- TST (R163). -/
  | tst (d : TReg) (a : SReg) (b : SReg)
  /-- CPY_IN (R202). -/
  | cpyIn (d : SReg) (a : SReg) (b : SReg) (h : Fin 4) (n : Fin 8)
  /-- CPY_IN_R (R203). -/
  | cpyInR (d : Reel) (a : SReg) (b : SReg) (h : Fin 4)
  /-- CPY_OUT (R202). -/
  | cpyOut (d : SReg) (a : SReg) (b : SReg) (h : Fin 4) (n : Fin 8)
  /-- CPY_GAT (R204). -/
  | cpyGat (d : SReg) (a : SReg) (b : SReg) (h : Fin 4) (n : Fin 8)
  /-- CPY_SCT (R204). -/
  | cpySct (d : SReg) (a : SReg) (b : SReg) (h : Fin 4) (n : Fin 8)
  /-- CPY_LL (R205). -/
  | cpyLl (d : SReg) (a : SReg) (b : SReg) (h : Fin 4) (qw : Bool)
  /-- SEND (R209). -/
  | send (d : VReg) (a : SReg) (b : SReg) (q : QReg)
  /-- RED (R211). -/
  | red (d : VReg) (a : SReg) (b : SReg) (t : AType) (sc : Scope)
  /-- SEAL (R213). -/
  | seal (d : SReg) (a : SReg) (b : SReg)
  /-- OPEN (R213). -/
  | opn (d : SReg) (a : SReg) (b : SReg)
  /-- NOP (R79). -/
  | nop (n : Fin 65)
  /-- KLI (R93). -/
  | kli (d : KReg) (imm : BitVec 17)
  /-- KADD (R93). -/
  | kadd (d : KReg) (a : KReg) (b : KReg)
  /-- KSUB (R93). -/
  | ksub (d : KReg) (a : KReg) (b : KReg)
  /-- KADDI (R93). -/
  | kaddi (d : KReg) (a : KReg) (imm : BitVec 12)
  /-- KAND (R93). -/
  | kand (d : KReg) (a : KReg) (b : KReg)
  /-- KOR (R93). -/
  | kor (d : KReg) (a : KReg) (b : KReg)
  /-- KSHL (R93). -/
  | kshl (d : KReg) (a : KReg) (b : KReg)
  /-- KSHR (R93). -/
  | kshr (d : KReg) (a : KReg) (b : KReg)
  /-- KGET (R93). -/
  | kget (d : KReg) (c : CReg)
  /-- KSET (R94). -/
  | kset (a : KReg) (c : CReg)
  /-- KVOTE (R95). -/
  | kvote (d : KReg) (a : SReg) (q : QReg) (m : VoteOp)
  /-- BR (R97). -/
  | br (t : BitVec 15)
  /-- BZ (R97). -/
  | bz (c : KReg) (t : BitVec 15)
  /-- BNZ (R97). -/
  | bnz (c : KReg) (t : BitVec 15)
  /-- BEQ (R97). -/
  | beq (d : KReg) (a : KReg) (off : BitVec 12)
  /-- BNE (R97). -/
  | bne (d : KReg) (a : KReg) (off : BitVec 12)
  /-- BLT (R97). -/
  | blt (d : KReg) (a : KReg) (off : BitVec 12)
  /-- BGE (R97). -/
  | bge (d : KReg) (a : KReg) (off : BitVec 12)
  /-- CALL (R98). -/
  | call (t : BitVec 15)
  /-- RET (R98). -/
  | ret
  /-- LOOP (R99). -/
  | loop (c : KReg) (l : Fin 64)
  /-- LOOP_IMMEDIATE (R99). -/
  | loopImmediate (n : BitVec 16) (l : Fin 64)
  /-- LBREAK (R105). -/
  | lbreak (c : KReg)
  /-- LBREAK_UNCONDITIONAL (R105). -/
  | lbreakUnconditional
  /-- SFMT (R107). -/
  | sfmt (a : KReg)
  /-- WAIT (R108). -/
  | wait (d : TlReg) (a : KReg)
  /-- BAR (R109). -/
  | bar (id : Fin 16) (sc : Scope)
  /-- FENCE (R110). -/
  | fence (sc : Scope)
  /-- LSTEP (R103). -/
  | lstep (n : Fin 8) (e : StepFields)
  /-- LEAVE_REQ (R111). -/
  | leaveReq (c : Fin 8)
  /-- LEAVE_RET (R111). -/
  | leaveRet
  /-- SEG (R112). -/
  | seg
  /-- RDV (R245). -/
  | rdv (id : BitVec 8)
  /-- TRAP (R113). -/
  | trap (code : BitVec 16)
  /-- HALT (R114). -/
  | halt
  /-- TRET (R234). -/
  | tret
  /-- TRET_SKIP (R234). -/
  | tretSkip
  /-- MTCR (R216). -/
  | mtcr (a : KReg) (c : CReg)
  /-- MFCR (R216). -/
  | mfcr (d : KReg) (c : CReg)
  /-- SPAWN (R217). -/
  | spawn (d : KReg) (a : KReg)
  /-- RERUN (R217). -/
  | rerun (d : KReg) (a : KReg)
  /-- BANKCTL_YIELD (R218). -/
  | bankctlYield
  /-- BANKCTL_HOLD (R218). -/
  | bankctlHold
  /-- BANKCTL_RELEASE (R218). -/
  | bankctlRelease
  /-- BANKCTL_ARM (R237). -/
  | bankctlArm (a : KReg)
  /-- BANKCTL_DISARM (R218). -/
  | bankctlDisarm
  /-- PANEL_RESET (R374). -/
  | panelReset (stations : BitVec 4) (images : List (List Byte)) (deadDies : List DieId) (deadJunctions : List JunId) (deadEdges : List (Fin 72))
  /-- BUNDLE_ISSUE (R67). -/
  | bundleIssue (r : RowId)
  /-- ROW_UNFREEZE (R222). -/
  | rowUnfreeze (r : RowId)
  /-- RESULT_LAND (R77). -/
  | resultLand (r : RowId) (x : Side)
  /-- KVOTE_RESULT (R96). -/
  | kvoteResult (r : RowId) (x : Side)
  /-- CHK_VERDICT (R126). -/
  | chkVerdict (r : RowId) (x : Side)
  /-- TRANSLATION_WALK (R277). -/
  | translationWalk (r : RowId)
  /-- LOAD_DATA_RETURN (R180). -/
  | loadDataReturn (n : Nat)
  /-- STORE_PERFORM (R251). -/
  | storePerform (n : Nat)
  /-- WRITE_ACKNOWLEDGE (R253). -/
  | writeAcknowledge (r : RowId) (x : Side)
  /-- ATOMIC_PERFORM (R187). -/
  | atomicPerform (n : Nat)
  /-- ARRIVE_PERFORM (R189). -/
  | arrivePerform (n : Nat)
  /-- LOCK_ACQUIRE (R192). -/
  | lockAcquire (n : Nat)
  /-- LOCK_RELEASE (R193). -/
  | lockRelease (n : Nat)
  /-- DISCARD_PERFORM (R266). -/
  | discardPerform (n : Nat)
  /-- COPY_COMPLETE (R202). -/
  | copyComplete (n : Nat)
  /-- RED_PERFORM (R211). -/
  | redPerform (n : Nat)
  /-- CIPHER_COMPLETE (R213). -/
  | cipherComplete (n : Nat)
  /-- MMA_STEP_BEGIN (R164). -/
  | mmaStepBegin (r : RowId) (x : Side)
  /-- MMA_STEP_LAND (R165). -/
  | mmaStepLand (r : RowId) (x : Side)
  /-- MESSAGE_ARRIVAL (R238). -/
  | messageArrival (n : Nat)
  /-- SPAWN_ANSWER (R217). -/
  | spawnAnswer (r : RowId) (x : Side)
  /-- BANK_SWITCH (R225). -/
  | bankSwitch (r : RowId)
  /-- PREEMPTION (R230). -/
  | preemption (r : RowId) (x : Side)
  /-- BANK_STOP (R227). -/
  | bankStop (r : RowId) (x : Side)
  /-- BANK_RESUME (R229). -/
  | bankResume (r : RowId) (x : Side)
  /-- TRAP_ENTRY (R233). -/
  | trapEntry (r : RowId) (x : Side)
  /-- FAILED_BANK_EMPTY (R235). -/
  | failedBankEmpty (r : RowId) (x : Side)
  /-- SEGMENT_COMMIT (R240). -/
  | segmentCommit (r : RowId) (x : Side)
  /-- BLOCK_COMPLETE (R114). -/
  | blockComplete (r : RowId) (x : Side)
  /-- BLOCK_PLACE (R294). -/
  | blockPlace (launch : BitVec 32)
  /-- LAUNCH_COMPLETE (R297). -/
  | launchComplete (launch : BitVec 32)
  /-- BARRIER_RELEASE (R299). -/
  | barrierRelease (r : RowId) (x : Side)
  /-- RENDEZVOUS_RELEASE (R303). -/
  | rendezvousRelease (launch : BitVec 32)
  /-- BARMASK_WRITE (R300). -/
  | barmaskWrite (g : RegionId) (id : Fin 16) (die : Fin 10) (value : Word)
  /-- PACKET_TAKE (R305). -/
  | packetTake (qn : QueueId)
  /-- PACKET_START (R307). -/
  | packetStart (qn : QueueId)
  /-- LAUNCH_PACKET (R306). -/
  | launchPacket (qn : QueueId) (h : PktHdr) (record : Word)
  /-- TASK_PACKET (R322). -/
  | taskPacket (qn : QueueId) (h : PktHdr) (body : TaskBody)
  /-- RERUN_PACKET (R347). -/
  | rerunPacket (qn : QueueId) (h : PktHdr) (header : Word)
  /-- WAIT_PACKET (R306). -/
  | waitPacket (qn : QueueId) (h : PktHdr) (kind : Byte) (addr : Word) (operand : Word)
  /-- SIGNAL_PACKET (R306). -/
  | signalPacket (qn : QueueId) (h : PktHdr) (kind : Byte) (addr : Word) (operand : Word)
  /-- INDIRECT_PACKET (R308). -/
  | indirectPacket (qn : QueueId) (h : PktHdr) (array : Word) (count : BitVec 32)
  /-- FENCE_PACKET (R306). -/
  | fencePacket (qn : QueueId) (h : PktHdr) (scope : Byte)
  /-- BUDGET_PACKET (R318). -/
  | budgetPacket (qn : QueueId) (h : PktHdr) (addr : Word) (length : BitVec 32)
  /-- RING_DOORBELL (R304). -/
  | ringDoorbell (qn : QueueId) (ring : Fin 8) (tail : BitVec 32)
  /-- RING_BASE_WRITE (R304). -/
  | ringBaseWrite (qn : QueueId) (ring : Fin 8) (value : Word)
  /-- QUEUE_RESTART (R309). -/
  | queueRestart (qn : QueueId)
  /-- XINV_GO (R279). -/
  | xinvGo (tile : BitVec 32)
  /-- INVALIDATION_COMPLETE (R279). -/
  | invalidationComplete
  /-- DEMOTION (R282). -/
  | demotion (unit : TierUnit)
  /-- REQUEST_DONE (R313). -/
  | requestDone (h : Fin 4) (request : Nat) (handle : BitVec 32)
  /-- MOVE_COMPLETE (R285). -/
  | moveComplete (n : Nat)
  /-- AGE_TICK (R283). -/
  | ageTick
  /-- TIMETABLE_MESSAGE (R316). -/
  | timetableMessage (bytes : List Byte)
  /-- TT_SUBMIT (R318). -/
  | ttSubmit (addr : Word)
  /-- TIMETABLE_IN_FORCE (R317). -/
  | timetableInForce
  /-- TIMETABLE_POINT (R317). -/
  | timetablePoint
  /-- KILL_COMPLETE (R334). -/
  | killComplete (launch : BitVec 32)
  /-- TASK_RESUME (R333). -/
  | taskResume (task : Word)
  /-- EV_BASE_WRITE (R320). -/
  | evBaseWrite (value : Word)
  /-- CONTACT_SAMPLE (R330). -/
  | contactSample (s : Bool) (h : Bool)
  /-- TELEMETRY_SAMPLE (R325). -/
  | telemetrySample (watts : List Nat)
  /-- PERMIT_WINDOW (R327). -/
  | permitWindow (g : RegionId)
  /-- DROOP_ALARM (R328). -/
  | droopAlarm (g : RegionId)
  /-- DROOP_STRETCH_END (R328). -/
  | droopStretchEnd (g : RegionId)
  /-- DIE_GATE (R329). -/
  | dieGate (g : RegionId)
  /-- DIE_UNGATE (R329). -/
  | dieUngate (d : DieId)
  /-- RERUN_ROUND (R348). -/
  | rerunRound (launch : BitVec 32)
  /-- COHERENCE_REQUEST (R355). -/
  | coherenceRequest (asker : Requester) (line : Nat) (write : Bool)
  /-- HOST_ACCESS (R267). -/
  | hostAccess (addr : Nat) (write : Bool) (data : List Byte)
  /-- SWITCH_RECALL (R360). -/
  | switchRecall (line : Nat) (dirty : Option LineReturn)
  /-- SWITCH_LOSS (R361). -/
  | switchLoss (sw : Nat)
  /-- RECOVERY_COMPLETE (R361). -/
  | recoveryComplete (line : Nat) (outcome : Recovered)
  /-- PANEL_ANSWER_TIMEOUT (R361). -/
  | panelAnswerTimeout (answers : PanelAnswers)
  /-- LINK_WAKE_COMPLETE (R363). -/
  | linkWakeComplete (d : DieId) (j : JunId)
  /-- LINK_WAKE_FAIL (R363). -/
  | linkWakeFail (d : DieId) (j : JunId)
  /-- DIE_DEAD (R363). -/
  | dieDead (d : DieId)
  /-- ERROR_DETECTED (R365). -/
  | errorDetected (e : ErrorReport)
  /-- CP_RELOAD_COMPLETE (R371). -/
  | cpReloadComplete (g : RegionId)
  /-- RAS_BASE_WRITE (R367). -/
  | rasBaseWrite (value : Word)
  /-- SCRUB_STEP (R368). -/
  | scrubStep (unit : TierUnit) (result : ScrubResult)
  /-- INJECTION_ARM (R369). -/
  | injectionArm (place : InjPlace) (value : Word)
  /-- HEARTBEAT (R374). -/
  | heartbeat
  /-- STATION_TAKEOVER (R374). -/
  | stationTakeover (spares : Spares)
  /-- ALARM (R380). -/
  | alarm (source : AlarmSource)
  /-- ALARM_POLICY_WRITE (R380). -/
  | alarmPolicyWrite (value : Word)
  /-- WORLD_CREATE (R383). -/
  | worldCreate (world : Byte) (rows : Nat) (slots : Word)
  /-- WORLD_DESTROY (R383). -/
  | worldDestroy (world : Byte)
  /-- MEASURE (R390). -/
  | measure (session : BitVec 32) (addr : Word)
  /-- ATTEST (R384). -/
  | attest (session : BitVec 32) (addr : Word)
  /-- RELEASE_KEY (R385). -/
  | releaseKey (session : BitVec 32) (addr : Word)
  /-- ACKNOWLEDGE (R389). -/
  | acknowledge (session : BitVec 32) (addr : Word)
  /-- LIFE_CYCLE (R379). -/
  | lifeCycle (session : BitVec 32) (addr : Word)
  /-- KEY_REVOKE (R386). -/
  | keyRevoke (value : Word)
  /-- REVOCATION_COMPLETE (R386). -/
  | revocationComplete
  /-- FW_STAGE (R388). -/
  | fwStage (addr : Word)
  /-- FW_ACTIVATE (R389). -/
  | fwActivate
  /-- STAGING_LAPSE (R389). -/
  | stagingLapse
  /-- REGISTER_WRITE (R216). -/
  | registerWrite (addr : Nat) (value : Word)
  /-- RETIREMENT_REQUEST (R373). -/
  | retirementRequest (r : RowId)
deriving DecidableEq, Repr

end Sys2Proof
end

