-- ==== Sys2Proof/WellFormed.lean ====
section
/-! DEFINITION. The field rules that the operand types alone do not say (R62, R79, R90, R93, R94, R97, R99, R124, R129, R140,
R158, R175, R200, R216). -/

namespace Sys2Proof

/-- The codes mfs reads (R124). -/
def CReg.mfsOk : CReg → Bool
  | .rankBlk | .rankRegion | .rankDie | .rankRow | .rankQuad | .rankCore => true
  | .index _ | .fmt | .mxstep | .chk | .lswin | .tsave | .nflags | .tl _ => true
  | .loopDepth | .callDepth | .deckleLo | .deckleHi | .chkAlias | .sysperm | .trapvec | .trapWord _ | .bank => false
  | .istep | .barsel | .barmask | .wgen => false

/-- The codes kget reads (R93). -/
def CReg.kgetOk : CReg → Bool
  | .rankBlk | .rankRegion | .rankDie | .rankRow | .index _ | .fmt | .mxstep | .chk | .loopDepth | .callDepth => true
  | .rankQuad | .rankCore | .lswin | .tsave | .nflags | .tl _ | .deckleLo | .deckleHi | .chkAlias | .sysperm => false
  | .trapvec | .trapWord _ | .bank | .istep | .barsel | .barmask | .wgen => false

/-- The codes kset writes: 0x020 and 0x021 (R94). -/
def CReg.ksetOk : CReg → Bool
  | .nflags | .chkAlias => true
  | .rankBlk | .rankRegion | .rankDie | .rankRow | .rankQuad | .rankCore | .index _ | .fmt | .mxstep | .chk => false
  | .loopDepth | .callDepth | .deckleLo | .lswin | .tsave | .deckleHi | .tl _ | .sysperm | .trapvec | .trapWord _ => false
  | .bank | .istep | .barsel | .barmask | .wgen => false

/-- The codes mtcr and mfcr name (R216). -/
def CReg.mtcrOk : CReg → Bool
  | .rankQuad | .rankCore | .loopDepth | .callDepth | .tl _ => false
  | .rankBlk | .rankRegion | .rankDie | .rankRow | .index _ | .fmt | .mxstep | .chk | .deckleLo | .lswin | .tsave => true
  | .deckleHi | .nflags | .chkAlias | .sysperm | .trapvec | .trapWord _ | .bank | .istep | .barsel | .barmask | .wgen => true

/-- The scopes of red: R69's codes 2 to 7 (R200). -/
def Scope.redOk : Scope → Bool
  | .row | .die | .region | .panel | .pod | .system => true
  | .lane | .core | .quad => false

/-- The scopes of bar; lane, core and system trap ILLEGAL_OP (R109). -/
def Scope.barOk : Scope → Bool
  | .quad | .row | .die | .region | .panel | .pod => true
  | .lane | .core | .system => false

/-- The conversions that round, and so take a mode (R140): codes 3-11, 13, 14, 16, 17, 19 and 20. -/
def cvtRounds (c : Fin 32) : Bool :=
  (3 ≤ c.val && c.val ≤ 11) || c.val == 13 || c.val == 14 || c.val == 16 || c.val == 17 || c.val == 19 || c.val == 20

/-- The operations and events have no encoding. -/
def Instr.isSyllable : Instr → Bool
  | .panelReset _ _ _ _ _ => false
  | .bundleIssue _ => false
  | .rowUnfreeze _ => false
  | .resultLand _ _ => false
  | .kvoteResult _ _ => false
  | .chkVerdict _ _ => false
  | .translationWalk _ => false
  | .loadDataReturn _ => false
  | .storePerform _ => false
  | .writeAcknowledge _ _ => false
  | .atomicPerform _ => false
  | .arrivePerform _ => false
  | .lockAcquire _ => false
  | .lockRelease _ => false
  | .discardPerform _ => false
  | .copyComplete _ => false
  | .redPerform _ => false
  | .cipherComplete _ => false
  | .mmaStepBegin _ _ => false
  | .mmaStepLand _ _ => false
  | .messageArrival _ => false
  | .spawnAnswer _ _ => false
  | .bankSwitch _ => false
  | .preemption _ _ => false
  | .bankStop _ _ => false
  | .bankResume _ _ => false
  | .trapEntry _ _ => false
  | .failedBankEmpty _ _ => false
  | .segmentCommit _ _ => false
  | .blockComplete _ _ => false
  | .blockPlace _ => false
  | .launchComplete _ => false
  | .barrierRelease _ _ => false
  | .rendezvousRelease _ => false
  | .barmaskWrite _ _ _ _ => false
  | .packetTake _ => false
  | .packetStart _ => false
  | .launchPacket _ _ _ => false
  | .taskPacket _ _ _ => false
  | .rerunPacket _ _ _ => false
  | .waitPacket _ _ _ _ _ => false
  | .signalPacket _ _ _ _ _ => false
  | .indirectPacket _ _ _ _ => false
  | .fencePacket _ _ _ => false
  | .budgetPacket _ _ _ _ => false
  | .ringDoorbell _ _ _ => false
  | .ringBaseWrite _ _ _ => false
  | .queueRestart _ => false
  | .xinvGo _ => false
  | .invalidationComplete => false
  | .demotion _ => false
  | .requestDone _ _ _ => false
  | .moveComplete _ => false
  | .ageTick => false
  | .timetableMessage _ => false
  | .ttSubmit _ => false
  | .timetableInForce => false
  | .timetablePoint => false
  | .killComplete _ => false
  | .taskResume _ => false
  | .evBaseWrite _ => false
  | .contactSample _ _ => false
  | .telemetrySample _ => false
  | .permitWindow _ => false
  | .droopAlarm _ => false
  | .droopStretchEnd _ => false
  | .dieGate _ => false
  | .dieUngate _ => false
  | .rerunRound _ => false
  | .coherenceRequest _ _ _ => false
  | .hostAccess _ _ _ => false
  | .switchRecall _ _ => false
  | .switchLoss _ => false
  | .recoveryComplete _ _ => false
  | .panelAnswerTimeout _ => false
  | .linkWakeComplete _ _ => false
  | .linkWakeFail _ _ => false
  | .dieDead _ => false
  | .errorDetected _ => false
  | .cpReloadComplete _ => false
  | .rasBaseWrite _ => false
  | .scrubStep _ _ => false
  | .injectionArm _ _ => false
  | .heartbeat => false
  | .stationTakeover _ => false
  | .alarm _ => false
  | .alarmPolicyWrite _ => false
  | .worldCreate _ _ _ => false
  | .worldDestroy _ => false
  | .measure _ _ => false
  | .attest _ _ => false
  | .releaseKey _ _ => false
  | .acknowledge _ _ => false
  | .lifeCycle _ _ => false
  | .keyRevoke _ => false
  | .revocationComplete => false
  | .fwStage _ => false
  | .fwActivate => false
  | .stagingLapse => false
  | .registerWrite _ _ => false
  | .retirementRequest _ => false
  | .add _ _ _ _ _ => true
  | .sub _ _ _ _ _ => true
  | .mul _ _ _ _ _ => true
  | .mulh _ _ _ _ _ => true
  | .mulhn _ _ _ _ _ => true
  | .div _ _ _ _ _ => true
  | .divn _ _ _ _ _ => true
  | .rem _ _ _ _ _ => true
  | .remn _ _ _ _ _ => true
  | .and _ _ _ _ _ => true
  | .or _ _ _ _ _ => true
  | .xor _ _ _ _ _ => true
  | .andn _ _ _ _ _ => true
  | .shl _ _ _ _ _ => true
  | .shr _ _ _ _ _ => true
  | .sar _ _ _ _ _ => true
  | .rol _ _ _ _ _ => true
  | .min _ _ _ _ _ => true
  | .max _ _ _ _ _ => true
  | .minn _ _ _ _ _ => true
  | .maxn _ _ _ _ _ => true
  | .slt _ _ _ _ _ => true
  | .sltn _ _ _ _ _ => true
  | .seq _ _ _ _ _ => true
  | .sne _ _ _ _ _ => true
  | .sel _ _ _ _ _ => true
  | .clz _ _ _ _ => true
  | .ctz _ _ _ _ => true
  | .popc _ _ _ _ => true
  | .sext _ _ _ _ _ => true
  | .zext _ _ _ _ _ => true
  | .mfs _ _ _ => true
  | .chk _ _ _ _ _ => true
  | .addi _ _ _ _ => true
  | .andi _ _ _ _ => true
  | .ori _ _ _ _ => true
  | .xori _ _ _ _ => true
  | .shli _ _ _ _ => true
  | .shri _ _ _ _ => true
  | .sari _ _ _ _ => true
  | .li _ _ _ => true
  | .lui _ _ _ => true
  | .vadd _ _ _ _ _ _ _ => true
  | .vsub _ _ _ _ _ _ _ => true
  | .vmul _ _ _ _ _ _ _ => true
  | .vmulh _ _ _ _ _ _ _ => true
  | .vmin _ _ _ _ _ _ _ => true
  | .vmax _ _ _ _ _ _ _ => true
  | .vabs _ _ _ _ _ _ => true
  | .vneg _ _ _ _ _ _ => true
  | .vand _ _ _ _ _ _ => true
  | .vor _ _ _ _ _ _ => true
  | .vxor _ _ _ _ _ _ => true
  | .vandn _ _ _ _ _ _ => true
  | .vshl _ _ _ _ _ _ _ => true
  | .vshr _ _ _ _ _ _ _ => true
  | .vsar _ _ _ _ _ _ _ => true
  | .vadds _ _ _ _ _ _ _ => true
  | .vsubs _ _ _ _ _ _ _ => true
  | .vfadd _ _ _ _ _ _ _ => true
  | .vfsub _ _ _ _ _ _ _ => true
  | .vfmul _ _ _ _ _ _ _ => true
  | .vfma _ _ _ _ _ _ _ => true
  | .vfms _ _ _ _ _ _ _ => true
  | .vfmin _ _ _ _ _ _ _ => true
  | .vfmax _ _ _ _ _ _ _ => true
  | .vfabs _ _ _ _ _ _ => true
  | .vfneg _ _ _ _ _ _ => true
  | .vexp2 _ _ _ _ _ _ => true
  | .vlog2 _ _ _ _ _ _ => true
  | .vrcp _ _ _ _ _ _ => true
  | .vrsqrt _ _ _ _ _ _ => true
  | .vcmp _ _ _ _ _ _ _ => true
  | .vfcmp _ _ _ _ _ _ _ => true
  | .qand _ _ _ _ _ => true
  | .qor _ _ _ _ _ => true
  | .qxor _ _ _ _ _ => true
  | .qnot _ _ _ _ => true
  | .qcnt _ _ _ _ => true
  | .vsel _ _ _ _ _ _ => true
  | .vcvt _ _ _ _ _ _ _ => true
  | .vbcast _ _ _ _ _ _ => true
  | .vext _ _ _ _ _ _ => true
  | .vperm _ _ _ _ _ _ _ => true
  | .vred _ _ _ _ _ _ => true
  | .vscan _ _ _ _ _ _ => true
  | .vpack _ _ _ _ _ => true
  | .vunpack _ _ _ _ _ _ _ => true
  | .vchk _ _ _ _ _ _ => true
  | .ldLS _ _ _ => true
  | .ldLV _ _ _ => true
  | .stLS _ _ _ => true
  | .stLV _ _ _ => true
  | .ldQS _ _ _ => true
  | .ldQV _ _ _ => true
  | .stQS _ _ _ => true
  | .stQV _ _ _ => true
  | .ldt _ _ _ => true
  | .stt _ _ _ _ => true
  | .ldg _ _ _ => true
  | .stg _ _ _ _ => true
  | .tagq _ _ _ => true
  | .tagset _ _ _ => true
  | .tagclr _ _ => true
  | .tagclrAll _ => true
  | .atomAdd _ _ _ _ _ => true
  | .atomMin _ _ _ _ _ => true
  | .atomMax _ _ _ _ _ => true
  | .atomAnd _ _ _ _ _ => true
  | .atomOr _ _ _ _ _ => true
  | .atomXor _ _ _ _ _ => true
  | .atomSwap _ _ _ _ _ => true
  | .atomCas _ _ _ _ _ _ => true
  | .arrive _ _ _ _ => true
  | .waitp _ _ _ _ => true
  | .acq _ _ _ => true
  | .rel _ _ _ => true
  | .discard _ _ _ => true
  | .pref _ _ _ _ => true
  | .vpush _ _ _ => true
  | .mma _ _ _ _ _ => true
  | .mmaZ _ _ _ _ _ => true
  | .mmaSat _ _ _ _ _ => true
  | .mmaN _ _ _ _ _ _ _ => true
  | .tcfg _ _ _ _ => true
  | .tzero _ => true
  | .trowW _ _ _ _ _ => true
  | .trowR _ _ _ _ _ => true
  | .tcolW _ _ _ _ _ => true
  | .tcolR _ _ _ _ _ => true
  | .tld _ _ _ => true
  | .tst _ _ _ => true
  | .cpyIn _ _ _ _ _ => true
  | .cpyInR _ _ _ _ => true
  | .cpyOut _ _ _ _ _ => true
  | .cpyGat _ _ _ _ _ => true
  | .cpySct _ _ _ _ _ => true
  | .cpyLl _ _ _ _ _ => true
  | .send _ _ _ _ => true
  | .red _ _ _ _ _ => true
  | .seal _ _ _ => true
  | .opn _ _ _ => true
  | .nop _ => true
  | .kli _ _ => true
  | .kadd _ _ _ => true
  | .ksub _ _ _ => true
  | .kaddi _ _ _ => true
  | .kand _ _ _ => true
  | .kor _ _ _ => true
  | .kshl _ _ _ => true
  | .kshr _ _ _ => true
  | .kget _ _ => true
  | .kset _ _ => true
  | .kvote _ _ _ _ => true
  | .br _ => true
  | .bz _ _ => true
  | .bnz _ _ => true
  | .beq _ _ _ => true
  | .bne _ _ _ => true
  | .blt _ _ _ => true
  | .bge _ _ _ => true
  | .call _ => true
  | .ret => true
  | .loop _ _ => true
  | .loopImmediate _ _ => true
  | .lbreak _ => true
  | .lbreakUnconditional => true
  | .sfmt _ => true
  | .wait _ _ => true
  | .bar _ _ => true
  | .fence _ => true
  | .lstep _ _ => true
  | .leaveReq _ => true
  | .leaveRet => true
  | .seg => true
  | .rdv _ => true
  | .trap _ => true
  | .halt => true
  | .tret => true
  | .tretSkip => true
  | .mtcr _ _ => true
  | .mfcr _ _ => true
  | .spawn _ _ => true
  | .rerun _ _ => true
  | .bankctlYield => true
  | .bankctlHold => true
  | .bankctlRelease => true
  | .bankctlArm _ => true
  | .bankctlDisarm => true

/-- The rules of R62 and of each description that an operand's type does not already hold. -/
def Instr.wellFormed : Instr → Bool
  | .add _ _ _ _ _ => true
  | .sub _ _ _ _ _ => true
  | .mul _ _ _ _ _ => true
  | .mulh _ _ _ _ _ => true
  | .mulhn _ _ _ _ _ => true
  | .div _ _ _ _ _ => true
  | .divn _ _ _ _ _ => true
  | .rem _ _ _ _ _ => true
  | .remn _ _ _ _ _ => true
  | .and _ _ _ _ _ => true
  | .or _ _ _ _ _ => true
  | .xor _ _ _ _ _ => true
  | .andn _ _ _ _ _ => true
  | .shl _ _ _ _ _ => true
  | .shr _ _ _ _ _ => true
  | .sar _ _ _ _ _ => true
  | .rol _ _ _ _ _ => true
  | .min _ _ _ _ _ => true
  | .max _ _ _ _ _ => true
  | .minn _ _ _ _ _ => true
  | .maxn _ _ _ _ _ => true
  | .slt _ _ _ _ _ => true
  | .sltn _ _ _ _ _ => true
  | .seq _ _ _ _ _ => true
  | .sne _ _ _ _ _ => true
  | .sel _ _ _ _ _ => true
  | .clz _ _ _ _ => true
  | .ctz _ _ _ _ => true
  | .popc _ _ _ _ => true
  | .sext _ _ _ _ _ => true
  | .zext _ _ _ _ _ => true
  | .mfs _ _ c => c.mfsOk
  | .chk _ _ _ _ _ => true
  | .addi _ _ _ _ => true
  | .andi _ _ _ _ => true
  | .ori _ _ _ _ => true
  | .xori _ _ _ _ => true
  | .shli _ _ _ _ => true
  | .shri _ _ _ _ => true
  | .sari _ _ _ _ => true
  | .li _ _ _ => true
  | .lui _ _ _ => true
  | .vadd _ _ _ _ _ _ _ => true
  | .vsub _ _ _ _ _ _ _ => true
  | .vmul _ _ _ _ _ _ _ => true
  | .vmulh _ _ _ _ _ _ _ => true
  | .vmin _ _ _ _ _ _ _ => true
  | .vmax _ _ _ _ _ _ _ => true
  | .vabs _ _ _ _ _ _ => true
  | .vneg _ _ _ _ _ _ => true
  | .vand _ _ _ _ _ _ => true
  | .vor _ _ _ _ _ _ => true
  | .vxor _ _ _ _ _ _ => true
  | .vandn _ _ _ _ _ _ => true
  | .vshl _ _ _ _ _ _ _ => true
  | .vshr _ _ _ _ _ _ _ => true
  | .vsar _ _ _ _ _ _ _ => true
  | .vadds _ _ _ _ _ _ _ => true
  | .vsubs _ _ _ _ _ _ _ => true
  | .vfadd _ _ _ _ _ _ _ => true
  | .vfsub _ _ _ _ _ _ _ => true
  | .vfmul _ _ _ _ _ _ _ => true
  | .vfma _ _ _ _ _ _ _ => true
  | .vfms _ _ _ _ _ _ _ => true
  | .vfmin _ _ _ _ _ _ _ => true
  | .vfmax _ _ _ _ _ _ _ => true
  | .vfabs _ _ _ _ _ _ => true
  | .vfneg _ _ _ _ _ _ => true
  | .vexp2 _ _ _ _ _ _ => true
  | .vlog2 _ _ _ _ _ _ => true
  | .vrcp _ _ _ _ _ _ => true
  | .vrsqrt _ _ _ _ _ _ => true
  | .vcmp _ d _ _ _ _ _ => d != 0
  | .vfcmp _ d _ _ _ _ _ => d != 0
  | .qand _ d _ _ _ => d != 0
  | .qor _ d _ _ _ => d != 0
  | .qxor _ d _ _ _ => d != 0
  | .qnot _ d _ _ => d != 0
  | .qcnt _ _ _ _ => true
  | .vsel _ _ _ _ _ _ => true
  | .vcvt _ _ _ c _ _ m => cvtRounds c || m == .rne
  | .vbcast _ _ _ _ _ _ => true
  | .vext _ _ _ _ _ _ => true
  | .vperm _ _ _ _ _ _ _ => true
  | .vred _ _ _ _ _ _ => true
  | .vscan _ _ _ _ _ _ => true
  | .vpack _ _ _ _ _ => true
  | .vunpack _ _ _ _ _ _ _ => true
  | .vchk _ _ _ _ _ _ => true
  | .ldLS _ _ _ => true
  | .ldLV _ _ _ => true
  | .stLS _ _ _ => true
  | .stLV _ _ _ => true
  | .ldQS _ _ _ => true
  | .ldQV _ _ _ => true
  | .stQS _ _ _ => true
  | .stQV _ _ _ => true
  | .ldt _ _ _ => true
  | .stt _ _ _ _ => true
  | .ldg _ _ _ => true
  | .stg _ _ _ _ => true
  | .tagq _ _ _ => true
  | .tagset _ _ _ => true
  | .tagclr _ _ => true
  | .tagclrAll _ => true
  | .atomAdd _ _ sc _ _ => sc != .lane
  | .atomMin _ _ sc _ _ => sc != .lane
  | .atomMax _ _ sc _ _ => sc != .lane
  | .atomAnd _ _ sc _ t => sc != .lane && t != .f32
  | .atomOr _ _ sc _ t => sc != .lane && t != .f32
  | .atomXor _ _ sc _ t => sc != .lane && t != .f32
  | .atomSwap _ _ sc _ _ => sc != .lane
  | .atomCas _ _ _ sc _ _ => sc != .lane
  | .arrive _ _ sc _ => sc != .lane
  | .waitp _ _ _ sc => sc != .lane
  | .acq _ sc _ => sc != .lane
  | .rel _ sc _ => sc != .lane
  | .discard _ _ _ => true
  | .pref _ _ _ _ => true
  | .vpush _ _ _ => true
  | .mma _ a b _ _ => a != b
  | .mmaZ _ a b _ _ => a != b
  | .mmaSat _ a b _ _ => a != b
  | .mmaN _ _ _ a _ b _ => a != b
  | .tcfg _ _ _ _ => true
  | .tzero _ => true
  | .trowW _ _ _ _ _ => true
  | .trowR _ _ _ _ _ => true
  | .tcolW _ _ _ _ _ => true
  | .tcolR _ _ _ _ _ => true
  | .tld _ _ _ => true
  | .tst _ _ _ => true
  | .cpyIn _ _ _ _ _ => true
  | .cpyInR _ _ _ _ => true
  | .cpyOut _ _ _ _ _ => true
  | .cpyGat _ _ _ _ _ => true
  | .cpySct _ _ _ _ _ => true
  | .cpyLl _ _ _ _ _ => true
  | .send _ _ _ _ => true
  | .red _ _ _ _ sc => sc.redOk
  | .seal _ _ _ => true
  | .opn _ _ _ => true
  | .nop n => n != 0
  | .kli _ _ => true
  | .kadd _ _ _ => true
  | .ksub _ _ _ => true
  | .kaddi _ _ _ => true
  | .kand _ _ _ => true
  | .kor _ _ _ => true
  | .kshl _ _ _ => true
  | .kshr _ _ _ => true
  | .kget _ c => c.kgetOk
  | .kset _ c => c.ksetOk
  | .kvote _ _ _ _ => true
  | .br _ => true
  | .bz _ _ => true
  | .bnz _ _ => true
  | .beq _ _ _ => true
  | .bne _ _ _ => true
  | .blt _ _ _ => true
  | .bge _ _ _ => true
  | .call _ => true
  | .ret => true
  | .loop _ _ => true
  | .loopImmediate n _ => n != 0
  | .lbreak _ => true
  | .lbreakUnconditional => true
  | .sfmt _ => true
  | .wait _ _ => true
  | .bar _ sc => sc.barOk
  | .fence sc => sc != .lane
  | .lstep _ _ => true
  | .leaveReq _ => true
  | .leaveRet => true
  | .seg => true
  | .rdv _ => true
  | .trap _ => true
  | .halt => true
  | .tret => true
  | .tretSkip => true
  | .mtcr _ c => c.mtcrOk
  | .mfcr _ c => c.mtcrOk
  | .spawn _ _ => true
  | .rerun _ _ => true
  | .bankctlYield => true
  | .bankctlHold => true
  | .bankctlRelease => true
  | .bankctlArm _ => true
  | .bankctlDisarm => true
  | .panelReset _ _ _ _ _ => true
  | .bundleIssue _ => true
  | .rowUnfreeze _ => true
  | .resultLand _ _ => true
  | .kvoteResult _ _ => true
  | .chkVerdict _ _ => true
  | .translationWalk _ => true
  | .loadDataReturn _ => true
  | .storePerform _ => true
  | .writeAcknowledge _ _ => true
  | .atomicPerform _ => true
  | .arrivePerform _ => true
  | .lockAcquire _ => true
  | .lockRelease _ => true
  | .discardPerform _ => true
  | .copyComplete _ => true
  | .redPerform _ => true
  | .cipherComplete _ => true
  | .mmaStepBegin _ _ => true
  | .mmaStepLand _ _ => true
  | .messageArrival _ => true
  | .spawnAnswer _ _ => true
  | .bankSwitch _ => true
  | .preemption _ _ => true
  | .bankStop _ _ => true
  | .bankResume _ _ => true
  | .trapEntry _ _ => true
  | .failedBankEmpty _ _ => true
  | .segmentCommit _ _ => true
  | .blockComplete _ _ => true
  | .blockPlace _ => true
  | .launchComplete _ => true
  | .barrierRelease _ _ => true
  | .rendezvousRelease _ => true
  | .barmaskWrite _ _ _ _ => true
  | .packetTake _ => true
  | .packetStart _ => true
  | .launchPacket _ _ _ => true
  | .taskPacket _ _ _ => true
  | .rerunPacket _ _ _ => true
  | .waitPacket _ _ _ _ _ => true
  | .signalPacket _ _ _ _ _ => true
  | .indirectPacket _ _ _ _ => true
  | .fencePacket _ _ _ => true
  | .budgetPacket _ _ _ _ => true
  | .ringDoorbell _ _ _ => true
  | .ringBaseWrite _ _ _ => true
  | .queueRestart _ => true
  | .xinvGo _ => true
  | .invalidationComplete => true
  | .demotion _ => true
  | .requestDone _ _ _ => true
  | .moveComplete _ => true
  | .ageTick => true
  | .timetableMessage _ => true
  | .ttSubmit _ => true
  | .timetableInForce => true
  | .timetablePoint => true
  | .killComplete _ => true
  | .taskResume _ => true
  | .evBaseWrite _ => true
  | .contactSample _ _ => true
  | .telemetrySample _ => true
  | .permitWindow _ => true
  | .droopAlarm _ => true
  | .droopStretchEnd _ => true
  | .dieGate _ => true
  | .dieUngate _ => true
  | .rerunRound _ => true
  | .coherenceRequest _ _ _ => true
  | .hostAccess _ _ _ => true
  | .switchRecall _ _ => true
  | .switchLoss _ => true
  | .recoveryComplete _ _ => true
  | .panelAnswerTimeout _ => true
  | .linkWakeComplete _ _ => true
  | .linkWakeFail _ _ => true
  | .dieDead _ => true
  | .errorDetected _ => true
  | .cpReloadComplete _ => true
  | .rasBaseWrite _ => true
  | .scrubStep _ _ => true
  | .injectionArm _ _ => true
  | .heartbeat => true
  | .stationTakeover _ => true
  | .alarm _ => true
  | .alarmPolicyWrite _ => true
  | .worldCreate _ _ _ => true
  | .worldDestroy _ => true
  | .measure _ _ => true
  | .attest _ _ => true
  | .releaseKey _ _ => true
  | .acknowledge _ _ => true
  | .lifeCycle _ _ => true
  | .keyRevoke _ => true
  | .revocationComplete => true
  | .fwStage _ => true
  | .fwActivate => true
  | .stagingLapse => true
  | .registerWrite _ _ => true
  | .retirementRequest _ => true

end Sys2Proof
end

