-- ==== Sys2Proof/Decode.lean ====
section
/-! DEFINITION. The decoder of one syllable, total on any 32 bits and rejecting by name (R60-R62, R68-R74), the splitting of
syllables into bundles (R63), the words of the opcode table, and after them the encoder, from the same tables. -/

namespace Sys2Proof

/-- Why a syllable is not an instruction; each of these is ILLEGAL_OP at decode, check 3 of R64. -/
inductive DecErr where
  /-- The code point is unassigned (R74). -/
  | unassigned
  /-- A bit the instruction does not use is set (R62). -/
  | nonzeroField
  /-- A register field does not hold a member of its class (R62). -/
  | badRegister
  /-- v31, s31 or q0 as a destination (R62). -/
  | badDestination
  /-- W = 0b11 (R62). -/
  | badWidth
  /-- A type, condition, mode or operation code the tables do not list (R129, R158, R175, R200). -/
  | badModifier
  /-- A scope the instruction does not take (R92, R109, R110, R200). -/
  | badScope
  /-- A control register code the instruction does not list (R93, R94, R124, R216). -/
  | badCode
  /-- A count, index or part outside its range (R79, R99, R158, R175, R200). -/
  | badCount
  /-- imm17[16:15] of a target is not 0 (R97). -/
  | badTarget
  /-- Reel A and reel B of an mma are one reel (R158). -/
  | sameReel
deriving DecidableEq, Repr

/-- A field that must be 0. -/
def zero {α : Type} (e : DecErr) (n : Nat) (k : Except DecErr α) : Except DecErr α :=
  if n = 0 then k else .error e

/-- A field that must hold a number below `m`. -/
def fin {α : Type} (m : Nat) (e : DecErr) (n : Nat) (k : Fin m → Except DecErr α) : Except DecErr α :=
  if h : n < m then k ⟨n, h⟩ else .error e

/-- A field of `w` bits kept as its pattern. -/
def bits {α : Type} (w n : Nat) (k : BitVec w → Except DecErr α) : Except DecErr α :=
  k (BitVec.ofNat w n)

/-- A field of one bit. -/
def flag {α : Type} (n : Nat) (k : Bool → Except DecErr α) : Except DecErr α :=
  k (n == 1)

/-- A field that must hold a listed code. -/
def code {α β : Type} (e : DecErr) (o : Option β) (k : β → Except DecErr α) : Except DecErr α :=
  match o with
  | some b => k b
  | none => .error e

/-- A rule over several fields. -/
def need {α : Type} (e : DecErr) (b : Bool) (k : Except DecErr α) : Except DecErr α :=
  if b then k else .error e

/-- W: 0b00 256, 0b01 512, 0b10 1024 bits; 0b11 is not a width (R62). -/
def widthOf : Nat → Option Width
  | 0 => some .w256
  | 1 => some .w512
  | 2 => some .w1024
  | _ => none

/-- M of the integer vector forms (R132). -/
def eTypeOf : Nat → Option EType
  | 0 => some .i8
  | 1 => some .i16
  | 2 => some .i32
  | 3 => some .i64
  | _ => none

/-- M of the floating vector forms (R70). -/
def fTypeOf : Nat → Option FType
  | 0 => some .f32
  | 1 => some .bf16
  | _ => none

/-- M of sext and zext (R117). -/
def extOf : Nat → Option ExtW
  | 0 => some .w8
  | 1 => some .w16
  | 2 => some .w32
  | _ => none

/-- M of chk and vchk (R125, R150). -/
def chkOf : Nat → Option ChkOp
  | 0 => some .eq
  | 1 => some .ne
  | 2 => some .lt
  | _ => none

/-- Q of vcmp (R136). -/
def vCondOf : Nat → Option VCond
  | 0 => some .eq
  | 1 => some .ne
  | 2 => some .lt
  | 3 => some .le
  | 4 => some .ltn
  | 5 => some .len
  | _ => none

/-- Q of vfcmp (R137). -/
def fCondOf : Nat → Option FCond
  | 0 => some .eq
  | 1 => some .ne
  | 2 => some .lt
  | 3 => some .le
  | 4 => some .un
  | _ => none

/-- M of kvote (R95). -/
def voteOf : Nat → Option VoteOp
  | 0 => some .any
  | 1 => some .all
  | 2 => some .sum
  | 3 => some .max
  | _ => none

/-- M of vcvt (R140). -/
def rModeOf : Nat → Option RMode
  | 0 => some .rne
  | 1 => some .rz
  | 2 => some .ru
  | 3 => some .rd
  | _ => none

/-- M of an atomic and H of red (R69, R200). -/
def aTypeOf : Nat → Option AType
  | 0 => some .i32
  | 1 => some .i64
  | 2 => some .f32
  | _ => none

/-- The type field of tcfg; 3 is illegal (R158). -/
def tTypeOf : Nat → Option TType
  | 0 => some .none
  | 1 => some .f32
  | 2 => some .i32
  | _ => none

/-- The scope codes of AG and CX (R69). -/
def scopeQOf : Nat → Option Scope
  | 0 => some .core
  | 1 => some .quad
  | 2 => some .row
  | 3 => some .die
  | 4 => some .region
  | 5 => some .panel
  | 6 => some .pod
  | 7 => some .system
  | _ => none

/-- The scope codes of KC; 9-15 are not a scope (R92). -/
def scopeKOf : Nat → Option Scope
  | 0 => some .lane
  | 1 => some .core
  | 2 => some .quad
  | 3 => some .row
  | 4 => some .die
  | 5 => some .region
  | 6 => some .panel
  | 7 => some .pod
  | 8 => some .system
  | _ => none

/-- B and M of vred and vscan: 0 add, 1 min, 2 max with an integer type; 4 fadd, 5 fmin, 6 fmax with a format (R145). -/
def redOpOf (b m : Nat) : Option RedOp :=
  match b with
  | 0 => (eTypeOf m).map .add
  | 1 => (eTypeOf m).map .min
  | 2 => (eTypeOf m).map .max
  | 4 => (fTypeOf m).map .fadd
  | 5 => (fTypeOf m).map .fmin
  | 6 => (fTypeOf m).map .fmax
  | _ => none

/-- The field code of lstep; 5-7 trap ILLEGAL_OP (R103). -/
def stepFieldOf : Nat → Option StepField
  | 0 => some .d
  | 1 => some .a
  | 2 => some .b
  | 3 => some .q
  | 4 => some .imm
  | _ => none

/-- The sys22 fields of lstep: V 21, offset 20:15, unit 14:12, field 11:9, step 8:5, mod 4:0 (R103). -/
def stepFieldsOf (x : Nat) : Option StepFields :=
  (stepFieldOf (x / 512 % 8)).map fun f =>
    { active := x / 2097152 % 2 == 1
      offset := ⟨x / 32768 % 64, Nat.mod_lt _ (by decide)⟩
      unit := ⟨x / 4096 % 8, Nat.mod_lt _ (by decide)⟩
      field := f
      step := BitVec.ofNat 4 (x / 32 % 16)
      mod := ⟨x % 32, Nat.mod_lt _ (by decide)⟩ }

/-- A member of a run of codes that begins at `lo`. -/
def runOf {α : Type} (lo m c : Nat) (k : Fin m → α) : Option α :=
  if h : lo ≤ c ∧ c < lo + m then some (k ⟨c - lo, by omega⟩) else none

/-- The control register a code names (R93, R94, R124, R216). -/
def cregOf (c : Nat) : Option CReg :=
  match c with
  | 0x000 => some .rankBlk
  | 0x001 => some .rankRegion
  | 0x002 => some .rankDie
  | 0x003 => some .rankRow
  | 0x004 => some .rankQuad
  | 0x005 => some .rankCore
  | 0x010 => some .fmt
  | 0x011 => some .mxstep
  | 0x012 => some .chk
  | 0x013 => some .loopDepth
  | 0x014 => some .callDepth
  | 0x018 => some .deckleLo
  | 0x019 => some .lswin
  | 0x01A => some .tsave
  | 0x01B => some .deckleHi
  | 0x020 => some .nflags
  | 0x021 => some .chkAlias
  | 0x040 => some .sysperm
  | 0x041 => some .trapvec
  | 0x050 => some .bank
  | 0x080 => some .istep
  | 0x090 => some .barsel
  | 0x091 => some .barmask
  | 0x0A0 => some .wgen
  | _ => ((runOf 0x008 6 c .index).or (runOf 0x030 8 c .tl)).or (runOf 0x042 6 c .trapWord)


/-- The SA and SB map: the instruction that opcode `op` with operand bits `x` names (R68, R115-R125). -/
def decodeS (u : Twin) (op x : Nat) : Except DecErr Instr :=
  match op with
  | 0 =>
    zero .nonzeroField (x % 16) <| fin 31 .badDestination (x / 131072 % 32) fun d => fin 32 .badRegister (x / 4096 % 32) fun a => fin 32 .badRegister (x / 128 % 32) fun b => fin 8 .badRegister (x / 16 % 8) fun q => .ok (.add u d a b q)
  | 1 =>
    zero .nonzeroField (x % 16) <| fin 31 .badDestination (x / 131072 % 32) fun d => fin 32 .badRegister (x / 4096 % 32) fun a => fin 32 .badRegister (x / 128 % 32) fun b => fin 8 .badRegister (x / 16 % 8) fun q => .ok (.sub u d a b q)
  | 2 =>
    zero .nonzeroField (x % 16) <| fin 31 .badDestination (x / 131072 % 32) fun d => fin 32 .badRegister (x / 4096 % 32) fun a => fin 32 .badRegister (x / 128 % 32) fun b => fin 8 .badRegister (x / 16 % 8) fun q => .ok (.mul u d a b q)
  | 3 =>
    zero .nonzeroField (x % 16) <| fin 31 .badDestination (x / 131072 % 32) fun d => fin 32 .badRegister (x / 4096 % 32) fun a => fin 32 .badRegister (x / 128 % 32) fun b => fin 8 .badRegister (x / 16 % 8) fun q => .ok (.mulh u d a b q)
  | 4 =>
    zero .nonzeroField (x % 16) <| fin 31 .badDestination (x / 131072 % 32) fun d => fin 32 .badRegister (x / 4096 % 32) fun a => fin 32 .badRegister (x / 128 % 32) fun b => fin 8 .badRegister (x / 16 % 8) fun q => .ok (.mulhn u d a b q)
  | 5 =>
    zero .nonzeroField (x % 16) <| fin 31 .badDestination (x / 131072 % 32) fun d => fin 32 .badRegister (x / 4096 % 32) fun a => fin 32 .badRegister (x / 128 % 32) fun b => fin 8 .badRegister (x / 16 % 8) fun q => .ok (.div u d a b q)
  | 6 =>
    zero .nonzeroField (x % 16) <| fin 31 .badDestination (x / 131072 % 32) fun d => fin 32 .badRegister (x / 4096 % 32) fun a => fin 32 .badRegister (x / 128 % 32) fun b => fin 8 .badRegister (x / 16 % 8) fun q => .ok (.divn u d a b q)
  | 7 =>
    zero .nonzeroField (x % 16) <| fin 31 .badDestination (x / 131072 % 32) fun d => fin 32 .badRegister (x / 4096 % 32) fun a => fin 32 .badRegister (x / 128 % 32) fun b => fin 8 .badRegister (x / 16 % 8) fun q => .ok (.rem u d a b q)
  | 8 =>
    zero .nonzeroField (x % 16) <| fin 31 .badDestination (x / 131072 % 32) fun d => fin 32 .badRegister (x / 4096 % 32) fun a => fin 32 .badRegister (x / 128 % 32) fun b => fin 8 .badRegister (x / 16 % 8) fun q => .ok (.remn u d a b q)
  | 9 =>
    zero .nonzeroField (x % 16) <| fin 31 .badDestination (x / 131072 % 32) fun d => fin 32 .badRegister (x / 4096 % 32) fun a => fin 32 .badRegister (x / 128 % 32) fun b => fin 8 .badRegister (x / 16 % 8) fun q => .ok (.and u d a b q)
  | 10 =>
    zero .nonzeroField (x % 16) <| fin 31 .badDestination (x / 131072 % 32) fun d => fin 32 .badRegister (x / 4096 % 32) fun a => fin 32 .badRegister (x / 128 % 32) fun b => fin 8 .badRegister (x / 16 % 8) fun q => .ok (.or u d a b q)
  | 11 =>
    zero .nonzeroField (x % 16) <| fin 31 .badDestination (x / 131072 % 32) fun d => fin 32 .badRegister (x / 4096 % 32) fun a => fin 32 .badRegister (x / 128 % 32) fun b => fin 8 .badRegister (x / 16 % 8) fun q => .ok (.xor u d a b q)
  | 12 =>
    zero .nonzeroField (x % 16) <| fin 31 .badDestination (x / 131072 % 32) fun d => fin 32 .badRegister (x / 4096 % 32) fun a => fin 32 .badRegister (x / 128 % 32) fun b => fin 8 .badRegister (x / 16 % 8) fun q => .ok (.andn u d a b q)
  | 13 =>
    zero .nonzeroField (x % 16) <| fin 31 .badDestination (x / 131072 % 32) fun d => fin 32 .badRegister (x / 4096 % 32) fun a => fin 32 .badRegister (x / 128 % 32) fun b => fin 8 .badRegister (x / 16 % 8) fun q => .ok (.shl u d a b q)
  | 14 =>
    zero .nonzeroField (x % 16) <| fin 31 .badDestination (x / 131072 % 32) fun d => fin 32 .badRegister (x / 4096 % 32) fun a => fin 32 .badRegister (x / 128 % 32) fun b => fin 8 .badRegister (x / 16 % 8) fun q => .ok (.shr u d a b q)
  | 15 =>
    zero .nonzeroField (x % 16) <| fin 31 .badDestination (x / 131072 % 32) fun d => fin 32 .badRegister (x / 4096 % 32) fun a => fin 32 .badRegister (x / 128 % 32) fun b => fin 8 .badRegister (x / 16 % 8) fun q => .ok (.sar u d a b q)
  | 16 =>
    zero .nonzeroField (x % 16) <| fin 31 .badDestination (x / 131072 % 32) fun d => fin 32 .badRegister (x / 4096 % 32) fun a => fin 32 .badRegister (x / 128 % 32) fun b => fin 8 .badRegister (x / 16 % 8) fun q => .ok (.rol u d a b q)
  | 17 =>
    zero .nonzeroField (x % 16) <| fin 31 .badDestination (x / 131072 % 32) fun d => fin 32 .badRegister (x / 4096 % 32) fun a => fin 32 .badRegister (x / 128 % 32) fun b => fin 8 .badRegister (x / 16 % 8) fun q => .ok (.min u d a b q)
  | 18 =>
    zero .nonzeroField (x % 16) <| fin 31 .badDestination (x / 131072 % 32) fun d => fin 32 .badRegister (x / 4096 % 32) fun a => fin 32 .badRegister (x / 128 % 32) fun b => fin 8 .badRegister (x / 16 % 8) fun q => .ok (.max u d a b q)
  | 19 =>
    zero .nonzeroField (x % 16) <| fin 31 .badDestination (x / 131072 % 32) fun d => fin 32 .badRegister (x / 4096 % 32) fun a => fin 32 .badRegister (x / 128 % 32) fun b => fin 8 .badRegister (x / 16 % 8) fun q => .ok (.minn u d a b q)
  | 20 =>
    zero .nonzeroField (x % 16) <| fin 31 .badDestination (x / 131072 % 32) fun d => fin 32 .badRegister (x / 4096 % 32) fun a => fin 32 .badRegister (x / 128 % 32) fun b => fin 8 .badRegister (x / 16 % 8) fun q => .ok (.maxn u d a b q)
  | 21 =>
    zero .nonzeroField (x % 16) <| fin 31 .badDestination (x / 131072 % 32) fun d => fin 32 .badRegister (x / 4096 % 32) fun a => fin 32 .badRegister (x / 128 % 32) fun b => fin 8 .badRegister (x / 16 % 8) fun q => .ok (.slt u d a b q)
  | 22 =>
    zero .nonzeroField (x % 16) <| fin 31 .badDestination (x / 131072 % 32) fun d => fin 32 .badRegister (x / 4096 % 32) fun a => fin 32 .badRegister (x / 128 % 32) fun b => fin 8 .badRegister (x / 16 % 8) fun q => .ok (.sltn u d a b q)
  | 23 =>
    zero .nonzeroField (x % 16) <| fin 31 .badDestination (x / 131072 % 32) fun d => fin 32 .badRegister (x / 4096 % 32) fun a => fin 32 .badRegister (x / 128 % 32) fun b => fin 8 .badRegister (x / 16 % 8) fun q => .ok (.seq u d a b q)
  | 24 =>
    zero .nonzeroField (x % 16) <| fin 31 .badDestination (x / 131072 % 32) fun d => fin 32 .badRegister (x / 4096 % 32) fun a => fin 32 .badRegister (x / 128 % 32) fun b => fin 8 .badRegister (x / 16 % 8) fun q => .ok (.sne u d a b q)
  | 25 =>
    zero .nonzeroField (x % 16) <| fin 31 .badDestination (x / 131072 % 32) fun d => fin 32 .badRegister (x / 4096 % 32) fun a => fin 32 .badRegister (x / 128 % 32) fun b => fin 8 .badRegister (x / 16 % 8) fun q => .ok (.sel u d a b q)
  | 26 =>
    zero .nonzeroField (x % 16) <| zero .nonzeroField (x / 128 % 32) <| fin 31 .badDestination (x / 131072 % 32) fun d => fin 32 .badRegister (x / 4096 % 32) fun a => fin 8 .badRegister (x / 16 % 8) fun q => .ok (.clz u d a q)
  | 27 =>
    zero .nonzeroField (x % 16) <| zero .nonzeroField (x / 128 % 32) <| fin 31 .badDestination (x / 131072 % 32) fun d => fin 32 .badRegister (x / 4096 % 32) fun a => fin 8 .badRegister (x / 16 % 8) fun q => .ok (.ctz u d a q)
  | 28 =>
    zero .nonzeroField (x % 16) <| zero .nonzeroField (x / 128 % 32) <| fin 31 .badDestination (x / 131072 % 32) fun d => fin 32 .badRegister (x / 4096 % 32) fun a => fin 8 .badRegister (x / 16 % 8) fun q => .ok (.popc u d a q)
  | 29 =>
    zero .nonzeroField (x / 4 % 4) <| zero .nonzeroField (x / 128 % 32) <| fin 31 .badDestination (x / 131072 % 32) fun d => fin 32 .badRegister (x / 4096 % 32) fun a => fin 8 .badRegister (x / 16 % 8) fun q => code .badModifier (extOf (x % 4)) fun m => .ok (.sext u d a q m)
  | 30 =>
    zero .nonzeroField (x / 4 % 4) <| zero .nonzeroField (x / 128 % 32) <| fin 31 .badDestination (x / 131072 % 32) fun d => fin 32 .badRegister (x / 4096 % 32) fun a => fin 8 .badRegister (x / 16 % 8) fun q => code .badModifier (extOf (x % 4)) fun m => .ok (.zext u d a q m)
  | 31 =>
    zero .nonzeroField (x / 4096 % 32) <| fin 31 .badDestination (x / 131072 % 32) fun d => code .badCode (cregOf (x % 4096)) fun c => need .badCode (c.mfsOk) (.ok (.mfs u d c))
  | 32 =>
    zero .nonzeroField (x / 4 % 4) <| zero .nonzeroField (x / 131072 % 32) <| fin 32 .badRegister (x / 4096 % 32) fun a => fin 32 .badRegister (x / 128 % 32) fun b => fin 8 .badRegister (x / 16 % 8) fun q => code .badModifier (chkOf (x % 4)) fun m => .ok (.chk u a b q m)
  | 40 =>
    fin 31 .badDestination (x / 131072 % 32) fun d => fin 32 .badRegister (x / 4096 % 32) fun a => bits 12 (x % 4096) fun imm => .ok (.addi u d a imm)
  | 41 =>
    fin 31 .badDestination (x / 131072 % 32) fun d => fin 32 .badRegister (x / 4096 % 32) fun a => bits 12 (x % 4096) fun imm => .ok (.andi u d a imm)
  | 42 =>
    fin 31 .badDestination (x / 131072 % 32) fun d => fin 32 .badRegister (x / 4096 % 32) fun a => bits 12 (x % 4096) fun imm => .ok (.ori u d a imm)
  | 43 =>
    fin 31 .badDestination (x / 131072 % 32) fun d => fin 32 .badRegister (x / 4096 % 32) fun a => bits 12 (x % 4096) fun imm => .ok (.xori u d a imm)
  | 44 =>
    fin 31 .badDestination (x / 131072 % 32) fun d => fin 32 .badRegister (x / 4096 % 32) fun a => fin 64 .badCount (x % 4096) fun n => .ok (.shli u d a n)
  | 45 =>
    fin 31 .badDestination (x / 131072 % 32) fun d => fin 32 .badRegister (x / 4096 % 32) fun a => fin 64 .badCount (x % 4096) fun n => .ok (.shri u d a n)
  | 46 =>
    fin 31 .badDestination (x / 131072 % 32) fun d => fin 32 .badRegister (x / 4096 % 32) fun a => fin 64 .badCount (x % 4096) fun n => .ok (.sari u d a n)
  | 47 => fin 31 .badDestination (x / 131072 % 32) fun d => bits 17 (x % 131072) fun imm => .ok (.li u d imm)
  | 48 => fin 31 .badDestination (x / 131072 % 32) fun d => bits 17 (x % 131072) fun imm => .ok (.lui u d imm)
  | _ => .error .unassigned

/-- The VA and VB map: the instruction that opcode `op` with operand bits `x` names (R70, R129-R150). -/
def decodeV (u : Twin) (op x : Nat) : Except DecErr Instr :=
  match op with
  | 0 =>
    fin 31 .badDestination (x / 131072 % 32) fun d => fin 32 .badRegister (x / 4096 % 32) fun a => fin 32 .badRegister (x / 128 % 32) fun b => fin 8 .badRegister (x / 16 % 8) fun q => code .badWidth (widthOf (x / 4 % 4)) fun w => code .badModifier (eTypeOf (x % 4)) fun t => .ok (.vadd u d a b q w t)
  | 1 =>
    fin 31 .badDestination (x / 131072 % 32) fun d => fin 32 .badRegister (x / 4096 % 32) fun a => fin 32 .badRegister (x / 128 % 32) fun b => fin 8 .badRegister (x / 16 % 8) fun q => code .badWidth (widthOf (x / 4 % 4)) fun w => code .badModifier (eTypeOf (x % 4)) fun t => .ok (.vsub u d a b q w t)
  | 2 =>
    fin 31 .badDestination (x / 131072 % 32) fun d => fin 32 .badRegister (x / 4096 % 32) fun a => fin 32 .badRegister (x / 128 % 32) fun b => fin 8 .badRegister (x / 16 % 8) fun q => code .badWidth (widthOf (x / 4 % 4)) fun w => code .badModifier (eTypeOf (x % 4)) fun t => .ok (.vmul u d a b q w t)
  | 3 =>
    fin 31 .badDestination (x / 131072 % 32) fun d => fin 32 .badRegister (x / 4096 % 32) fun a => fin 32 .badRegister (x / 128 % 32) fun b => fin 8 .badRegister (x / 16 % 8) fun q => code .badWidth (widthOf (x / 4 % 4)) fun w => code .badModifier (eTypeOf (x % 4)) fun t => .ok (.vmulh u d a b q w t)
  | 4 =>
    fin 31 .badDestination (x / 131072 % 32) fun d => fin 32 .badRegister (x / 4096 % 32) fun a => fin 32 .badRegister (x / 128 % 32) fun b => fin 8 .badRegister (x / 16 % 8) fun q => code .badWidth (widthOf (x / 4 % 4)) fun w => code .badModifier (eTypeOf (x % 4)) fun t => .ok (.vmin u d a b q w t)
  | 5 =>
    fin 31 .badDestination (x / 131072 % 32) fun d => fin 32 .badRegister (x / 4096 % 32) fun a => fin 32 .badRegister (x / 128 % 32) fun b => fin 8 .badRegister (x / 16 % 8) fun q => code .badWidth (widthOf (x / 4 % 4)) fun w => code .badModifier (eTypeOf (x % 4)) fun t => .ok (.vmax u d a b q w t)
  | 6 =>
    zero .nonzeroField (x / 128 % 32) <| fin 31 .badDestination (x / 131072 % 32) fun d => fin 32 .badRegister (x / 4096 % 32) fun a => fin 8 .badRegister (x / 16 % 8) fun q => code .badWidth (widthOf (x / 4 % 4)) fun w => code .badModifier (eTypeOf (x % 4)) fun t => .ok (.vabs u d a q w t)
  | 7 =>
    zero .nonzeroField (x / 128 % 32) <| fin 31 .badDestination (x / 131072 % 32) fun d => fin 32 .badRegister (x / 4096 % 32) fun a => fin 8 .badRegister (x / 16 % 8) fun q => code .badWidth (widthOf (x / 4 % 4)) fun w => code .badModifier (eTypeOf (x % 4)) fun t => .ok (.vneg u d a q w t)
  | 8 =>
    zero .nonzeroField (x % 4) <| fin 31 .badDestination (x / 131072 % 32) fun d => fin 32 .badRegister (x / 4096 % 32) fun a => fin 32 .badRegister (x / 128 % 32) fun b => fin 8 .badRegister (x / 16 % 8) fun q => code .badWidth (widthOf (x / 4 % 4)) fun w => .ok (.vand u d a b q w)
  | 9 =>
    zero .nonzeroField (x % 4) <| fin 31 .badDestination (x / 131072 % 32) fun d => fin 32 .badRegister (x / 4096 % 32) fun a => fin 32 .badRegister (x / 128 % 32) fun b => fin 8 .badRegister (x / 16 % 8) fun q => code .badWidth (widthOf (x / 4 % 4)) fun w => .ok (.vor u d a b q w)
  | 10 =>
    zero .nonzeroField (x % 4) <| fin 31 .badDestination (x / 131072 % 32) fun d => fin 32 .badRegister (x / 4096 % 32) fun a => fin 32 .badRegister (x / 128 % 32) fun b => fin 8 .badRegister (x / 16 % 8) fun q => code .badWidth (widthOf (x / 4 % 4)) fun w => .ok (.vxor u d a b q w)
  | 11 =>
    zero .nonzeroField (x % 4) <| fin 31 .badDestination (x / 131072 % 32) fun d => fin 32 .badRegister (x / 4096 % 32) fun a => fin 32 .badRegister (x / 128 % 32) fun b => fin 8 .badRegister (x / 16 % 8) fun q => code .badWidth (widthOf (x / 4 % 4)) fun w => .ok (.vandn u d a b q w)
  | 12 =>
    fin 31 .badDestination (x / 131072 % 32) fun d => fin 32 .badRegister (x / 4096 % 32) fun a => fin 32 .badRegister (x / 128 % 32) fun b => fin 8 .badRegister (x / 16 % 8) fun q => code .badWidth (widthOf (x / 4 % 4)) fun w => code .badModifier (eTypeOf (x % 4)) fun t => .ok (.vshl u d a b q w t)
  | 13 =>
    fin 31 .badDestination (x / 131072 % 32) fun d => fin 32 .badRegister (x / 4096 % 32) fun a => fin 32 .badRegister (x / 128 % 32) fun b => fin 8 .badRegister (x / 16 % 8) fun q => code .badWidth (widthOf (x / 4 % 4)) fun w => code .badModifier (eTypeOf (x % 4)) fun t => .ok (.vshr u d a b q w t)
  | 14 =>
    fin 31 .badDestination (x / 131072 % 32) fun d => fin 32 .badRegister (x / 4096 % 32) fun a => fin 32 .badRegister (x / 128 % 32) fun b => fin 8 .badRegister (x / 16 % 8) fun q => code .badWidth (widthOf (x / 4 % 4)) fun w => code .badModifier (eTypeOf (x % 4)) fun t => .ok (.vsar u d a b q w t)
  | 15 =>
    fin 31 .badDestination (x / 131072 % 32) fun d => fin 32 .badRegister (x / 4096 % 32) fun a => fin 32 .badRegister (x / 128 % 32) fun b => fin 8 .badRegister (x / 16 % 8) fun q => code .badWidth (widthOf (x / 4 % 4)) fun w => code .badModifier (eTypeOf (x % 4)) fun t => .ok (.vadds u d a b q w t)
  | 16 =>
    fin 31 .badDestination (x / 131072 % 32) fun d => fin 32 .badRegister (x / 4096 % 32) fun a => fin 32 .badRegister (x / 128 % 32) fun b => fin 8 .badRegister (x / 16 % 8) fun q => code .badWidth (widthOf (x / 4 % 4)) fun w => code .badModifier (eTypeOf (x % 4)) fun t => .ok (.vsubs u d a b q w t)
  | 20 =>
    fin 31 .badDestination (x / 131072 % 32) fun d => fin 32 .badRegister (x / 4096 % 32) fun a => fin 32 .badRegister (x / 128 % 32) fun b => fin 8 .badRegister (x / 16 % 8) fun q => code .badWidth (widthOf (x / 4 % 4)) fun w => code .badModifier (fTypeOf (x % 4)) fun f => .ok (.vfadd u d a b q w f)
  | 21 =>
    fin 31 .badDestination (x / 131072 % 32) fun d => fin 32 .badRegister (x / 4096 % 32) fun a => fin 32 .badRegister (x / 128 % 32) fun b => fin 8 .badRegister (x / 16 % 8) fun q => code .badWidth (widthOf (x / 4 % 4)) fun w => code .badModifier (fTypeOf (x % 4)) fun f => .ok (.vfsub u d a b q w f)
  | 22 =>
    fin 31 .badDestination (x / 131072 % 32) fun d => fin 32 .badRegister (x / 4096 % 32) fun a => fin 32 .badRegister (x / 128 % 32) fun b => fin 8 .badRegister (x / 16 % 8) fun q => code .badWidth (widthOf (x / 4 % 4)) fun w => code .badModifier (fTypeOf (x % 4)) fun f => .ok (.vfmul u d a b q w f)
  | 23 =>
    fin 31 .badDestination (x / 131072 % 32) fun d => fin 32 .badRegister (x / 4096 % 32) fun a => fin 32 .badRegister (x / 128 % 32) fun b => fin 8 .badRegister (x / 16 % 8) fun q => code .badWidth (widthOf (x / 4 % 4)) fun w => code .badModifier (fTypeOf (x % 4)) fun f => .ok (.vfma u d a b q w f)
  | 24 =>
    fin 31 .badDestination (x / 131072 % 32) fun d => fin 32 .badRegister (x / 4096 % 32) fun a => fin 32 .badRegister (x / 128 % 32) fun b => fin 8 .badRegister (x / 16 % 8) fun q => code .badWidth (widthOf (x / 4 % 4)) fun w => code .badModifier (fTypeOf (x % 4)) fun f => .ok (.vfms u d a b q w f)
  | 25 =>
    fin 31 .badDestination (x / 131072 % 32) fun d => fin 32 .badRegister (x / 4096 % 32) fun a => fin 32 .badRegister (x / 128 % 32) fun b => fin 8 .badRegister (x / 16 % 8) fun q => code .badWidth (widthOf (x / 4 % 4)) fun w => code .badModifier (fTypeOf (x % 4)) fun f => .ok (.vfmin u d a b q w f)
  | 26 =>
    fin 31 .badDestination (x / 131072 % 32) fun d => fin 32 .badRegister (x / 4096 % 32) fun a => fin 32 .badRegister (x / 128 % 32) fun b => fin 8 .badRegister (x / 16 % 8) fun q => code .badWidth (widthOf (x / 4 % 4)) fun w => code .badModifier (fTypeOf (x % 4)) fun f => .ok (.vfmax u d a b q w f)
  | 27 =>
    zero .nonzeroField (x / 128 % 32) <| fin 31 .badDestination (x / 131072 % 32) fun d => fin 32 .badRegister (x / 4096 % 32) fun a => fin 8 .badRegister (x / 16 % 8) fun q => code .badWidth (widthOf (x / 4 % 4)) fun w => code .badModifier (fTypeOf (x % 4)) fun f => .ok (.vfabs u d a q w f)
  | 28 =>
    zero .nonzeroField (x / 128 % 32) <| fin 31 .badDestination (x / 131072 % 32) fun d => fin 32 .badRegister (x / 4096 % 32) fun a => fin 8 .badRegister (x / 16 % 8) fun q => code .badWidth (widthOf (x / 4 % 4)) fun w => code .badModifier (fTypeOf (x % 4)) fun f => .ok (.vfneg u d a q w f)
  | 32 =>
    zero .nonzeroField (x / 128 % 32) <| fin 31 .badDestination (x / 131072 % 32) fun d => fin 32 .badRegister (x / 4096 % 32) fun a => fin 8 .badRegister (x / 16 % 8) fun q => code .badWidth (widthOf (x / 4 % 4)) fun w => code .badModifier (fTypeOf (x % 4)) fun f => .ok (.vexp2 u d a q w f)
  | 33 =>
    zero .nonzeroField (x / 128 % 32) <| fin 31 .badDestination (x / 131072 % 32) fun d => fin 32 .badRegister (x / 4096 % 32) fun a => fin 8 .badRegister (x / 16 % 8) fun q => code .badWidth (widthOf (x / 4 % 4)) fun w => code .badModifier (fTypeOf (x % 4)) fun f => .ok (.vlog2 u d a q w f)
  | 34 =>
    zero .nonzeroField (x / 128 % 32) <| fin 31 .badDestination (x / 131072 % 32) fun d => fin 32 .badRegister (x / 4096 % 32) fun a => fin 8 .badRegister (x / 16 % 8) fun q => code .badWidth (widthOf (x / 4 % 4)) fun w => code .badModifier (fTypeOf (x % 4)) fun f => .ok (.vrcp u d a q w f)
  | 35 =>
    zero .nonzeroField (x / 128 % 32) <| fin 31 .badDestination (x / 131072 % 32) fun d => fin 32 .badRegister (x / 4096 % 32) fun a => fin 8 .badRegister (x / 16 % 8) fun q => code .badWidth (widthOf (x / 4 % 4)) fun w => code .badModifier (fTypeOf (x % 4)) fun f => .ok (.vrsqrt u d a q w f)
  | 36 =>
    fin 8 .badRegister (x / 131072 % 32) fun d => fin 32 .badRegister (x / 4096 % 32) fun a => fin 32 .badRegister (x / 128 % 32) fun b => code .badModifier (vCondOf (x / 16 % 8)) fun c => code .badWidth (widthOf (x / 4 % 4)) fun w => code .badModifier (eTypeOf (x % 4)) fun t => need .badDestination (d != 0) (.ok (.vcmp u d a b c w t))
  | 37 =>
    fin 8 .badRegister (x / 131072 % 32) fun d => fin 32 .badRegister (x / 4096 % 32) fun a => fin 32 .badRegister (x / 128 % 32) fun b => code .badModifier (fCondOf (x / 16 % 8)) fun c => code .badWidth (widthOf (x / 4 % 4)) fun w => code .badModifier (fTypeOf (x % 4)) fun f => need .badDestination (d != 0) (.ok (.vfcmp u d a b c w f))
  | 38 =>
    zero .nonzeroField (x % 4) <| zero .nonzeroField (x / 16 % 8) <| fin 8 .badRegister (x / 131072 % 32) fun d => fin 8 .badRegister (x / 4096 % 32) fun a => fin 8 .badRegister (x / 128 % 32) fun b => code .badWidth (widthOf (x / 4 % 4)) fun w => need .badDestination (d != 0) (.ok (.qand u d a b w))
  | 39 =>
    zero .nonzeroField (x % 4) <| zero .nonzeroField (x / 16 % 8) <| fin 8 .badRegister (x / 131072 % 32) fun d => fin 8 .badRegister (x / 4096 % 32) fun a => fin 8 .badRegister (x / 128 % 32) fun b => code .badWidth (widthOf (x / 4 % 4)) fun w => need .badDestination (d != 0) (.ok (.qor u d a b w))
  | 40 =>
    zero .nonzeroField (x % 4) <| zero .nonzeroField (x / 16 % 8) <| fin 8 .badRegister (x / 131072 % 32) fun d => fin 8 .badRegister (x / 4096 % 32) fun a => fin 8 .badRegister (x / 128 % 32) fun b => code .badWidth (widthOf (x / 4 % 4)) fun w => need .badDestination (d != 0) (.ok (.qxor u d a b w))
  | 41 =>
    zero .nonzeroField (x % 4) <| zero .nonzeroField (x / 16 % 256) <| fin 8 .badRegister (x / 131072 % 32) fun d => fin 8 .badRegister (x / 4096 % 32) fun a => code .badWidth (widthOf (x / 4 % 4)) fun w => need .badDestination (d != 0) (.ok (.qnot u d a w))
  | 42 =>
    zero .nonzeroField (x % 4) <| zero .nonzeroField (x / 16 % 256) <| fin 31 .badDestination (x / 131072 % 32) fun d => fin 8 .badRegister (x / 4096 % 32) fun a => code .badWidth (widthOf (x / 4 % 4)) fun w => .ok (.qcnt u d a w)
  | 43 =>
    zero .nonzeroField (x % 4) <| fin 31 .badDestination (x / 131072 % 32) fun d => fin 32 .badRegister (x / 4096 % 32) fun a => fin 32 .badRegister (x / 128 % 32) fun b => fin 8 .badRegister (x / 16 % 8) fun q => code .badWidth (widthOf (x / 4 % 4)) fun w => .ok (.vsel u d a b q w)
  | 44 =>
    fin 31 .badDestination (x / 131072 % 32) fun d => fin 32 .badRegister (x / 4096 % 32) fun a => fin 32 .badCount (x / 128 % 32) fun c => fin 8 .badRegister (x / 16 % 8) fun q => code .badWidth (widthOf (x / 4 % 4)) fun w => code .badModifier (rModeOf (x % 4)) fun m => need .badModifier (cvtRounds c || m == .rne) (.ok (.vcvt u d a c q w m))
  | 45 =>
    zero .nonzeroField (x / 128 % 32) <| fin 31 .badDestination (x / 131072 % 32) fun d => fin 32 .badRegister (x / 4096 % 32) fun a => fin 8 .badRegister (x / 16 % 8) fun q => code .badWidth (widthOf (x / 4 % 4)) fun w => code .badModifier (eTypeOf (x % 4)) fun t => .ok (.vbcast u d a q w t)
  | 46 =>
    zero .nonzeroField (x / 16 % 8) <| fin 31 .badDestination (x / 131072 % 32) fun d => fin 32 .badRegister (x / 4096 % 32) fun a => fin 32 .badRegister (x / 128 % 32) fun b => code .badWidth (widthOf (x / 4 % 4)) fun w => code .badModifier (eTypeOf (x % 4)) fun t => .ok (.vext u d a b w t)
  | 47 =>
    fin 31 .badDestination (x / 131072 % 32) fun d => fin 32 .badRegister (x / 4096 % 32) fun a => fin 32 .badRegister (x / 128 % 32) fun b => fin 8 .badRegister (x / 16 % 8) fun q => code .badWidth (widthOf (x / 4 % 4)) fun w => code .badModifier (eTypeOf (x % 4)) fun t => .ok (.vperm u d a b q w t)
  | 48 =>
    fin 31 .badDestination (x / 131072 % 32) fun d => fin 32 .badRegister (x / 4096 % 32) fun a => code .badModifier (redOpOf (x / 128 % 32) (x % 4)) fun o => fin 8 .badRegister (x / 16 % 8) fun q => code .badWidth (widthOf (x / 4 % 4)) fun w => .ok (.vred u d a o q w)
  | 49 =>
    fin 31 .badDestination (x / 131072 % 32) fun d => fin 32 .badRegister (x / 4096 % 32) fun a => code .badModifier (redOpOf (x / 128 % 32) (x % 4)) fun o => fin 8 .badRegister (x / 16 % 8) fun q => code .badWidth (widthOf (x / 4 % 4)) fun w => .ok (.vscan u d a o q w)
  | 50 =>
    zero .nonzeroField (x % 4) <| zero .nonzeroField (x / 128 % 32) <| fin 31 .badDestination (x / 131072 % 32) fun d => fin 32 .badRegister (x / 4096 % 32) fun a => fin 8 .badRegister (x / 16 % 8) fun q => code .badWidth (widthOf (x / 4 % 4)) fun w => .ok (.vpack u d a q w)
  | 51 =>
    fin 31 .badDestination (x / 131072 % 32) fun d => fin 32 .badRegister (x / 4096 % 32) fun a => fin 32 .badRegister (x / 128 % 32) fun b => fin 8 .badRegister (x / 16 % 8) fun q => code .badWidth (widthOf (x / 4 % 4)) fun w => code .badModifier (fTypeOf (x % 4)) fun f => .ok (.vunpack u d a b q w f)
  | 52 =>
    zero .nonzeroField (x / 131072 % 32) <| fin 32 .badRegister (x / 4096 % 32) fun a => fin 32 .badRegister (x / 128 % 32) fun b => fin 8 .badRegister (x / 16 % 8) fun q => code .badWidth (widthOf (x / 4 % 4)) fun w => code .badModifier (chkOf (x % 4)) fun c => .ok (.vchk u a b q w c)
  | _ => .error .unassigned

/-- The AG map: the instruction that opcode `op` with operand bits `x` names (R69, R174, R175). -/
def decodeAG (op x : Nat) : Except DecErr Instr :=
  match op with
  | 0 =>
    fin 31 .badDestination (x / 131072 % 32) fun d => fin 32 .badRegister (x / 4096 % 32) fun a => bits 12 (x % 4096) fun off => .ok (.ldLS d a off)
  | 1 =>
    fin 31 .badDestination (x / 131072 % 32) fun d => fin 32 .badRegister (x / 4096 % 32) fun a => bits 12 (x % 4096) fun off => .ok (.ldLV d a off)
  | 2 => fin 32 .badRegister (x / 131072 % 32) fun d => fin 32 .badRegister (x / 4096 % 32) fun a => bits 12 (x % 4096) fun off => .ok (.stLS d a off)
  | 3 => fin 32 .badRegister (x / 131072 % 32) fun d => fin 32 .badRegister (x / 4096 % 32) fun a => bits 12 (x % 4096) fun off => .ok (.stLV d a off)
  | 4 =>
    fin 31 .badDestination (x / 131072 % 32) fun d => fin 32 .badRegister (x / 4096 % 32) fun a => bits 12 (x % 4096) fun off => .ok (.ldQS d a off)
  | 5 =>
    fin 31 .badDestination (x / 131072 % 32) fun d => fin 32 .badRegister (x / 4096 % 32) fun a => bits 12 (x % 4096) fun off => .ok (.ldQV d a off)
  | 6 => fin 32 .badRegister (x / 131072 % 32) fun d => fin 32 .badRegister (x / 4096 % 32) fun a => bits 12 (x % 4096) fun off => .ok (.stQS d a off)
  | 7 => fin 32 .badRegister (x / 131072 % 32) fun d => fin 32 .badRegister (x / 4096 % 32) fun a => bits 12 (x % 4096) fun off => .ok (.stQV d a off)
  | 8 =>
    zero .nonzeroField (x / 16 % 8) <| zero .nonzeroField (x / 131072 % 32) <| fin 32 .badRegister (x / 4096 % 32) fun a => fin 32 .badRegister (x / 128 % 32) fun b => zero .nonzeroField (x / 2 % 8) <| flag (x % 2) fun v => .ok (.ldt a b v)
  | 9 =>
    zero .nonzeroField (x / 16 % 8) <| fin 32 .badCount (x / 131072 % 32) fun d => fin 32 .badRegister (x / 4096 % 32) fun a => fin 32 .badRegister (x / 128 % 32) fun b => zero .nonzeroField (x / 2 % 8) <| flag (x % 2) fun v => .ok (.stt d a b v)
  | 10 =>
    zero .nonzeroField (x / 131072 % 32) <| fin 32 .badRegister (x / 4096 % 32) fun a => flag (x / 2048 % 2) fun v => bits 11 (x % 2048) fun off => .ok (.ldg a v off)
  | 11 =>
    fin 32 .badCount (x / 131072 % 32) fun d => fin 32 .badRegister (x / 4096 % 32) fun a => flag (x / 2048 % 2) fun v => bits 11 (x % 2048) fun off => .ok (.stg d a v off)
  | 12 =>
    zero .nonzeroField (x % 16) <| zero .nonzeroField (x / 128 % 32) <| fin 31 .badDestination (x / 131072 % 32) fun d => fin 32 .badRegister (x / 4096 % 32) fun a => fin 8 .badRegister (x / 16 % 8) fun q => .ok (.tagq d a q)
  | 13 =>
    zero .nonzeroField (x % 16) <| zero .nonzeroField (x / 131072 % 32) <| fin 32 .badRegister (x / 4096 % 32) fun a => fin 32 .badRegister (x / 128 % 32) fun b => fin 8 .badRegister (x / 16 % 8) fun q => .ok (.tagset a b q)
  | 14 =>
    if x % 4 = 1 then zero .nonzeroField (x / 4 % 4) <| zero .nonzeroField (x / 128 % 32768) <| fin 8 .badRegister (x / 16 % 8) fun q => .ok (.tagclrAll q)
      else zero .nonzeroField (x % 16) <| zero .nonzeroField (x / 128 % 32) <| zero .nonzeroField (x / 131072 % 32) <| fin 32 .badRegister (x / 4096 % 32) fun a => fin 8 .badRegister (x / 16 % 8) fun q => .ok (.tagclr a q)
  | 16 =>
    zero .nonzeroField (x / 131072 % 32) <| fin 32 .badRegister (x / 4096 % 32) fun a => fin 32 .badRegister (x / 128 % 32) fun b => code .badScope (scopeQOf (x / 16 % 8)) fun sc => zero .nonzeroField (x / 8 % 2) <| flag (x / 4 % 2) fun ret => code .badModifier (aTypeOf (x % 4)) fun t => need .badScope (sc != .lane) (.ok (.atomAdd a b sc ret t))
  | 17 =>
    zero .nonzeroField (x / 131072 % 32) <| fin 32 .badRegister (x / 4096 % 32) fun a => fin 32 .badRegister (x / 128 % 32) fun b => code .badScope (scopeQOf (x / 16 % 8)) fun sc => zero .nonzeroField (x / 8 % 2) <| flag (x / 4 % 2) fun ret => code .badModifier (aTypeOf (x % 4)) fun t => need .badScope (sc != .lane) (.ok (.atomMin a b sc ret t))
  | 18 =>
    zero .nonzeroField (x / 131072 % 32) <| fin 32 .badRegister (x / 4096 % 32) fun a => fin 32 .badRegister (x / 128 % 32) fun b => code .badScope (scopeQOf (x / 16 % 8)) fun sc => zero .nonzeroField (x / 8 % 2) <| flag (x / 4 % 2) fun ret => code .badModifier (aTypeOf (x % 4)) fun t => need .badScope (sc != .lane) (.ok (.atomMax a b sc ret t))
  | 19 =>
    zero .nonzeroField (x / 131072 % 32) <| fin 32 .badRegister (x / 4096 % 32) fun a => fin 32 .badRegister (x / 128 % 32) fun b => code .badScope (scopeQOf (x / 16 % 8)) fun sc => zero .nonzeroField (x / 8 % 2) <| flag (x / 4 % 2) fun ret => code .badModifier (aTypeOf (x % 4)) fun t => need .badScope (sc != .lane && t != .f32) (.ok (.atomAnd a b sc ret t))
  | 20 =>
    zero .nonzeroField (x / 131072 % 32) <| fin 32 .badRegister (x / 4096 % 32) fun a => fin 32 .badRegister (x / 128 % 32) fun b => code .badScope (scopeQOf (x / 16 % 8)) fun sc => zero .nonzeroField (x / 8 % 2) <| flag (x / 4 % 2) fun ret => code .badModifier (aTypeOf (x % 4)) fun t => need .badScope (sc != .lane && t != .f32) (.ok (.atomOr a b sc ret t))
  | 21 =>
    zero .nonzeroField (x / 131072 % 32) <| fin 32 .badRegister (x / 4096 % 32) fun a => fin 32 .badRegister (x / 128 % 32) fun b => code .badScope (scopeQOf (x / 16 % 8)) fun sc => zero .nonzeroField (x / 8 % 2) <| flag (x / 4 % 2) fun ret => code .badModifier (aTypeOf (x % 4)) fun t => need .badScope (sc != .lane && t != .f32) (.ok (.atomXor a b sc ret t))
  | 22 =>
    zero .nonzeroField (x / 131072 % 32) <| fin 32 .badRegister (x / 4096 % 32) fun a => fin 32 .badRegister (x / 128 % 32) fun b => code .badScope (scopeQOf (x / 16 % 8)) fun sc => zero .nonzeroField (x / 8 % 2) <| flag (x / 4 % 2) fun ret => code .badModifier (aTypeOf (x % 4)) fun t => need .badScope (sc != .lane) (.ok (.atomSwap a b sc ret t))
  | 23 =>
    fin 32 .badRegister (x / 131072 % 32) fun d => fin 32 .badRegister (x / 4096 % 32) fun a => fin 32 .badRegister (x / 128 % 32) fun b => code .badScope (scopeQOf (x / 16 % 8)) fun sc => zero .nonzeroField (x / 8 % 2) <| flag (x / 4 % 2) fun ret => code .badModifier (aTypeOf (x % 4)) fun t => need .badScope (sc != .lane) (.ok (.atomCas d a b sc ret t))
  | 24 =>
    zero .nonzeroField (x / 4 % 4) <| zero .nonzeroField (x / 131072 % 32) <| fin 32 .badRegister (x / 4096 % 32) fun a => fin 32 .badRegister (x / 128 % 32) fun b => code .badScope (scopeQOf (x / 16 % 8)) fun sc => zero .nonzeroField (x / 2 % 2) <| flag (x % 2) fun row => need .badScope (sc != .lane) (.ok (.arrive a b sc row))
  | 25 =>
    zero .nonzeroField (x % 16) <| fin 31 .badDestination (x / 131072 % 32) fun d => fin 32 .badRegister (x / 4096 % 32) fun a => fin 32 .badRegister (x / 128 % 32) fun b => code .badScope (scopeQOf (x / 16 % 8)) fun sc => need .badScope (sc != .lane) (.ok (.waitp d a b sc))
  | 26 =>
    zero .nonzeroField (x / 4 % 4) <| zero .nonzeroField (x / 128 % 32) <| zero .nonzeroField (x / 131072 % 32) <| fin 32 .badRegister (x / 4096 % 32) fun a => code .badScope (scopeQOf (x / 16 % 8)) fun sc => zero .nonzeroField (x / 2 % 2) <| flag (x % 2) fun row => need .badScope (sc != .lane) (.ok (.acq a sc row))
  | 27 =>
    zero .nonzeroField (x / 4 % 4) <| zero .nonzeroField (x / 128 % 32) <| zero .nonzeroField (x / 131072 % 32) <| fin 32 .badRegister (x / 4096 % 32) fun a => code .badScope (scopeQOf (x / 16 % 8)) fun sc => zero .nonzeroField (x / 2 % 2) <| flag (x % 2) fun row => need .badScope (sc != .lane) (.ok (.rel a sc row))
  | 28 =>
    zero .nonzeroField (x / 16 % 8) <| zero .nonzeroField (x / 131072 % 32) <| fin 32 .badRegister (x / 4096 % 32) fun a => fin 32 .badRegister (x / 128 % 32) fun b => fin 11 .badCount (x % 16) fun n => .ok (.discard a b n)
  | 29 =>
    zero .nonzeroField (x / 131072 % 32) <| fin 32 .badRegister (x / 4096 % 32) fun a => fin 32 .badRegister (x / 128 % 32) fun b => zero .nonzeroField (x / 32 % 4) <| flag (x / 16 % 2) fun w => fin 11 .badCount (x % 16) fun n => .ok (.pref a b w n)
  | 30 =>
    zero .nonzeroField (x % 128) <| fin 8 .badRegister (x / 131072 % 32) fun d => fin 32 .badRegister (x / 4096 % 32) fun a => fin 4 .badCount (x / 128 % 32) fun p => .ok (.vpush d a p)
  | _ => .error .unassigned

/-- The MX map: the instruction that opcode `op` with operand bits `x` names (R71, R157, R158). -/
def decodeMX (op x : Nat) : Except DecErr Instr :=
  match op with
  | 0 =>
    zero .nonzeroField (x / 4 % 32) <| fin 8 .badRegister (x / 131072 % 32) fun d => fin 8 .badRegister (x / 4096 % 32) fun a => fin 8 .badRegister (x / 128 % 32) fun b => flag (x / 2 % 2) fun kb => flag (x % 2) fun ka => need .sameReel (a != b) (.ok (.mma d a b kb ka))
  | 1 =>
    zero .nonzeroField (x / 4 % 32) <| fin 8 .badRegister (x / 131072 % 32) fun d => fin 8 .badRegister (x / 4096 % 32) fun a => fin 8 .badRegister (x / 128 % 32) fun b => flag (x / 2 % 2) fun kb => flag (x % 2) fun ka => need .sameReel (a != b) (.ok (.mmaZ d a b kb ka))
  | 2 =>
    zero .nonzeroField (x / 4 % 32) <| fin 8 .badRegister (x / 131072 % 32) fun d => fin 8 .badRegister (x / 4096 % 32) fun a => fin 8 .badRegister (x / 128 % 32) fun b => flag (x / 2 % 2) fun kb => flag (x % 2) fun ka => need .sameReel (a != b) (.ok (.mmaSat d a b kb ka))
  | 3 =>
    fin 8 .badRegister (x / 131072 % 32) fun d => flag (x / 65536 % 2) fun kb => flag (x / 32768 % 2) fun ka => fin 8 .badRegister (x / 4096 % 8) fun a => flag (x / 2048 % 2) fun z => fin 8 .badRegister (x / 256 % 8) fun b => fin 256 .badCount (x % 256) fun n => need .sameReel (a != b) (.ok (.mmaN d kb ka a z b n))
  | 4 =>
    zero .nonzeroField (x / 1024 % 128) <| fin 8 .badRegister (x / 131072 % 32) fun d => code .badModifier (tTypeOf (x / 256 % 4)) fun t => fin 16 .badCount (x / 16 % 16) fun c => fin 16 .badCount (x % 16) fun r => .ok (.tcfg d t c r)
  | 5 => zero .nonzeroField (x % 131072) <| fin 8 .badRegister (x / 131072 % 32) fun d => .ok (.tzero d)
  | 6 =>
    zero .nonzeroField (x / 4 % 4) <| fin 8 .badRegister (x / 131072 % 32) fun d => fin 32 .badRegister (x / 4096 % 32) fun a => fin 16 .badCount (x / 128 % 32) fun i => fin 8 .badRegister (x / 16 % 8) fun q => zero .nonzeroField (x / 2 % 2) <| flag (x % 2) fun hi => .ok (.trowW d a i q hi)
  | 7 =>
    zero .nonzeroField (x / 4 % 4) <| fin 31 .badDestination (x / 131072 % 32) fun d => fin 8 .badRegister (x / 4096 % 32) fun a => fin 16 .badCount (x / 128 % 32) fun i => fin 8 .badRegister (x / 16 % 8) fun q => zero .nonzeroField (x / 2 % 2) <| flag (x % 2) fun hi => .ok (.trowR d a i q hi)
  | 8 =>
    zero .nonzeroField (x / 4 % 4) <| fin 8 .badRegister (x / 131072 % 32) fun d => fin 32 .badRegister (x / 4096 % 32) fun a => fin 16 .badCount (x / 128 % 32) fun i => fin 8 .badRegister (x / 16 % 8) fun q => zero .nonzeroField (x / 2 % 2) <| flag (x % 2) fun hi => .ok (.tcolW d a i q hi)
  | 9 =>
    zero .nonzeroField (x / 4 % 4) <| fin 31 .badDestination (x / 131072 % 32) fun d => fin 8 .badRegister (x / 4096 % 32) fun a => fin 16 .badCount (x / 128 % 32) fun i => fin 8 .badRegister (x / 16 % 8) fun q => zero .nonzeroField (x / 2 % 2) <| flag (x % 2) fun hi => .ok (.tcolR d a i q hi)
  | 10 =>
    zero .nonzeroField (x % 128) <| fin 8 .badRegister (x / 131072 % 32) fun d => fin 32 .badRegister (x / 4096 % 32) fun a => fin 32 .badRegister (x / 128 % 32) fun b => .ok (.tld d a b)
  | 11 =>
    zero .nonzeroField (x % 128) <| fin 8 .badRegister (x / 131072 % 32) fun d => fin 32 .badRegister (x / 4096 % 32) fun a => fin 32 .badRegister (x / 128 % 32) fun b => .ok (.tst d a b)
  | _ => .error .unassigned

/-- The CX map: the instruction that opcode `op` with operand bits `x` names (R72, R199, R200). -/
def decodeCX (op x : Nat) : Except DecErr Instr :=
  match op with
  | 0 =>
    if x % 16 = 8 then fin 8 .badRegister (x / 131072 % 32) fun d => fin 32 .badRegister (x / 4096 % 32) fun a => fin 32 .badRegister (x / 128 % 32) fun b => fin 4 .badCount (x / 16 % 8) fun h => .ok (.cpyInR d a b h)
      else fin 32 .badRegister (x / 131072 % 32) fun d => fin 32 .badRegister (x / 4096 % 32) fun a => fin 32 .badRegister (x / 128 % 32) fun b => fin 4 .badCount (x / 16 % 8) fun h => fin 8 .badCount (x % 16) fun n => .ok (.cpyIn d a b h n)
  | 1 =>
    fin 32 .badRegister (x / 131072 % 32) fun d => fin 32 .badRegister (x / 4096 % 32) fun a => fin 32 .badRegister (x / 128 % 32) fun b => fin 4 .badCount (x / 16 % 8) fun h => fin 8 .badCount (x % 16) fun n => .ok (.cpyOut d a b h n)
  | 2 =>
    fin 32 .badRegister (x / 131072 % 32) fun d => fin 32 .badRegister (x / 4096 % 32) fun a => fin 32 .badRegister (x / 128 % 32) fun b => fin 4 .badCount (x / 16 % 8) fun h => fin 8 .badCount (x % 16) fun n => .ok (.cpyGat d a b h n)
  | 3 =>
    fin 32 .badRegister (x / 131072 % 32) fun d => fin 32 .badRegister (x / 4096 % 32) fun a => fin 32 .badRegister (x / 128 % 32) fun b => fin 4 .badCount (x / 16 % 8) fun h => fin 8 .badCount (x % 16) fun n => .ok (.cpySct d a b h n)
  | 4 =>
    zero .nonzeroField (x / 16 % 8) <| fin 32 .badRegister (x / 131072 % 32) fun d => fin 32 .badRegister (x / 4096 % 32) fun a => fin 32 .badRegister (x / 128 % 32) fun b => fin 4 .badCount (x / 4 % 4) fun h => zero .nonzeroField (x / 2 % 2) <| flag (x % 2) fun qw => .ok (.cpyLl d a b h qw)
  | 5 =>
    zero .nonzeroField (x % 16) <| fin 32 .badRegister (x / 131072 % 32) fun d => fin 32 .badRegister (x / 4096 % 32) fun a => fin 32 .badRegister (x / 128 % 32) fun b => fin 8 .badRegister (x / 16 % 8) fun q => .ok (.send d a b q)
  | 6 =>
    fin 32 .badRegister (x / 131072 % 32) fun d => fin 32 .badRegister (x / 4096 % 32) fun a => fin 32 .badRegister (x / 128 % 32) fun b => code .badModifier (aTypeOf (x / 16 % 8)) fun t => code .badScope (scopeQOf (x % 16)) fun sc => need .badScope (sc.redOk) (.ok (.red d a b t sc))
  | 7 =>
    zero .nonzeroField (x % 128) <| fin 32 .badRegister (x / 131072 % 32) fun d => fin 32 .badRegister (x / 4096 % 32) fun a => fin 32 .badRegister (x / 128 % 32) fun b => .ok (.seal d a b)
  | 8 =>
    zero .nonzeroField (x % 128) <| fin 32 .badRegister (x / 131072 % 32) fun d => fin 32 .badRegister (x / 4096 % 32) fun a => fin 32 .badRegister (x / 128 % 32) fun b => .ok (.opn d a b)
  | _ => .error .unassigned

/-- The KC map: the instruction that opcode `op` with operand bits `x` names (R73, R90-R105, R215). -/
def decodeKC (op x : Nat) : Except DecErr Instr :=
  match op with
  | 0 => zero .nonzeroField (x / 131072 % 32) <| fin 65 .badCount (x % 131072) fun n => need .badCount (n != 0) (.ok (.nop n))
  | 1 => fin 16 .badRegister (x / 131072 % 32) fun d => bits 17 (x % 131072) fun imm => .ok (.kli d imm)
  | 2 =>
    zero .nonzeroField (x % 128) <| fin 16 .badRegister (x / 131072 % 32) fun d => fin 16 .badRegister (x / 4096 % 32) fun a => fin 16 .badRegister (x / 128 % 32) fun b => .ok (.kadd d a b)
  | 3 =>
    zero .nonzeroField (x % 128) <| fin 16 .badRegister (x / 131072 % 32) fun d => fin 16 .badRegister (x / 4096 % 32) fun a => fin 16 .badRegister (x / 128 % 32) fun b => .ok (.ksub d a b)
  | 4 =>
    fin 16 .badRegister (x / 131072 % 32) fun d => fin 16 .badRegister (x / 4096 % 32) fun a => bits 12 (x % 4096) fun imm => .ok (.kaddi d a imm)
  | 5 =>
    zero .nonzeroField (x % 128) <| fin 16 .badRegister (x / 131072 % 32) fun d => fin 16 .badRegister (x / 4096 % 32) fun a => fin 16 .badRegister (x / 128 % 32) fun b => .ok (.kand d a b)
  | 6 =>
    zero .nonzeroField (x % 128) <| fin 16 .badRegister (x / 131072 % 32) fun d => fin 16 .badRegister (x / 4096 % 32) fun a => fin 16 .badRegister (x / 128 % 32) fun b => .ok (.kor d a b)
  | 7 =>
    zero .nonzeroField (x % 128) <| fin 16 .badRegister (x / 131072 % 32) fun d => fin 16 .badRegister (x / 4096 % 32) fun a => fin 16 .badRegister (x / 128 % 32) fun b => .ok (.kshl d a b)
  | 8 =>
    zero .nonzeroField (x % 128) <| fin 16 .badRegister (x / 131072 % 32) fun d => fin 16 .badRegister (x / 4096 % 32) fun a => fin 16 .badRegister (x / 128 % 32) fun b => .ok (.kshr d a b)
  | 9 =>
    zero .nonzeroField (x / 4096 % 32) <| fin 16 .badRegister (x / 131072 % 32) fun d => code .badCode (cregOf (x % 4096)) fun c => need .badCode (c.kgetOk) (.ok (.kget d c))
  | 10 =>
    zero .nonzeroField (x / 131072 % 32) <| fin 16 .badRegister (x / 4096 % 32) fun a => code .badCode (cregOf (x % 4096)) fun c => need .badCode (c.ksetOk) (.ok (.kset a c))
  | 11 =>
    zero .nonzeroField (x / 4 % 4) <| zero .nonzeroField (x / 128 % 32) <| fin 16 .badRegister (x / 131072 % 32) fun d => fin 32 .badRegister (x / 4096 % 32) fun a => fin 8 .badRegister (x / 16 % 8) fun q => code .badModifier (voteOf (x % 4)) fun m => .ok (.kvote d a q m)
  | 16 => zero .nonzeroField (x / 131072 % 32) <| zero .badTarget (x / 32768 % 4) <| bits 15 (x % 32768) fun t => .ok (.br t)
  | 17 => fin 16 .badRegister (x / 131072 % 32) fun c => zero .badTarget (x / 32768 % 4) <| bits 15 (x % 32768) fun t => .ok (.bz c t)
  | 18 => fin 16 .badRegister (x / 131072 % 32) fun c => zero .badTarget (x / 32768 % 4) <| bits 15 (x % 32768) fun t => .ok (.bnz c t)
  | 19 => fin 16 .badRegister (x / 131072 % 32) fun d => fin 16 .badRegister (x / 4096 % 32) fun a => bits 12 (x % 4096) fun off => .ok (.beq d a off)
  | 20 => fin 16 .badRegister (x / 131072 % 32) fun d => fin 16 .badRegister (x / 4096 % 32) fun a => bits 12 (x % 4096) fun off => .ok (.bne d a off)
  | 21 => fin 16 .badRegister (x / 131072 % 32) fun d => fin 16 .badRegister (x / 4096 % 32) fun a => bits 12 (x % 4096) fun off => .ok (.blt d a off)
  | 22 => fin 16 .badRegister (x / 131072 % 32) fun d => fin 16 .badRegister (x / 4096 % 32) fun a => bits 12 (x % 4096) fun off => .ok (.bge d a off)
  | 23 => zero .nonzeroField (x / 131072 % 32) <| zero .badTarget (x / 32768 % 4) <| bits 15 (x % 32768) fun t => .ok (.call t)
  | 24 => zero .nonzeroField (x % 4194304) <| .ok (.ret)
  | 25 => fin 16 .badRegister (x / 131072 % 32) fun c => fin 64 .badCount (x % 131072) fun l => .ok (.loop c l)
  | 26 => bits 16 (x / 64 % 65536) fun n => fin 64 .badCount (x % 64) fun l => need .badCount (n != 0) (.ok (.loopImmediate n l))
  | 27 =>
    if x % 131072 = 0 then fin 16 .badRegister (x / 131072 % 32) fun c => .ok (.lbreak c)
      else if x % 131072 = 1 then zero .nonzeroField (x / 131072 % 32) <| .ok (.lbreakUnconditional)
      else .error .badModifier
  | 28 => zero .nonzeroField (x % 4096) <| zero .nonzeroField (x / 131072 % 32) <| fin 16 .badRegister (x / 4096 % 32) fun a => .ok (.sfmt a)
  | 29 => zero .nonzeroField (x % 4096) <| fin 8 .badRegister (x / 131072 % 32) fun d => fin 16 .badRegister (x / 4096 % 32) fun a => .ok (.wait d a)
  | 30 =>
    zero .nonzeroField (x / 256 % 16384) <| fin 16 .badCount (x / 16 % 16) fun id => code .badScope (scopeKOf (x % 16)) fun sc => need .badScope (sc.barOk) (.ok (.bar id sc))
  | 31 => zero .nonzeroField (x / 16 % 262144) <| code .badScope (scopeKOf (x % 16)) fun sc => need .badScope (sc != .lane) (.ok (.fence sc))
  | 40 => zero .nonzeroField (x / 8 % 524288) <| fin 8 .badCount (x % 8) fun c => .ok (.leaveReq c)
  | 41 => zero .nonzeroField (x % 4194304) <| .ok (.leaveRet)
  | 42 => zero .nonzeroField (x % 4194304) <| .ok (.seg)
  | 43 => zero .nonzeroField (x / 256 % 16384) <| bits 8 (x % 256) fun id => .ok (.rdv id)
  | 44 => zero .nonzeroField (x / 65536 % 64) <| bits 16 (x % 65536) fun code => .ok (.trap code)
  | 45 => zero .nonzeroField (x % 4194304) <| .ok (.halt)
  | 48 =>
    if x % 16 = 0 then zero .nonzeroField (x / 16 % 262144) <| .ok (.tret)
      else if x % 16 = 1 then zero .nonzeroField (x / 16 % 262144) <| .ok (.tretSkip)
      else .error .badModifier
  | 49 =>
    zero .nonzeroField (x / 131072 % 32) <| fin 16 .badRegister (x / 4096 % 32) fun a => code .badCode (cregOf (x % 4096)) fun c => need .badCode (c.mtcrOk) (.ok (.mtcr a c))
  | 50 =>
    zero .nonzeroField (x / 4096 % 32) <| fin 16 .badRegister (x / 131072 % 32) fun d => code .badCode (cregOf (x % 4096)) fun c => need .badCode (c.mtcrOk) (.ok (.mfcr d c))
  | 51 =>
    zero .nonzeroField (x % 4096) <| fin 16 .badRegister (x / 131072 % 32) fun d => fin 16 .badRegister (x / 4096 % 32) fun a => .ok (.spawn d a)
  | 52 =>
    zero .nonzeroField (x % 4096) <| fin 16 .badRegister (x / 131072 % 32) fun d => fin 16 .badRegister (x / 4096 % 32) fun a => .ok (.rerun d a)
  | 53 =>
    if x % 16 = 0 then zero .nonzeroField (x / 16 % 262144) <| .ok (.bankctlYield)
      else if x % 16 = 1 then zero .nonzeroField (x / 16 % 262144) <| .ok (.bankctlHold)
      else if x % 16 = 2 then zero .nonzeroField (x / 16 % 262144) <| .ok (.bankctlRelease)
      else if x % 16 = 3 then zero .nonzeroField (x / 256 % 16384) <| fin 16 .badRegister (x / 16 % 16) fun a => .ok (.bankctlArm a)
      else if x % 16 = 4 then zero .nonzeroField (x / 16 % 262144) <| .ok (.bankctlDisarm)
      else .error .badModifier
  | 32 => code .badModifier (stepFieldsOf x) fun e => .ok (.lstep 0 e)
  | 33 => code .badModifier (stepFieldsOf x) fun e => .ok (.lstep 1 e)
  | 34 => code .badModifier (stepFieldsOf x) fun e => .ok (.lstep 2 e)
  | 35 => code .badModifier (stepFieldsOf x) fun e => .ok (.lstep 3 e)
  | 36 => code .badModifier (stepFieldsOf x) fun e => .ok (.lstep 4 e)
  | 37 => code .badModifier (stepFieldsOf x) fun e => .ok (.lstep 5 e)
  | 38 => code .badModifier (stepFieldsOf x) fun e => .ok (.lstep 6 e)
  | 39 => code .badModifier (stepFieldsOf x) fun e => .ok (.lstep 7 e)
  | _ => .error .unassigned

/-- The instruction a syllable's unit code, opcode and operand bits name (R60). -/
def decodeParts (unit op x : Nat) : Except DecErr Instr :=
  match unit with
  | 0 => decodeS .a op x
  | 1 => decodeS .b op x
  | 2 => decodeAG op x
  | 3 => decodeV .a op x
  | 4 => decodeV .b op x
  | 5 => decodeMX op x
  | 6 => decodeCX op x
  | 7 => decodeKC op x
  | _ => .error .unassigned

/-- The unit code of a syllable: bits 30:28 (R60). -/
def sylUnit (w : BitVec 32) : Nat := w.toNat / 268435456 % 8
/-- The opcode of a syllable: bits 27:22 (R60). -/
def sylOp (w : BitVec 32) : Nat := w.toNat / 4194304 % 64
/-- The operand bits of a syllable: bits 21:0 (R60). -/
def sylBits (w : BitVec 32) : Nat := w.toNat % 4194304
/-- The E bit of a syllable: the last of its bundle (R60). -/
def sylE (w : BitVec 32) : Bool := w.toNat / 2147483648 % 2 == 1

/-- The instruction a syllable holds, whatever its E bit. -/
def decodeSyl (w : BitVec 32) : Except DecErr Instr :=
  decodeParts (sylUnit w) (sylOp w) (sylBits w)

/-- Whether a syllable is of the system group, KC opcodes 48-53 (R214). -/
def isSystemGroup (w : BitVec 32) : Bool := sylUnit w == 7 && 48 ≤ sylOp w && sylOp w ≤ 53

/-- The bytes of a stored word, least significant first (R2). -/
def wordBytes (w : BitVec 32) : List Byte :=
  [w.extractLsb' 0 8, w.extractLsb' 8 8, w.extractLsb' 16 8, w.extractLsb' 24 8]

/-- The word four stored bytes hold, least significant first (R2). -/
def bytesWord (b0 b1 b2 b3 : Byte) : BitVec 32 := b3 ++ b2 ++ b1 ++ b0

/-- The decoder on stored bytes: the first syllable's instruction, its E bit, and the bytes after it; none for fewer than
four bytes. -/
def decodeBytes : List Byte → Option (Except DecErr Instr × Bool × List Byte)
  | b0 :: b1 :: b2 :: b3 :: rest =>
    let w := bytesWord b0 b1 b2 b3
    some (decodeSyl w, sylE w, rest)
  | _ => none

/-- The instruction the decoder reads from an instruction whose bits are `w` (every row of the table is one 32-bit word,
stored least significant byte first). -/
def decodeTableWord (nbits w : Nat) : Option Instr :=
  if nbits = 0 then none
  else match decodeBytes (wordBytes (BitVec.ofNat 32 (w % 2 ^ nbits))) with
    | some (.ok i, _, _) => some i
    | _ => none

/-- The unit code of SA and SB (R60). -/
def twinS : Twin → Nat
  | .a => 0
  | .b => 1
/-- The unit code of VA and VB (R60). -/
def twinV : Twin → Nat
  | .a => 3
  | .b => 4

def widthCode : Width → Nat
  | .w256 => 0
  | .w512 => 1
  | .w1024 => 2
def eTypeCode : EType → Nat
  | .i8 => 0
  | .i16 => 1
  | .i32 => 2
  | .i64 => 3
def fTypeCode : FType → Nat
  | .f32 => 0
  | .bf16 => 1
def extCode : ExtW → Nat
  | .w8 => 0
  | .w16 => 1
  | .w32 => 2
def chkCode : ChkOp → Nat
  | .eq => 0
  | .ne => 1
  | .lt => 2
def vCondCode : VCond → Nat
  | .eq => 0
  | .ne => 1
  | .lt => 2
  | .le => 3
  | .ltn => 4
  | .len => 5
def fCondCode : FCond → Nat
  | .eq => 0
  | .ne => 1
  | .lt => 2
  | .le => 3
  | .un => 4
def voteCode : VoteOp → Nat
  | .any => 0
  | .all => 1
  | .sum => 2
  | .max => 3
def rModeCode : RMode → Nat
  | .rne => 0
  | .rz => 1
  | .ru => 2
  | .rd => 3
def aTypeCode : AType → Nat
  | .i32 => 0
  | .i64 => 1
  | .f32 => 2
def tTypeCode : TType → Nat
  | .none => 0
  | .f32 => 1
  | .i32 => 2
/-- The KC scope code (R92), which also numbers the scopes from narrowest to widest (R7). -/
def scopeKCode : Scope → Nat
  | .lane => 0
  | .core => 1
  | .quad => 2
  | .row => 3
  | .die => 4
  | .region => 5
  | .panel => 6
  | .pod => 7
  | .system => 8
/-- The AG and CX scope code (R69); lane has none. -/
def scopeQCode (s : Scope) : Nat := scopeKCode s - 1
def redOpB : RedOp → Nat
  | .add _ => 0
  | .min _ => 1
  | .max _ => 2
  | .fadd _ => 4
  | .fmin _ => 5
  | .fmax _ => 6
def redOpM : RedOp → Nat
  | .add t => eTypeCode t
  | .min t => eTypeCode t
  | .max t => eTypeCode t
  | .fadd f => fTypeCode f
  | .fmin f => fTypeCode f
  | .fmax f => fTypeCode f
def stepFieldCode : StepField → Nat
  | .d => 0
  | .a => 1
  | .b => 2
  | .q => 3
  | .imm => 4
def stepFieldsCode (e : StepFields) : Nat :=
  e.active.toNat * 2097152 + e.offset.val * 32768 + e.unit.val * 4096 + stepFieldCode e.field * 512 + e.step.toNat * 32 + e.mod.val
def cregCode : CReg → Nat
  | .rankBlk => 0x000
  | .rankRegion => 0x001
  | .rankDie => 0x002
  | .rankRow => 0x003
  | .rankQuad => 0x004
  | .rankCore => 0x005
  | .index n => 0x008 + n.val
  | .fmt => 0x010
  | .mxstep => 0x011
  | .chk => 0x012
  | .loopDepth => 0x013
  | .callDepth => 0x014
  | .deckleLo => 0x018
  | .lswin => 0x019
  | .tsave => 0x01A
  | .deckleHi => 0x01B
  | .nflags => 0x020
  | .chkAlias => 0x021
  | .tl n => 0x030 + n.val
  | .sysperm => 0x040
  | .trapvec => 0x041
  | .trapWord n => 0x042 + n.val
  | .bank => 0x050
  | .istep => 0x080
  | .barsel => 0x090
  | .barmask => 0x091
  | .wgen => 0x0A0


/-- The unit code, opcode and operand bits of a well-formed syllable, from the encoding tables. -/
def encodeParts : Instr → Option (Nat × Nat × Nat)
  | .add u d a b q => some (twinS u, 0, d.val * 131072 + a.val * 4096 + b.val * 128 + q.val * 16)
  | .sub u d a b q => some (twinS u, 1, d.val * 131072 + a.val * 4096 + b.val * 128 + q.val * 16)
  | .mul u d a b q => some (twinS u, 2, d.val * 131072 + a.val * 4096 + b.val * 128 + q.val * 16)
  | .mulh u d a b q => some (twinS u, 3, d.val * 131072 + a.val * 4096 + b.val * 128 + q.val * 16)
  | .mulhn u d a b q => some (twinS u, 4, d.val * 131072 + a.val * 4096 + b.val * 128 + q.val * 16)
  | .div u d a b q => some (twinS u, 5, d.val * 131072 + a.val * 4096 + b.val * 128 + q.val * 16)
  | .divn u d a b q => some (twinS u, 6, d.val * 131072 + a.val * 4096 + b.val * 128 + q.val * 16)
  | .rem u d a b q => some (twinS u, 7, d.val * 131072 + a.val * 4096 + b.val * 128 + q.val * 16)
  | .remn u d a b q => some (twinS u, 8, d.val * 131072 + a.val * 4096 + b.val * 128 + q.val * 16)
  | .and u d a b q => some (twinS u, 9, d.val * 131072 + a.val * 4096 + b.val * 128 + q.val * 16)
  | .or u d a b q => some (twinS u, 10, d.val * 131072 + a.val * 4096 + b.val * 128 + q.val * 16)
  | .xor u d a b q => some (twinS u, 11, d.val * 131072 + a.val * 4096 + b.val * 128 + q.val * 16)
  | .andn u d a b q => some (twinS u, 12, d.val * 131072 + a.val * 4096 + b.val * 128 + q.val * 16)
  | .shl u d a b q => some (twinS u, 13, d.val * 131072 + a.val * 4096 + b.val * 128 + q.val * 16)
  | .shr u d a b q => some (twinS u, 14, d.val * 131072 + a.val * 4096 + b.val * 128 + q.val * 16)
  | .sar u d a b q => some (twinS u, 15, d.val * 131072 + a.val * 4096 + b.val * 128 + q.val * 16)
  | .rol u d a b q => some (twinS u, 16, d.val * 131072 + a.val * 4096 + b.val * 128 + q.val * 16)
  | .min u d a b q => some (twinS u, 17, d.val * 131072 + a.val * 4096 + b.val * 128 + q.val * 16)
  | .max u d a b q => some (twinS u, 18, d.val * 131072 + a.val * 4096 + b.val * 128 + q.val * 16)
  | .minn u d a b q => some (twinS u, 19, d.val * 131072 + a.val * 4096 + b.val * 128 + q.val * 16)
  | .maxn u d a b q => some (twinS u, 20, d.val * 131072 + a.val * 4096 + b.val * 128 + q.val * 16)
  | .slt u d a b q => some (twinS u, 21, d.val * 131072 + a.val * 4096 + b.val * 128 + q.val * 16)
  | .sltn u d a b q => some (twinS u, 22, d.val * 131072 + a.val * 4096 + b.val * 128 + q.val * 16)
  | .seq u d a b q => some (twinS u, 23, d.val * 131072 + a.val * 4096 + b.val * 128 + q.val * 16)
  | .sne u d a b q => some (twinS u, 24, d.val * 131072 + a.val * 4096 + b.val * 128 + q.val * 16)
  | .sel u d a b q => some (twinS u, 25, d.val * 131072 + a.val * 4096 + b.val * 128 + q.val * 16)
  | .clz u d a q => some (twinS u, 26, d.val * 131072 + a.val * 4096 + q.val * 16)
  | .ctz u d a q => some (twinS u, 27, d.val * 131072 + a.val * 4096 + q.val * 16)
  | .popc u d a q => some (twinS u, 28, d.val * 131072 + a.val * 4096 + q.val * 16)
  | .sext u d a q m => some (twinS u, 29, d.val * 131072 + a.val * 4096 + q.val * 16 + extCode m)
  | .zext u d a q m => some (twinS u, 30, d.val * 131072 + a.val * 4096 + q.val * 16 + extCode m)
  | .mfs u d c => some (twinS u, 31, d.val * 131072 + cregCode c)
  | .chk u a b q m => some (twinS u, 32, a.val * 4096 + b.val * 128 + q.val * 16 + chkCode m)
  | .addi u d a imm => some (twinS u, 40, d.val * 131072 + a.val * 4096 + imm.toNat)
  | .andi u d a imm => some (twinS u, 41, d.val * 131072 + a.val * 4096 + imm.toNat)
  | .ori u d a imm => some (twinS u, 42, d.val * 131072 + a.val * 4096 + imm.toNat)
  | .xori u d a imm => some (twinS u, 43, d.val * 131072 + a.val * 4096 + imm.toNat)
  | .shli u d a n => some (twinS u, 44, d.val * 131072 + a.val * 4096 + n.val)
  | .shri u d a n => some (twinS u, 45, d.val * 131072 + a.val * 4096 + n.val)
  | .sari u d a n => some (twinS u, 46, d.val * 131072 + a.val * 4096 + n.val)
  | .li u d imm => some (twinS u, 47, d.val * 131072 + imm.toNat)
  | .lui u d imm => some (twinS u, 48, d.val * 131072 + imm.toNat)
  | .vadd u d a b q w t => some (twinV u, 0, d.val * 131072 + a.val * 4096 + b.val * 128 + q.val * 16 + widthCode w * 4 + eTypeCode t)
  | .vsub u d a b q w t => some (twinV u, 1, d.val * 131072 + a.val * 4096 + b.val * 128 + q.val * 16 + widthCode w * 4 + eTypeCode t)
  | .vmul u d a b q w t => some (twinV u, 2, d.val * 131072 + a.val * 4096 + b.val * 128 + q.val * 16 + widthCode w * 4 + eTypeCode t)
  | .vmulh u d a b q w t => some (twinV u, 3, d.val * 131072 + a.val * 4096 + b.val * 128 + q.val * 16 + widthCode w * 4 + eTypeCode t)
  | .vmin u d a b q w t => some (twinV u, 4, d.val * 131072 + a.val * 4096 + b.val * 128 + q.val * 16 + widthCode w * 4 + eTypeCode t)
  | .vmax u d a b q w t => some (twinV u, 5, d.val * 131072 + a.val * 4096 + b.val * 128 + q.val * 16 + widthCode w * 4 + eTypeCode t)
  | .vabs u d a q w t => some (twinV u, 6, d.val * 131072 + a.val * 4096 + q.val * 16 + widthCode w * 4 + eTypeCode t)
  | .vneg u d a q w t => some (twinV u, 7, d.val * 131072 + a.val * 4096 + q.val * 16 + widthCode w * 4 + eTypeCode t)
  | .vand u d a b q w => some (twinV u, 8, d.val * 131072 + a.val * 4096 + b.val * 128 + q.val * 16 + widthCode w * 4)
  | .vor u d a b q w => some (twinV u, 9, d.val * 131072 + a.val * 4096 + b.val * 128 + q.val * 16 + widthCode w * 4)
  | .vxor u d a b q w => some (twinV u, 10, d.val * 131072 + a.val * 4096 + b.val * 128 + q.val * 16 + widthCode w * 4)
  | .vandn u d a b q w => some (twinV u, 11, d.val * 131072 + a.val * 4096 + b.val * 128 + q.val * 16 + widthCode w * 4)
  | .vshl u d a b q w t => some (twinV u, 12, d.val * 131072 + a.val * 4096 + b.val * 128 + q.val * 16 + widthCode w * 4 + eTypeCode t)
  | .vshr u d a b q w t => some (twinV u, 13, d.val * 131072 + a.val * 4096 + b.val * 128 + q.val * 16 + widthCode w * 4 + eTypeCode t)
  | .vsar u d a b q w t => some (twinV u, 14, d.val * 131072 + a.val * 4096 + b.val * 128 + q.val * 16 + widthCode w * 4 + eTypeCode t)
  | .vadds u d a b q w t => some (twinV u, 15, d.val * 131072 + a.val * 4096 + b.val * 128 + q.val * 16 + widthCode w * 4 + eTypeCode t)
  | .vsubs u d a b q w t => some (twinV u, 16, d.val * 131072 + a.val * 4096 + b.val * 128 + q.val * 16 + widthCode w * 4 + eTypeCode t)
  | .vfadd u d a b q w f => some (twinV u, 20, d.val * 131072 + a.val * 4096 + b.val * 128 + q.val * 16 + widthCode w * 4 + fTypeCode f)
  | .vfsub u d a b q w f => some (twinV u, 21, d.val * 131072 + a.val * 4096 + b.val * 128 + q.val * 16 + widthCode w * 4 + fTypeCode f)
  | .vfmul u d a b q w f => some (twinV u, 22, d.val * 131072 + a.val * 4096 + b.val * 128 + q.val * 16 + widthCode w * 4 + fTypeCode f)
  | .vfma u d a b q w f => some (twinV u, 23, d.val * 131072 + a.val * 4096 + b.val * 128 + q.val * 16 + widthCode w * 4 + fTypeCode f)
  | .vfms u d a b q w f => some (twinV u, 24, d.val * 131072 + a.val * 4096 + b.val * 128 + q.val * 16 + widthCode w * 4 + fTypeCode f)
  | .vfmin u d a b q w f => some (twinV u, 25, d.val * 131072 + a.val * 4096 + b.val * 128 + q.val * 16 + widthCode w * 4 + fTypeCode f)
  | .vfmax u d a b q w f => some (twinV u, 26, d.val * 131072 + a.val * 4096 + b.val * 128 + q.val * 16 + widthCode w * 4 + fTypeCode f)
  | .vfabs u d a q w f => some (twinV u, 27, d.val * 131072 + a.val * 4096 + q.val * 16 + widthCode w * 4 + fTypeCode f)
  | .vfneg u d a q w f => some (twinV u, 28, d.val * 131072 + a.val * 4096 + q.val * 16 + widthCode w * 4 + fTypeCode f)
  | .vexp2 u d a q w f => some (twinV u, 32, d.val * 131072 + a.val * 4096 + q.val * 16 + widthCode w * 4 + fTypeCode f)
  | .vlog2 u d a q w f => some (twinV u, 33, d.val * 131072 + a.val * 4096 + q.val * 16 + widthCode w * 4 + fTypeCode f)
  | .vrcp u d a q w f => some (twinV u, 34, d.val * 131072 + a.val * 4096 + q.val * 16 + widthCode w * 4 + fTypeCode f)
  | .vrsqrt u d a q w f => some (twinV u, 35, d.val * 131072 + a.val * 4096 + q.val * 16 + widthCode w * 4 + fTypeCode f)
  | .vcmp u d a b c w t => some (twinV u, 36, d.val * 131072 + a.val * 4096 + b.val * 128 + vCondCode c * 16 + widthCode w * 4 + eTypeCode t)
  | .vfcmp u d a b c w f => some (twinV u, 37, d.val * 131072 + a.val * 4096 + b.val * 128 + fCondCode c * 16 + widthCode w * 4 + fTypeCode f)
  | .qand u d a b w => some (twinV u, 38, d.val * 131072 + a.val * 4096 + b.val * 128 + widthCode w * 4)
  | .qor u d a b w => some (twinV u, 39, d.val * 131072 + a.val * 4096 + b.val * 128 + widthCode w * 4)
  | .qxor u d a b w => some (twinV u, 40, d.val * 131072 + a.val * 4096 + b.val * 128 + widthCode w * 4)
  | .qnot u d a w => some (twinV u, 41, d.val * 131072 + a.val * 4096 + widthCode w * 4)
  | .qcnt u d a w => some (twinV u, 42, d.val * 131072 + a.val * 4096 + widthCode w * 4)
  | .vsel u d a b q w => some (twinV u, 43, d.val * 131072 + a.val * 4096 + b.val * 128 + q.val * 16 + widthCode w * 4)
  | .vcvt u d a c q w m => some (twinV u, 44, d.val * 131072 + a.val * 4096 + c.val * 128 + q.val * 16 + widthCode w * 4 + rModeCode m)
  | .vbcast u d a q w t => some (twinV u, 45, d.val * 131072 + a.val * 4096 + q.val * 16 + widthCode w * 4 + eTypeCode t)
  | .vext u d a b w t => some (twinV u, 46, d.val * 131072 + a.val * 4096 + b.val * 128 + widthCode w * 4 + eTypeCode t)
  | .vperm u d a b q w t => some (twinV u, 47, d.val * 131072 + a.val * 4096 + b.val * 128 + q.val * 16 + widthCode w * 4 + eTypeCode t)
  | .vred u d a o q w => some (twinV u, 48, d.val * 131072 + a.val * 4096 + redOpB o * 128 + redOpM o + q.val * 16 + widthCode w * 4)
  | .vscan u d a o q w => some (twinV u, 49, d.val * 131072 + a.val * 4096 + redOpB o * 128 + redOpM o + q.val * 16 + widthCode w * 4)
  | .vpack u d a q w => some (twinV u, 50, d.val * 131072 + a.val * 4096 + q.val * 16 + widthCode w * 4)
  | .vunpack u d a b q w f => some (twinV u, 51, d.val * 131072 + a.val * 4096 + b.val * 128 + q.val * 16 + widthCode w * 4 + fTypeCode f)
  | .vchk u a b q w c => some (twinV u, 52, a.val * 4096 + b.val * 128 + q.val * 16 + widthCode w * 4 + chkCode c)
  | .ldLS d a off => some (2, 0, d.val * 131072 + a.val * 4096 + off.toNat)
  | .ldLV d a off => some (2, 1, d.val * 131072 + a.val * 4096 + off.toNat)
  | .stLS d a off => some (2, 2, d.val * 131072 + a.val * 4096 + off.toNat)
  | .stLV d a off => some (2, 3, d.val * 131072 + a.val * 4096 + off.toNat)
  | .ldQS d a off => some (2, 4, d.val * 131072 + a.val * 4096 + off.toNat)
  | .ldQV d a off => some (2, 5, d.val * 131072 + a.val * 4096 + off.toNat)
  | .stQS d a off => some (2, 6, d.val * 131072 + a.val * 4096 + off.toNat)
  | .stQV d a off => some (2, 7, d.val * 131072 + a.val * 4096 + off.toNat)
  | .ldt a b v => some (2, 8, a.val * 4096 + b.val * 128 + v.toNat)
  | .stt d a b v => some (2, 9, d.val * 131072 + a.val * 4096 + b.val * 128 + v.toNat)
  | .ldg a v off => some (2, 10, a.val * 4096 + v.toNat * 2048 + off.toNat)
  | .stg d a v off => some (2, 11, d.val * 131072 + a.val * 4096 + v.toNat * 2048 + off.toNat)
  | .tagq d a q => some (2, 12, d.val * 131072 + a.val * 4096 + q.val * 16)
  | .tagset a b q => some (2, 13, a.val * 4096 + b.val * 128 + q.val * 16)
  | .tagclr a q => some (2, 14, a.val * 4096 + q.val * 16)
  | .tagclrAll q => some (2, 14, q.val * 16 + 1)
  | .atomAdd a b sc ret t => some (2, 16, a.val * 4096 + b.val * 128 + scopeQCode sc * 16 + ret.toNat * 4 + aTypeCode t)
  | .atomMin a b sc ret t => some (2, 17, a.val * 4096 + b.val * 128 + scopeQCode sc * 16 + ret.toNat * 4 + aTypeCode t)
  | .atomMax a b sc ret t => some (2, 18, a.val * 4096 + b.val * 128 + scopeQCode sc * 16 + ret.toNat * 4 + aTypeCode t)
  | .atomAnd a b sc ret t => some (2, 19, a.val * 4096 + b.val * 128 + scopeQCode sc * 16 + ret.toNat * 4 + aTypeCode t)
  | .atomOr a b sc ret t => some (2, 20, a.val * 4096 + b.val * 128 + scopeQCode sc * 16 + ret.toNat * 4 + aTypeCode t)
  | .atomXor a b sc ret t => some (2, 21, a.val * 4096 + b.val * 128 + scopeQCode sc * 16 + ret.toNat * 4 + aTypeCode t)
  | .atomSwap a b sc ret t => some (2, 22, a.val * 4096 + b.val * 128 + scopeQCode sc * 16 + ret.toNat * 4 + aTypeCode t)
  | .atomCas d a b sc ret t => some (2, 23, d.val * 131072 + a.val * 4096 + b.val * 128 + scopeQCode sc * 16 + ret.toNat * 4 + aTypeCode t)
  | .arrive a b sc row => some (2, 24, a.val * 4096 + b.val * 128 + scopeQCode sc * 16 + row.toNat)
  | .waitp d a b sc => some (2, 25, d.val * 131072 + a.val * 4096 + b.val * 128 + scopeQCode sc * 16)
  | .acq a sc row => some (2, 26, a.val * 4096 + scopeQCode sc * 16 + row.toNat)
  | .rel a sc row => some (2, 27, a.val * 4096 + scopeQCode sc * 16 + row.toNat)
  | .discard a b n => some (2, 28, a.val * 4096 + b.val * 128 + n.val)
  | .pref a b w n => some (2, 29, a.val * 4096 + b.val * 128 + w.toNat * 16 + n.val)
  | .vpush d a p => some (2, 30, d.val * 131072 + a.val * 4096 + p.val * 128)
  | .mma d a b kb ka => some (5, 0, d.val * 131072 + a.val * 4096 + b.val * 128 + kb.toNat * 2 + ka.toNat)
  | .mmaZ d a b kb ka => some (5, 1, d.val * 131072 + a.val * 4096 + b.val * 128 + kb.toNat * 2 + ka.toNat)
  | .mmaSat d a b kb ka => some (5, 2, d.val * 131072 + a.val * 4096 + b.val * 128 + kb.toNat * 2 + ka.toNat)
  | .mmaN d kb ka a z b n => some (5, 3, d.val * 131072 + kb.toNat * 65536 + ka.toNat * 32768 + a.val * 4096 + z.toNat * 2048 + b.val * 256 + n.val)
  | .tcfg d t c r => some (5, 4, d.val * 131072 + tTypeCode t * 256 + c.val * 16 + r.val)
  | .tzero d => some (5, 5, d.val * 131072)
  | .trowW d a i q hi => some (5, 6, d.val * 131072 + a.val * 4096 + i.val * 128 + q.val * 16 + hi.toNat)
  | .trowR d a i q hi => some (5, 7, d.val * 131072 + a.val * 4096 + i.val * 128 + q.val * 16 + hi.toNat)
  | .tcolW d a i q hi => some (5, 8, d.val * 131072 + a.val * 4096 + i.val * 128 + q.val * 16 + hi.toNat)
  | .tcolR d a i q hi => some (5, 9, d.val * 131072 + a.val * 4096 + i.val * 128 + q.val * 16 + hi.toNat)
  | .tld d a b => some (5, 10, d.val * 131072 + a.val * 4096 + b.val * 128)
  | .tst d a b => some (5, 11, d.val * 131072 + a.val * 4096 + b.val * 128)
  | .cpyIn d a b h n => some (6, 0, d.val * 131072 + a.val * 4096 + b.val * 128 + h.val * 16 + n.val)
  | .cpyInR d a b h => some (6, 0, d.val * 131072 + a.val * 4096 + b.val * 128 + h.val * 16 + 8)
  | .cpyOut d a b h n => some (6, 1, d.val * 131072 + a.val * 4096 + b.val * 128 + h.val * 16 + n.val)
  | .cpyGat d a b h n => some (6, 2, d.val * 131072 + a.val * 4096 + b.val * 128 + h.val * 16 + n.val)
  | .cpySct d a b h n => some (6, 3, d.val * 131072 + a.val * 4096 + b.val * 128 + h.val * 16 + n.val)
  | .cpyLl d a b h qw => some (6, 4, d.val * 131072 + a.val * 4096 + b.val * 128 + h.val * 4 + qw.toNat)
  | .send d a b q => some (6, 5, d.val * 131072 + a.val * 4096 + b.val * 128 + q.val * 16)
  | .red d a b t sc => some (6, 6, d.val * 131072 + a.val * 4096 + b.val * 128 + aTypeCode t * 16 + scopeQCode sc)
  | .seal d a b => some (6, 7, d.val * 131072 + a.val * 4096 + b.val * 128)
  | .opn d a b => some (6, 8, d.val * 131072 + a.val * 4096 + b.val * 128)
  | .nop n => some (7, 0, n.val)
  | .kli d imm => some (7, 1, d.val * 131072 + imm.toNat)
  | .kadd d a b => some (7, 2, d.val * 131072 + a.val * 4096 + b.val * 128)
  | .ksub d a b => some (7, 3, d.val * 131072 + a.val * 4096 + b.val * 128)
  | .kaddi d a imm => some (7, 4, d.val * 131072 + a.val * 4096 + imm.toNat)
  | .kand d a b => some (7, 5, d.val * 131072 + a.val * 4096 + b.val * 128)
  | .kor d a b => some (7, 6, d.val * 131072 + a.val * 4096 + b.val * 128)
  | .kshl d a b => some (7, 7, d.val * 131072 + a.val * 4096 + b.val * 128)
  | .kshr d a b => some (7, 8, d.val * 131072 + a.val * 4096 + b.val * 128)
  | .kget d c => some (7, 9, d.val * 131072 + cregCode c)
  | .kset a c => some (7, 10, a.val * 4096 + cregCode c)
  | .kvote d a q m => some (7, 11, d.val * 131072 + a.val * 4096 + q.val * 16 + voteCode m)
  | .br t => some (7, 16, t.toNat)
  | .bz c t => some (7, 17, c.val * 131072 + t.toNat)
  | .bnz c t => some (7, 18, c.val * 131072 + t.toNat)
  | .beq d a off => some (7, 19, d.val * 131072 + a.val * 4096 + off.toNat)
  | .bne d a off => some (7, 20, d.val * 131072 + a.val * 4096 + off.toNat)
  | .blt d a off => some (7, 21, d.val * 131072 + a.val * 4096 + off.toNat)
  | .bge d a off => some (7, 22, d.val * 131072 + a.val * 4096 + off.toNat)
  | .call t => some (7, 23, t.toNat)
  | .ret => some (7, 24, 0)
  | .loop c l => some (7, 25, c.val * 131072 + l.val)
  | .loopImmediate n l => some (7, 26, n.toNat * 64 + l.val)
  | .lbreak c => some (7, 27, c.val * 131072)
  | .lbreakUnconditional => some (7, 27, 1)
  | .sfmt a => some (7, 28, a.val * 4096)
  | .wait d a => some (7, 29, d.val * 131072 + a.val * 4096)
  | .bar id sc => some (7, 30, id.val * 16 + scopeKCode sc)
  | .fence sc => some (7, 31, scopeKCode sc)
  | .lstep n e => some (7, 32 + n.val, stepFieldsCode e)
  | .leaveReq c => some (7, 40, c.val)
  | .leaveRet => some (7, 41, 0)
  | .seg => some (7, 42, 0)
  | .rdv id => some (7, 43, id.toNat)
  | .trap code => some (7, 44, code.toNat)
  | .halt => some (7, 45, 0)
  | .tret => some (7, 48, 0)
  | .tretSkip => some (7, 48, 1)
  | .mtcr a c => some (7, 49, a.val * 4096 + cregCode c)
  | .mfcr d c => some (7, 50, d.val * 131072 + cregCode c)
  | .spawn d a => some (7, 51, d.val * 131072 + a.val * 4096)
  | .rerun d a => some (7, 52, d.val * 131072 + a.val * 4096)
  | .bankctlYield => some (7, 53, 0)
  | .bankctlHold => some (7, 53, 1)
  | .bankctlRelease => some (7, 53, 2)
  | .bankctlArm a => some (7, 53, a.val * 16 + 3)
  | .bankctlDisarm => some (7, 53, 4)
  | .panelReset _ _ _ _ _ => none
  | .bundleIssue _ => none
  | .rowUnfreeze _ => none
  | .resultLand _ _ => none
  | .kvoteResult _ _ => none
  | .chkVerdict _ _ => none
  | .translationWalk _ => none
  | .loadDataReturn _ => none
  | .storePerform _ => none
  | .writeAcknowledge _ _ => none
  | .atomicPerform _ => none
  | .arrivePerform _ => none
  | .lockAcquire _ => none
  | .lockRelease _ => none
  | .discardPerform _ => none
  | .copyComplete _ => none
  | .redPerform _ => none
  | .cipherComplete _ => none
  | .mmaStepBegin _ _ => none
  | .mmaStepLand _ _ => none
  | .messageArrival _ => none
  | .spawnAnswer _ _ => none
  | .bankSwitch _ => none
  | .preemption _ _ => none
  | .bankStop _ _ => none
  | .bankResume _ _ => none
  | .trapEntry _ _ => none
  | .failedBankEmpty _ _ => none
  | .segmentCommit _ _ => none
  | .blockComplete _ _ => none
  | .blockPlace _ => none
  | .launchComplete _ => none
  | .barrierRelease _ _ => none
  | .rendezvousRelease _ => none
  | .barmaskWrite _ _ _ _ => none
  | .packetTake _ => none
  | .packetStart _ => none
  | .launchPacket _ _ _ => none
  | .taskPacket _ _ _ => none
  | .rerunPacket _ _ _ => none
  | .waitPacket _ _ _ _ _ => none
  | .signalPacket _ _ _ _ _ => none
  | .indirectPacket _ _ _ _ => none
  | .fencePacket _ _ _ => none
  | .budgetPacket _ _ _ _ => none
  | .ringDoorbell _ _ _ => none
  | .ringBaseWrite _ _ _ => none
  | .queueRestart _ => none
  | .xinvGo _ => none
  | .invalidationComplete => none
  | .demotion _ => none
  | .requestDone _ _ _ => none
  | .moveComplete _ => none
  | .ageTick => none
  | .timetableMessage _ => none
  | .ttSubmit _ => none
  | .timetableInForce => none
  | .timetablePoint => none
  | .killComplete _ => none
  | .taskResume _ => none
  | .evBaseWrite _ => none
  | .contactSample _ _ => none
  | .telemetrySample _ => none
  | .permitWindow _ => none
  | .droopAlarm _ => none
  | .droopStretchEnd _ => none
  | .dieGate _ => none
  | .dieUngate _ => none
  | .rerunRound _ => none
  | .coherenceRequest _ _ _ => none
  | .hostAccess _ _ _ => none
  | .switchRecall _ _ => none
  | .switchLoss _ => none
  | .recoveryComplete _ _ => none
  | .panelAnswerTimeout _ => none
  | .linkWakeComplete _ _ => none
  | .linkWakeFail _ _ => none
  | .dieDead _ => none
  | .errorDetected _ => none
  | .cpReloadComplete _ => none
  | .rasBaseWrite _ => none
  | .scrubStep _ _ => none
  | .injectionArm _ _ => none
  | .heartbeat => none
  | .stationTakeover _ => none
  | .alarm _ => none
  | .alarmPolicyWrite _ => none
  | .worldCreate _ _ _ => none
  | .worldDestroy _ => none
  | .measure _ _ => none
  | .attest _ _ => none
  | .releaseKey _ _ => none
  | .acknowledge _ _ => none
  | .lifeCycle _ _ => none
  | .keyRevoke _ => none
  | .revocationComplete => none
  | .fwStage _ => none
  | .fwActivate => none
  | .stagingLapse => none
  | .registerWrite _ _ => none
  | .retirementRequest _ => none

/-- One syllable's word from its parts and E bit (R60). -/
def packSyl (e : Bool) (unit op x : Nat) : BitVec 32 :=
  BitVec.ofNat 32 (e.toNat * 2147483648 + unit * 268435456 + op * 4194304 + x)

/-- The word of a syllable with the given E bit; none for an operation or event, which has no encoding. -/
def encodeSyl (e : Bool) (i : Instr) : Option (BitVec 32) :=
  (encodeParts i).map fun (u, op, x) => packSyl e u op x

/-- The words of a well-formed instruction, as a bundle of its own (E = 1); an operation or event has none. -/
def encode (i : Instr) : List (BitVec 32) :=
  match encodeSyl true i with
  | some w => [w]
  | none => []

end Sys2Proof
end

