-- ==== Sys2Proof/Machine/State.lean ====
section
/-! DEFINITION. The state of the panel as plain data: every piece of state the spec names, the outcomes' reasons, and the state
after panel reset. INVENTORY.md lists each field with the rule that names it and its reset value. -/

namespace Sys2Proof.Machine

/-- Why a run stops with a fault. -/
inductive Fault where
  /-- HOST_ACCESS names an address outside the HDM range, which maps only the HBM4 range of R34 (R312): there is no such byte.
  Safe: the run stops and claims nothing of the access. -/
  | noSuchAddress (address : Nat)
deriving DecidableEq, Repr

/-- Why an instruction has no meaning. -/
inductive Refusal where
  /-- An arm of exec that has no meaning yet; no arm answers it now. Safe: the run stops. -/
  | notModelled (mnemonic : String)
deriving DecidableEq, Repr

/-- The traps, in the order of their numbers (R232). -/
inductive Trap where
  | bundleLong | bundleOrder | illegalOp | privOp | vwidthOver | bundleConflict
  | hazardII | hazardShadow | hazardWaw
  | callOver | callUnder | loopCount | loopDepth | loopNest | loopBranch | loopNone | stepBusy | waitAhead | barFree
  | permitHeld | permitNone
  | tileUnconf | tileNosave | tileRange | reelUnconf | reelMalformed | reelBusy | fmtIllegal
  | lsRange | lsAlign | memAlign | tensorId | tensorRange | tileMalformed | privRo | privWr | permFault | ldqEmpty | tagSlot
  | lockSelf | lockNotHeld | syncMalformed | rdvMismatch
  | sendTarget | copyOverlap | copySize | cipherParam
  | formFault | sendRefused | openAuth | keySlot | keyRevoked | cipherPoison | handlerFault
  | bankState | crValue
  | chkFail | segLive | ueConsumed
  | swTrap
  | doubleTrap
deriving DecidableEq, Repr

/-- The freeze causes, in the order of their codes 1-15 (R223). -/
inductive Cause where
  | loadLate | queueFull | reelEmpty | reelFull | tileBusy | channelFull | tileSave | walk | timeline | phase | lock | barrier
  | drain | permit | bankControl
deriving DecidableEq, Repr

/-- What a trap reports: the fields of its record that the trapping condition supplies (R231). -/
structure TrapInfo where
  trap      : Trap
  unit      : Fin 8
  mask      : BitVec 64
  address   : Word
  coord     : Word
  code      : BitVec 16
  encoding  : BitVec 32
  posted    : Bool
  imprecise : Bool
deriving DecidableEq, Repr

/-- One tag table entry (R25, R185). -/
structure TagEntry where
  valid : Bool
  key   : BitVec 48
  slot  : Byte
deriving DecidableEq, Repr

/-- Where a result lands in a core (R77, R78): vectors by byte, predicates by bit, tiles by element. -/
inductive Dest where
  | none
  | s (r : Fin 32) (x : Word)
  | v (r : Fin 32) (x : Vec) (mask : Pred)
  | q (r : Fin 8) (x mask : Pred)
  | tile (t : Fin 8) (x : Tile) (mask : BitVec 256)
deriving DecidableEq, Repr

/-- A result in flight in a core: it is readable from issue cycle `at` of its bank on, and its flags are raised as it lands
(R58, R77). `unit` orders latch entries of one boundary (R228). -/
structure Flight where
  land  : Nat
  unit  : Fin 8
  dest  : Dest
  flags : Flags
deriving DecidableEq, Repr

/-- A snapshot latch entry: a result, its offset d from the stop, and its place in the order of issue, by which the later-issued is kept
at a collision (R78, R228, R229). -/
structure Latch where
  offset : Nat
  order  : Nat
  result : Flight
deriving DecidableEq, Repr

/-- A load-address queue entry: a request until the pop of its data, with the form bit and poison of the data (R180, R181). -/
structure Request where
  id     : Nat
  vector : Bool
  data   : Option Vec
  cipher : Bool
  poison : Bool
  addr   : Word
  line   : Nat
deriving DecidableEq, Repr

/-- Where bytes lie: in the local store of a core (its byte number), or at a physical address of a panel (R34), with the address of
the tile table entry the access went through, its address space, tensor and tile index, and the tensor's key slot (255 for none). -/
inductive Place where
  | ls (row : Nat) (core : Fin 64) (byte : Nat)
  | phys (panel addr entry space tensor tile slot : Nat)
deriving DecidableEq, Repr

/-- A store held in the segment store buffer, with the poison of its entry (R241, R365). -/
structure BufferedStore where
  place  : Place
  data   : List Byte
  poison : Bool
deriving DecidableEq, Repr

/-- The operands a begun mma step copied into the engine (R164). -/
structure MmaOperands where
  op   : Nat
  step : Nat
  a    : BitVec 4096
  b    : BitVec 4096
deriving DecidableEq, Repr

/-- A reel entry a cpy.in.r reserved and that is not yet committed: reel, channel, operation number, whether its copy is done (R203). -/
structure Reservation where
  reel    : Reel
  channel : Fin 4
  number  : Nat
  done    : Bool
deriving DecidableEq, Repr

/-- What one core holds for one bank (R25). -/
structure CoreBank where
  s        : Vector Word 32
  v        : Vector Vec 32
  q        : Vector Pred 8
  reel     : Vector Word 8
  tl       : Vector Word 8
  tags     : Vector TagEntry 64
  nflags   : Flags
  loads    : List Request
  flights  : List Flight
  latches  : List Latch
  segBuf   : List BufferedStore
  saved    : BitVec 8
  reserved : List Reservation
  doneOps  : List (Fin 8 × Nat)
  macc     : List (Nat × Tile)
  mops     : List MmaOperands
  badS     : BitVec 32
  badV     : BitVec 32
  badQ     : BitVec 8
  residue  : Bool
  ckS      : Vector Word 32
  ckQ      : Vector Pred 8
  ckF      : List Flight
deriving DecidableEq, Repr

/-- One core: what both banks share, and each bank's own part (R26, R151, R207). The local store lists its nonzero bytes; form and
poison have one bit a 64-byte line. -/
structure Core where
  ls     : Sparse Byte
  cipher : BitVec 768
  poison : BitVec 768
  tiles  : Vector Tile 8
  owner  : Vector (Option Side) 8
  dirty  : BitVec 8
  busy   : BitVec 8
  badT   : BitVec 8
  a      : CoreBank
  b      : CoreBank
deriving DecidableEq, Repr

/-- A running loop: its count, its pass number (which is its index register), its body length, the position of the next body
bundle, the syllable index of the body's first bundle, and the bundles its buffer holds (R99, R101, R106). -/
structure Frame where
  count  : Nat
  pass   : Nat
  len    : Nat
  pos    : Nat
  start  : BitVec 15
  buffer : Sparse (List (BitVec 32))
deriving DecidableEq, Repr

/-- A step table entry, with the number of running loops outside the one it is bound to (R103, R104). -/
structure StepEntry where
  fields : StepFields
  bound  : Option Nat
deriving DecidableEq, Repr

/-- The loop state, call stack and step table that a trap saves and tret restores, with the pcs of the trapped bundle and of the
bundle after it (R106, R233, R234). -/
structure SavedControl where
  frames : List Frame
  calls  : List (BitVec 15)
  steps  : Vector StepEntry 8
  pc     : BitVec 15
  next   : BitVec 15
deriving DecidableEq, Repr

/-- Where a sequencer-side result lands (R90, R94, R159, R216). -/
inductive SeqDest where
  | k (r : KReg) (x : Word)
  | nflags (x : Flags)
  | chk (x : Bool)
  | deckle (t : TReg) (x : BitVec 10)
  | trapvec (x : BitVec 16)
  | istep (x : BitVec 16)
  | barsel (x : BitVec 8)
  | barmask (x : Word)
deriving DecidableEq, Repr

/-- A sequencer-side result in flight. -/
structure SeqFlight where
  land : Nat
  dest : SeqDest
deriving DecidableEq, Repr

/-- A kvote under way: it delivers k[reg] to bundles from issue cycle `ready` on (R96). -/
structure Vote where
  ready : Nat
  reg   : KReg
  value : Word
deriving DecidableEq, Repr

/-- A matrix engine operation not yet complete (R164, R165, R171): `at0` is the matrix time of its issue, `next` the next step to
begin, `landed` how many steps have landed. -/
structure MatrixOp where
  number : Nat
  tile   : TReg
  shape  : BitVec 10
  fmt    : BitVec 32
  reelA  : Reel
  reelB  : Reel
  keepA  : Bool
  keepB  : Bool
  zero   : Bool
  sat    : Bool
  steps  : Nat
  at0    : Nat
  next   : Nat
  landed : Nat
  ended  : Bool
deriving DecidableEq, Repr

/-- An error posted to a bank (R178, R208): for an engine error the engine and operation number, else none. -/
structure Posted where
  trap    : Trap
  engine  : Option (Fin 8 × Nat)
  address : Word
  mask    : BitVec 64
deriving DecidableEq, Repr

/-- The permit of a bank (R111, R327). -/
inductive Permit where
  | none
  | waiting (cls : Fin 8) (since : Nat)
  | held (cls : Fin 8)
deriving DecidableEq, Repr

/-- Why a bank is stopped (R230). -/
inductive StopKind where
  | preempt
  | tileFault
  | hold
  | park
  | stabled
deriving DecidableEq, Repr

/-- What a bank is doing. `run` is ready or frozen; `dormant` is armed with no handler running (R218, R224, R237-R239). -/
inductive Phase where
  | empty
  | run
  | dormant
  | halted
  | stopped (k : StopKind)
  | failed
  | killed
deriving DecidableEq, Repr

/-- What dispatch gives a bank besides its registers (R288-R292), and, for an armed bank, the arming bank's. -/
structure BlockInfo where
  launch    : Nat
  blk       : BitVec 32
  world     : Byte
  space     : BitVec 16
  tableBase : Nat
  tableLen  : Nat
  skew      : Fin 16
  codeBase  : Nat
  codeLen   : Nat
  image     : Nat
  digest    : Option (BitVec 512)
  cohort    : Bool
  barriers  : BitVec 16
  traced    : Bool
deriving DecidableEq, Repr

/-- A run of tiles in a waybill (R340). -/
structure Run where
  write  : Bool
  tensor : BitVec 20
  first  : BitVec 32
  count  : BitVec 32
deriving DecidableEq, Repr

/-- The sequencer part of a segment checkpoint, with the sequencer-side results that were in flight as it was taken: they are not of the
segment (R240, R243). -/
structure Checkpoint where
  pc      : BitVec 15
  k       : Vector Word 16
  frames  : List Frame
  calls   : List (BitVec 15)
  steps   : Vector StepEntry 8
  seq     : List SeqFlight
  fmtNext : List (Nat × BitVec 32)
  handler  : Bool
  savedCtl : Option SavedControl
deriving DecidableEq, Repr

/-- Segmented mode: the checkpoint, the rewinds of this segment, and the vectors and tiles read before written or written in it
(R240-R244). -/
structure Segment where
  entry   : Checkpoint
  rewinds : Nat
  liveV   : BitVec 32
  wroteV  : BitVec 32
  liveT   : BitVec 8
  wroteT  : BitVec 8
deriving DecidableEq, Repr

/-- What a park moved to the siding for one core: its window's bytes and the tiles its bank owns (R230, R333). -/
structure ParkedCore where
  window : Sparse Byte
  cipher : BitVec 768
  poison : BitVec 768
  tiles  : List (TReg × Tile × Bool)
deriving DecidableEq, Repr

/-- What a bundle under way has asked of an agent beside its core: a permit, an answer to a request, a rendezvous, a stop of the other
bank (R111, R217, R218, R245). -/
inductive Ask where
  | permit
  | answer
  | rendezvous
  | hold
deriving DecidableEq, Repr

/-- An uncorrectable error that a core is to consume in the skew line: the consuming bundle's issue cycle, the issue cycle of the
sequencer's in the real cycle of the consumption, the core, the trap, and the sequencer's control state at that bundle (R220, R233). -/
structure LateError where
  cycle  : Nat
  due    : Nat
  core   : Fin 64
  code   : Nat
  line   : Nat
  trap   : TrapInfo
  next   : BitVec 15
  saved  : SavedControl
deriving DecidableEq, Repr

/-- What one core held for a bank before an issue cycle that higher cores of the row have yet to execute (R220). -/
structure LineCore where
  s       : Vector Word 32
  v       : Vector Vec 32
  q       : Vector Pred 8
  reel    : Vector Word 8
  nflags  : Flags
  flights : List Flight
  macc    : List (Nat × Tile)
  mops    : List MmaOperands
  tiles   : Vector Tile 8
  owner   : Vector (Option Side) 8
deriving DecidableEq, Repr

/-- One issue cycle in the skew line: its number, what every core held before it, and the local-store bytes its bundle wrote over
(R220). -/
structure LineEntry where
  cycle : Nat
  cores : Vector LineCore 64
  prior : List (Fin 64 × Nat × List Byte)
deriving DecidableEq, Repr

/-- What one bank holds in the row's sequencer (R25, R106, R216, R225-R245). -/
structure Bank where
  pc        : BitVec 15
  k         : Vector Word 16
  frames    : List Frame
  calls     : List (BitVec 15)
  steps     : Vector StepEntry 8
  fmt       : BitVec 32
  fmtNext   : List (Nat × BitVec 32)
  deckle    : BitVec 80
  chk       : Bool
  mxstep    : BitVec 8
  lswin     : BitVec 32
  tsave     : BitVec 32
  rankBlk   : BitVec 32
  rankReg   : BitVec 4
  rankDie   : BitVec 8
  rankRow   : BitVec 6
  sysperm   : BitVec 4
  trapvec   : BitVec 16
  trapRec   : Vector Word 6
  handler   : Bool
  savedCtl  : Option SavedControl
  phase     : Phase
  rest      : Phase
  info      : BlockInfo
  cycle     : Nat
  nopLeft   : Nat
  heldLeft  : Nat
  voteHeld  : Bool
  waitLeft  : Nat
  retouch   : Bool
  late      : Option LateError
  verdict   : Option (TrapInfo × BitVec 15 × Nat)
  seq       : List SeqFlight
  votes     : List Vote
  matTime   : Nat
  matOps    : List MatrixOp
  mmaFree   : Nat
  numbers   : Vector Nat 8
  posted    : List Posted
  permit    : Permit
  acks      : Nat
  segment   : Option Segment
  arrivals  : Vector Nat 16
  asked     : Bool
  asking    : Option Ask
  go        : Bool
  answer    : Option Word
  request   : Option (Bool × Nat)
  atBar     : Option (BitVec 15 × Fin 16 × Scope)
  armed     : Option (BitVec 15)
  armer     : Option Side
  runs      : List Run
  untraced  : Bool
  frozen    : Option Cause
  frozenFor : Nat
  since     : Nat
  stopReq   : Option StopKind
  faults    : List (Nat × Nat × Nat)
  parked    : List ParkedCore
  badK      : BitVec 16
  badC      : Bool
deriving DecidableEq, Repr

/-- A message under way or queued (R209, R238). -/
structure Message where
  payload   : Vec
  fromPanel : BitVec 13
  fromRow   : Nat
  fromCore  : Fin 64
  fromSide  : Side
  entry     : BitVec 15
  tag       : BitVec 48
  core      : Fin 64
  number    : Nat
  poison    : Bool
deriving DecidableEq, Repr

/-- A translation cache entry: address space, tensor, tile index, and the tile table entry with its address (R277). -/
structure TransEntry where
  space  : Nat
  tensor : Nat
  tile   : Nat
  entry  : Word
  addr   : Nat
deriving DecidableEq, Repr

/-- A descriptor cache entry: address space, tensor, and the eight words (R277). -/
structure DescEntry where
  space  : Nat
  tensor : Nat
  words  : List Word
deriving DecidableEq, Repr

/-- A walk that a frozen bundle waits for (R277, R278). -/
structure WalkReq where
  side   : Side
  space  : Nat
  tensor : Nat
  tile   : Nat
deriving DecidableEq, Repr

/-- One row: 64 cores, two banks, the sequencer's shared state, the layout unit's caches, and the walks done for the bundles at hand, with
the entry each returned (R22, R24, R26, R277, R278). -/
structure Row where
  cores    : Vector Core 64
  a        : Bank
  b        : Bank
  lineA    : List LineEntry
  lineB    : List LineEntry
  holder   : Side
  switch   : Nat
  tookCond : Bool
  yielding : Bool
  istore   : Sparse (BitVec 32)
  arrivals : List Message
  world    : Option Byte
  retired  : Bool
  cause    : Nat
  ueTimes  : List Nat
  tcache   : List TransEntry
  dcache   : List DescEntry
  walks    : List WalkReq
  walked   : List (WalkReq × Word)
deriving DecidableEq, Repr

/-- How a tensor access reads a line of memory: the key slot of its tensor, 255 for none, and of the XTS tweak the address space, tensor and
tile (R276, R381). -/
structure View where
  slot   : Nat
  space  : Nat
  tensor : Nat
  tile   : Nat
deriving DecidableEq, Repr

/-- A line's seal: the view it was encrypted under and its slot's epoch (R381). -/
structure Seal where
  view  : View
  epoch : Nat
deriving DecidableEq, Repr

/-- What a pending operation does when it performs (R206, R249-R253, R260). -/
inductive PendOp where
  | load (req : Nat) (place : Place) (len : Nat) (seen : List BufferedStore)
  | store (place : Place) (data : List Byte)
  | ack
  | atom (op : Fin 8) (t : AType) (scope : Scope) (ret : Bool) (req : Nat) (targets : List (Fin 64 × Place × Word × Word))
  | arrive (scope : Scope) (byRow : Bool) (targets : List (Fin 64 × Place × Flags))
  | lock (scope : Scope) (tag : Word) (targets : List (Fin 64 × Place × Bool))
  | unlock (scope : Scope) (byRow : Bool) (targets : List (Fin 64 × Place))
  | discard (place : Place) (lines : Nat)
  | copyIn (channel : Fin 4) (number : Nat) (lines : List (Place × Nat)) (reel : Option Reel)
  | copyOut (channel : Fin 4) (number : Nat) (lines : List (Nat × Place))
  | copyLocal (channel : Fin 4) (number : Nat) (source : Nat) (target : Fin 64) (dest : Nat) (len : Nat)
  | send (number : Nat) (panel : Nat) (target : Nat) (message : Message) (scope : Scope)
  | red (number : Nat) (t : AType) (scope : Scope) (targets : List (Fin 64 × Place × Vec))
  | cipher (number : Nat) (sealing : Bool) (source dest block len : Nat) (slot : Fin 64) (iv : BitVec 96) (aad : List Byte)
      (tag : BitVec 128)
deriving DecidableEq, Repr

/-- An operation that has issued and has not performed: its id, who issued it, in which issue cycle, and, for one that a local-store
port performs, the issue cycle by which it has (R250); `poison` says that its buffer entry holds an uncorrectable error (R365), and
`inOrder` that it is a store committed from a segment store buffer, which performs in buffer order (R240). -/
structure Pending where
  id    : Nat
  row   : Nat
  side  : Side
  core  : Fin 64
  cycle : Nat
  due   : Option Nat
  op    : PendOp
  poison : Bool
  inOrder : Bool
deriving DecidableEq, Repr

/-- The MOESI state of a line in a die cache (R353); a line not listed is I. -/
inductive Moesi where
  | m
  | o
  | e
  | s
deriving DecidableEq, Repr

/-- A cached line: its physical line address, state, slot tag, and the generation last reported (R345, R353, R381). -/
structure CachedLine where
  line     : Nat
  state    : Moesi
  slot     : Option (Fin 64)
  reported : Option Word
deriving DecidableEq, Repr

/-- The state of a UCIe link of a die (R363). -/
inductive LinkState where
  | awake
  | asleep
  | waking
  | failed
deriving DecidableEq, Repr

/-- A compute die (R329, R353, R363, R364, R369, R373, R376). -/
structure Die where
  cache    : List CachedLine
  links    : List (Nat × LinkState)
  gated    : Bool
  excluded : Bool
  dead     : Bool
  spares   : Nat
  inject   : Word
deriving DecidableEq, Repr

/-- A home directory entry's state (R354, R359). -/
inductive HomeState where
  | shared
  | owned (owner : Nat)
  | route (j : Nat)
  | pod (switch : Nat) (delegated : Bool)
deriving DecidableEq, Repr

/-- A home or route directory entry: the line, its state, its sharers, by up to four die numbers or by a mask of regions (R354, R356). -/
structure DirEntry where
  line    : Nat
  state   : HomeState
  sharers : List Nat
  regions : BitVec 16
deriving DecidableEq, Repr

/-- The watermark registers of a tier unit (R282). -/
structure Marks where
  high : Nat
  low  : Nat
  used : Nat
deriving DecidableEq, Repr

/-- A frame in use in a tier unit: its number (physical address shifted right by 16), the addresses of the tile table entry that maps
it and of that entry's generation word if known, its reference age, its home junction and bias, whether it is unattributed, and whether
it holds demoted data (R273, R274, R276, R283, R345). -/
structure FrameUse where
  frame    : Nat
  entry    : Option Nat
  genWord  : Option Nat
  age      : Nat
  home     : Nat
  hostBias : Bool
  unattr   : Bool
  demoted  : Bool
deriving DecidableEq, Repr

/-- A junction (R283, R345, R354, R356, R368, R369, R376). -/
structure Junction where
  frames   : List FrameUse
  marks    : Marks
  home     : List DirEntry
  routes   : List DirEntry
  scrubHrs : Nat
  scrubThr : Nat
  scrubPos : Nat
  inject   : Word
  excluded : Bool
deriving DecidableEq, Repr

/-- A siding die, a CXL tier unit or the host tier: its frames and registers (R282, R368). -/
structure TierState where
  frames   : List FrameUse
  marks    : Marks
  scrubHrs : Nat
  scrubThr : Nat
  scrubPos : Nat
deriving DecidableEq, Repr

/-- The host pool beside the frames it has at reset: those given to the host driver, and those the driver has supplied (R283). -/
structure HostPool where
  given : List Nat
  added : List Nat
deriving DecidableEq, Repr

/-- A Ngawen port's status: link up, lanes trained, rate, corrected and uncorrected flit errors (R314). -/
structure LinkPort where
  up          : Bool
  lanes       : Fin 9
  rate        : Nat
  corrected   : Nat
  uncorrected : Nat
deriving DecidableEq, Repr

/-- An edge die: excluded or not; for a link die its two ports (R18, R314, R376). -/
structure EdgeDie where
  excluded : Bool
  ports    : List LinkPort
deriving DecidableEq, Repr

/-- A host die's request ring: its base, its done register, how many entries have been written, and those not answered (R313). -/
structure HostRing where
  base    : Word
  done    : Word
  count   : Nat
  entries : List (Nat × Nat × Word)
deriving DecidableEq, Repr

/-- A producer ring of a queue, and which of its three registers are poisoned (R304, R372). -/
structure Ring where
  base   : Word
  mirror : Word
  tail   : BitVec 32
  head   : BitVec 32
  taken  : BitVec 32
  badBase   : Bool
  badMirror : Bool
  badTail   : Bool
deriving DecidableEq, Repr

/-- A packet's body (R306). -/
inductive Packet where
  | launch (record : Word)
  | task (body : TaskBody)
  | rerun (header : Word)
  | wait (kind : Byte) (addr operand : Word)
  | signal (kind : Byte) (addr operand : Word)
  | indirect (array : Word) (count : BitVec 32)
  | fence (scope : Byte)
  | budget (addr : Word) (length : BitVec 32)
deriving DecidableEq, Repr

/-- A packet a thread has taken: its level and ring, its place in the order, the launch it made (R305-R308). -/
structure Taken where
  header   : PktHdr
  body     : Packet
  level    : Nat
  ring     : Option (Fin 8)
  order    : Nat
  outer    : List Nat
  started  : Bool
  complete : Bool
  launch   : Option Nat
deriving DecidableEq, Repr

/-- A queue: its rings, control register, taken packets, and the arrays it is inside of (R304-R309, R371, R372). -/
structure Queue where
  rings   : Vector Ring 8
  stamp   : BitVec 32
  error   : Nat
  state   : Nat
  halted  : Bool
  taken   : List Taken
  count   : Nat
  arrays  : List (Nat × Word × Nat × Nat)
  poison  : Bool
deriving DecidableEq, Repr

/-- A permit request at a governor (R327). -/
structure PermitReq where
  row  : Nat
  side : Side
  cls  : Fin 8
  time : Nat
deriving DecidableEq, Repr

/-- A region: governor, barrier segment, command processor (R20, R298, R304, R320, R326-R329). -/
structure Region where
  istep    : BitVec 16
  chgLo    : Word
  chgHi    : Word
  level    : Fin 8
  droops   : BitVec 32
  droop    : Bool
  barsel   : BitVec 8
  masks    : Sparse Word
  requests : List PermitReq
  lastWindow : Option Nat
  lastGate : Option Nat
  gateList : List Nat
  ungateList : List Nat
  waking   : Option Nat
  power    : BitVec 32
  queues   : Vector Queue 32
deriving DecidableEq, Repr

/-- A rerun under way (R347-R350). -/
structure Rerun where
  header : Nat
  since  : Word
  round  : Nat
  ran    : List Nat
  sel    : List Nat
  stuck  : List Nat
  bad    : List Nat
deriving DecidableEq, Repr

/-- A launch that has been taken and has not completed (R290-R297, R322, R338, R348). `next` is the first block id not yet placed of
a first run; `left` the rows whose block has ended, with the arrivals each had made; `rendezvous` the open one and the rows that have
arrived at it; `refused` the status a rerun that places no block ends with (R311, R344); `asker` the bank whose spawn or rerun of it has
not issued yet (R217). -/
structure Launch where
  id         : Nat
  record     : Nat
  cohort     : Bool
  traced     : Bool
  chk        : Bool
  skew       : Fin 16
  sysperm    : BitVec 4
  world      : Byte
  space      : BitVec 16
  perDie     : Nat
  window     : Nat
  blocks     : Nat
  maxRows    : Nat
  barriers   : BitVec 16
  image      : Nat
  tableBase  : Nat
  tableLen   : Nat
  completion : Nat
  placement  : Option (Nat × Nat)
  waybill    : Nat
  args       : List Word
  next       : Nat
  ended      : Nat
  failed     : Nat
  killed     : Nat
  firstFail  : Option (Nat × Vector Word 6)
  rendezvous : Option (Byte × List Nat)
  left       : List (Nat × Vector Nat 16)
  queue      : Option (Nat × Nat)
  task       : Option Word
  killing    : Bool
  digest     : Option (BitVec 512)
  refused    : Option Nat
  rerun      : Option Rerun
  asker      : Option (Nat × Side)
deriving DecidableEq, Repr

/-- A timetable (R315, R317). -/
structure Timetable where
  sequence : Word
  first    : Nat
  last     : Nat
  points   : List (Nat × Nat)
  shed     : Bool
  hold     : Bool
deriving DecidableEq, Repr

/-- An operating point of a task (R322). -/
structure OpPoint where
  level  : Fin 8
  rows   : Nat
  record : Nat
deriving DecidableEq, Repr

/-- A started task (R322-R324, R333, R334, R337): its points, the chosen one; whether it is parked, and whether the resumption of its banks
not yet resumed has been cancelled; the tiles of its working set that a park sent to the siding: entry, tensor, tile index; whether a park
has yet to send the rest of it. -/
structure Task where
  id       : Word
  cls      : Fin 8
  deadline : Nat
  points   : List OpPoint
  chosen   : Nat
  parked   : Bool
  launch   : Nat
  cancelled : Bool
  away     : List (Nat × Nat × Nat)
  demoting : Bool
deriving DecidableEq, Repr

/-- A world (R310, R311, R383, R389). -/
structure World where
  id          : Byte
  rows        : Nat
  slots       : BitVec 64
  measurement : BitVec 512
  acked       : Bool
  release     : Option (BitVec 512)
deriving DecidableEq, Repr

/-- The life-cycle states (R379). -/
inductive LifeCycle where
  | manufacture
  | provisioned
  | deployed
  | returned
  | scrapped
deriving DecidableEq, Repr

/-- A move of a frame (R285). -/
inductive MoveKind where
  | demotion
  | promotion
deriving DecidableEq, Repr

/-- A move under way: the tile table entry it moves, the entry as it stood and as it will stand, the destination frame's place, and
the bytes of a software write held back (R285, R286); the form, key slot and generation word of the entry's tile (R274, R276, R284, R345). -/
structure Move where
  id      : Nat
  kind    : MoveKind
  entry   : Nat
  old     : Word
  final   : Word
  held    : List (Nat × Byte)
  form    : Bool
  view    : View
  genWord : Option Nat
  answer  : Option (BitVec 32)
deriving DecidableEq, Repr

/-- The mailbox and firmware registers of the root of trust (R388, R390). -/
structure Mailbox where
  command : Byte
  session : BitVec 32
  data    : Word
  status  : Nat
  retry   : Nat
  stage   : Word
  fwState : Nat
  window  : Nat
deriving DecidableEq, Repr

/-- The image of one component: its digest and security version (R375). -/
structure Image where
  digest  : BitVec 512
  version : Nat
deriving DecidableEq, Repr

/-- Firmware: digest, security version, its commit flag, and the images of the five components in the order of R375 (R375, R388, R389). -/
structure Firmware where
  digest  : BitVec 512
  version : Nat
  commit  : Bool
  parts   : List Image
deriving DecidableEq, Repr

/-- An event whose bounds are not both met: its record's number if it has one, its grade's code, the launches whose banks are to stop, and
which of the power and demotion bounds is still open (R319, R332). -/
structure Unmet where
  record   : Option Nat
  grade    : Nat
  launches : List Nat
  power    : Bool
  demotion : Bool
deriving DecidableEq, Repr

/-- The energy timetable unit (R317-R320, R330, R335). -/
structure Timing where
  inForce   : Option Timetable
  pending   : Option Timetable
  sequence  : Word
  submit    : Word
  evBase    : Word
  evHead    : BitVec 32
  evKept    : List (List Byte)
  contactS  : Bool
  contactH  : Bool
  lastS     : Bool
  lastH     : Bool
  sampleAt  : Nat
  limit     : BitVec 32
  power     : BitVec 32
  target    : Nat
  stabled   : Bool
  refresh   : Bool
  wake      : Nat
  samples   : List Nat
  unmet     : List Unmet
deriving DecidableEq, Repr

/-- The error ring (R367). -/
structure Errors where
  base  : Word
  head  : BitVec 32
  count : Word
  kept  : List (List Byte)
  per   : List (Nat × Nat × Nat)
  last  : List (Nat × Nat × Nat)
deriving DecidableEq, Repr

/-- The station (R19, R374-R380, R384-R390). `standby` is a spare that is booting; `lacking` the components for which the last boot found no
verified image, posted to the management port; `linked` the panel time at which the link keys in use were established; `identity` says that
the fused identity keys have not been erased (R375, R376, R379). -/
structure Station where
  active     : Option (Fin 4)
  standby    : Option (Fin 4)
  healthy    : BitVec 4
  heartbeat  : Nat
  booted     : Bool
  lacking    : List Nat
  linked     : Nat
  life       : LifeCycle
  returns    : Nat
  alarms     : Word
  keyRevoke  : Word
  keyStatus  : Word
  mailbox    : Mailbox
  running    : Firmware
  staged     : Option Firmware
  stagedAt   : Nat
  minVersion : Nat
  bootDigest : BitVec 512
  vendor     : BitVec 512
  facility   : BitVec 512
  owner      : BitVec 512
  identity   : Bool
deriving DecidableEq, Repr

/-- A key slot, the same on every junction (R381). -/
structure KeySlot where
  key   : Option (BitVec 256)
  epoch : BitVec 16
deriving DecidableEq, Repr

/-- The pod's side of coherence: lines in recovery with their switch, the switches lost, the panels that failed, the request ids
kept (R359-R362).
(DESIGN CHOICE: log entry 95.) -/
structure Pod where
  recovery : List (Nat × Nat)
  lost     : List Nat
  failed   : List (BitVec 13)
  kept     : List (Word × Nat)
deriving DecidableEq, Repr

/-- What is to happen outside the rows: an operation or event from outside, or what an agent of the panel has become due to do. -/
inductive Deed where
  | outside (e : Instr)
  | permitWindow (g : RegionId)
  | answerSpawn (row : Nat) (x : Side)
  | spawnIssued (row : Nat) (x : Side)
  | takePacket (q : QueueId)
  | startPacket (q : QueueId)
  | placeBlock (launch : Nat)
  | completeLaunch (launch : Nat)
  | rerunRound (launch : Nat)
  | killComplete (launch : Nat)
  | ungateDie (d : DieId)
  | gateDies (g : RegionId)
  | ungateDies (g : RegionId)
  | resumeTask (task : Word)
  | timetableInForce
  | timetablePoint
  | headroom
  | commitFirmware
  | stationReady
deriving DecidableEq, Repr

/-- The whole panel. -/
structure State where
  /-- What the agents outside the rows do next, with the panel time of each (the model's own; log entry 1). -/
  agenda    : List (Nat × Deed)
  /-- The row whose turn it is when the agenda is empty (the model's own; log entry 1). -/
  cur       : Nat
  /-- The queues whose oldest taken packet has not started (the model's own; log entry 1). -/
  blocked   : List Nat
  /-- How many free values have been drawn (the model's own; log entry 2). -/
  freeSeq   : Nat
  /-- The next id of a pending operation, request or move (the model's own bookkeeping; log entry 1). -/
  nextId    : Nat
  /-- Panel time in ns; its start is the model's choice (DESIGN CHOICE: log entry 9). -/
  time      : Nat
  /-- The panel's id in its pod; its value is the model's choice (DESIGN CHOICE: log entry 3). -/
  panelId   : BitVec 13
  rows      : Sparse Row
  mem       : Sparse Byte
  cipher    : List Nat
  poison    : List Nat
  sealed    : Sparse Seal
  pend      : List Pending
  moves     : List Move
  dies      : Vector Die 160
  juns      : Vector Junction 160
  sidings   : Vector TierState 32
  cxl       : Vector TierState 4
  host      : TierState
  hostPool  : HostPool
  hostCopies : List Nat
  waiting   : List (Nat × List Byte)
  edges     : Vector EdgeDie 72
  hostRings : Vector HostRing 4
  regions   : Vector Region 16
  xinvSel   : Word
  xinvGo    : Word
  xinvJob   : Option (Word × Word)
  wgen      : Word
  lastId    : Nat
  launches  : List Launch
  released  : List (Nat × Nat × Nat)
  worlds    : List World
  tasks     : List Task
  timing    : Timing
  errors    : Errors
  station   : Station
  slots     : Vector KeySlot 64
  vectors   : List Nat
  /-- The vectors each host function's MSI-X table enables (R312; DESIGN CHOICE: log entry 117). -/
  msix      : Vector (BitVec 544) 4
  interrupts : List (Fin 4 × Nat)
  /-- What the last read of a host returned (the model's own; log entry 112). -/
  hostData  : List Byte
  pod       : Pod
deriving DecidableEq, Repr

/-- A block-start tag entry: invalid. -/
def TagEntry.reset : TagEntry := ⟨false, 0, 0⟩
/-- A block-start step table entry: inactive, 0 (R103). -/
def StepEntry.reset : StepEntry := ⟨⟨false, 0, 0, .d, 0, 0⟩, none⟩

/-- The core part of an empty bank: the block-start values of R25. -/
def CoreBank.reset : CoreBank where
  s := Vector.replicate 32 0
  v := Vector.replicate 32 0
  q := (Vector.replicate 8 0).set 0 (BitVec.allOnes 128)
  reel := Vector.replicate 8 0
  tl := Vector.replicate 8 0
  tags := Vector.replicate 64 TagEntry.reset
  nflags := 0
  loads := []
  flights := []
  latches := []
  segBuf := []
  saved := 0
  reserved := []
  doneOps := []
  macc := []
  mops := []
  badS := 0
  badV := 0
  badQ := 0
  residue := false
  ckS := Vector.replicate 32 0
  ckQ := Vector.replicate 8 0
  ckF := []

/-- A core after panel reset: zeros everywhere, every tile clean with no owner (R26, R151). -/
def Core.reset : Core where
  ls := []
  cipher := 0
  poison := 0
  tiles := Vector.replicate 8 0
  owner := Vector.replicate 8 none
  dirty := 0
  busy := 0
  badT := 0
  a := CoreBank.reset
  b := CoreBank.reset

/-- The dispatch data of a bank that holds no block. -/
def BlockInfo.none : BlockInfo :=
  ⟨0, 0, 0, 0, 0, 0, 0, 0, 0, 0, Option.none, false, 0, false⟩

/-- The sequencer part of an empty bank of panel row `n`: the block-start values of R25; what dispatch sets is 0 until then, but for
the place's own rank (log entry 5). -/
def Bank.reset (n : Nat) : Bank where
  pc := 0
  k := Vector.replicate 16 0
  frames := []
  calls := []
  steps := Vector.replicate 8 StepEntry.reset
  fmt := 0x007F7F00#32
  fmtNext := []
  deckle := 0
  chk := false
  mxstep := 0
  lswin := 0
  tsave := 0
  rankBlk := 0
  rankReg := BitVec.ofNat 4 (n / 640)
  rankDie := BitVec.ofNat 8 (n / 64)
  rankRow := BitVec.ofNat 6 n
  sysperm := 0
  trapvec := 0
  trapRec := Vector.replicate 6 0
  handler := false
  savedCtl := none
  phase := .empty
  rest := .run
  info := BlockInfo.none
  cycle := 0
  nopLeft := 0
  heldLeft := 0
  voteHeld := false
  waitLeft := 0
  retouch := false
  late := none
  verdict := none
  seq := []
  votes := []
  matTime := 0
  matOps := []
  mmaFree := 0
  numbers := Vector.replicate 8 0
  posted := []
  permit := .none
  acks := 0
  segment := none
  arrivals := Vector.replicate 16 0
  asked := false
  asking := none
  go := false
  answer := none
  request := none
  atBar := none
  armed := none
  armer := none
  runs := []
  untraced := false
  frozen := none
  frozenFor := 0
  since := 0
  stopReq := none
  faults := []
  parked := []
  badK := 0
  badC := false

/-- Panel row `n` after panel reset (R26).
(DESIGN CHOICE: log entry 7.) -/
def Row.reset (n : Nat) : Row where
  cores := Vector.replicate 64 Core.reset
  a := Bank.reset n
  b := Bank.reset n
  lineA := []
  lineB := []
  holder := .a
  switch := 0
  tookCond := false
  yielding := false
  istore := []
  arrivals := []
  world := none
  retired := false
  cause := 0
  ueTimes := []
  tcache := []
  dcache := []
  walks := []
  walked := []

/-- The watermarks of a unit of `n` frames: 90 % and 80 %, rounded down (R282). -/
def Marks.reset (n : Nat) : Marks := ⟨n * 9 / 10, n * 8 / 10, 0⟩

def Die.reset : Die := ⟨[], [], false, false, false, 2, 0⟩
def Junction.reset : Junction := ⟨[], Marks.reset 786432, [], [], 24, 64, 0, 0, false⟩
def TierState.reset (n : Nat) : TierState := ⟨[], Marks.reset n, 24, 64, 0⟩
/-- A port whose link is down (log entry 113). -/
def LinkPort.reset : LinkPort := ⟨false, 0, 0, 0, 0⟩
/-- Whether an edge slot holds a link die: it faces a compute die, which stand where x + y is even, other than the two at the corners; by
the numbering of R18 those are the even slots of the upper and right sides and the odd ones of the others, but for hosts and stations. -/
def isLinkSlot (n : Nat) : Bool :=
  (2 ≤ n && n ≤ 18 && n % 2 == 0) || (21 ≤ n && n ≤ 33 && n % 2 == 1) || (38 ≤ n && n ≤ 54 && n % 2 == 0) || (57 ≤ n && n ≤ 69 && n % 2 == 1)
/-- An edge die after panel reset; a link die has its two ports. -/
def EdgeDie.reset (n : Nat) : EdgeDie := ⟨false, if isLinkSlot n then [LinkPort.reset, LinkPort.reset] else []⟩
def HostRing.reset : HostRing := ⟨0, 0, 0, []⟩
def Ring.reset : Ring := ⟨0, 0, 0, 0, 0, false, false, false⟩
def Queue.reset : Queue := ⟨Vector.replicate 8 Ring.reset, 0, 0, 0, false, [], 0, [], false⟩

/-- A region after panel reset; %istep and the charges are set by firmware (log entry 8). -/
def Region.reset : Region where
  istep := 0xFFFF
  chgLo := 0
  chgHi := 0
  level := 7
  droops := 0
  droop := false
  barsel := 0
  masks := []
  requests := []
  lastWindow := none
  lastGate := none
  gateList := []
  ungateList := []
  waking := none
  power := 0
  queues := Vector.replicate 32 Queue.reset

/-- The timetable unit after panel reset (R317, R320). -/
def Timing.reset : Timing :=
  ⟨none, none, 0, 0, 6, 0, [], false, false, false, false, 0, 14400, 0, 48000, false, false, 0, [], []⟩

/-- The station after panel reset: life cycle and versions stand in fuses (log entry 10). -/
def Station.reset : Station where
  active := some 0
  standby := none
  healthy := 0xF
  heartbeat := 0
  booted := true
  lacking := []
  linked := 0
  life := .manufacture
  returns := 0
  alarms := 0x15
  keyRevoke := 0
  keyStatus := 0
  mailbox := ⟨0, 0, 0, 0, 0, 0, 0, 600⟩
  running := ⟨0, 1, false, List.replicate 5 ⟨0, 1⟩⟩
  staged := none
  stagedAt := 0
  minVersion := 1
  bootDigest := sha3 (List.replicate 320 0 ++ bytesOfNat 1 8 ++ [0] ++ List.replicate 49 255 ++ List.replicate 23 0)
  vendor := Config.vendorKey
  facility := 0
  owner := 0
  identity := true

/-- The panel right after reset: every store holds zeros, every bank is empty, every register has the reset value its rule states,
or the value a log entry names. -/
def State.reset : State where
  agenda := []
  cur := 0
  blocked := []
  freeSeq := 0
  nextId := 0
  time := 0
  panelId := 0
  rows := []
  mem := []
  cipher := []
  poison := []
  sealed := []
  pend := []
  moves := []
  dies := Vector.replicate 160 Die.reset
  juns := Vector.replicate 160 Junction.reset
  sidings := Vector.replicate 32 (TierState.reset 8388608)
  cxl := ⟨#[TierState.reset (Config.cxlFrames 0), TierState.reset (Config.cxlFrames 1), TierState.reset (Config.cxlFrames 2),
    TierState.reset (Config.cxlFrames 3)], rfl⟩
  host := TierState.reset Config.hostFrames
  hostPool := ⟨[], []⟩
  hostCopies := []
  waiting := []
  edges := ⟨⟨(List.range 72).map EdgeDie.reset⟩, by simp⟩
  hostRings := Vector.replicate 4 HostRing.reset
  regions := Vector.replicate 16 Region.reset
  xinvSel := 0
  xinvGo := 0
  xinvJob := none
  wgen := 0
  lastId := 0
  launches := []
  released := []
  worlds := [⟨0, 10240, 0, 0, false, none⟩]
  tasks := []
  timing := Timing.reset
  errors := ⟨6, 0, 0, [], [], []⟩
  station := Station.reset
  slots := Vector.replicate 64 ⟨none, 0⟩
  vectors := []
  msix := Vector.replicate 4 0
  interrupts := []
  hostData := []
  pod := ⟨[], [], [], []⟩

end Sys2Proof.Machine
end

