-- ==== Sys2Proof/Machine/Ops.lean ====
section
/-! DEFINITION. The named operations over memory, rows, cores and registers that every meaning shares: tables by address, bytes,
the two banks and 64 cores of a row, the local store and its window, physical memory, and the landing of results. -/

namespace Sys2Proof.Machine

/-! ## Tables by address -/

/-- What a table lists at `k`. -/
def Sparse.find {α : Type} : Sparse α → Nat → Option α
  | [], _ => none
  | (a, x) :: m, k => if a = k then some x else Sparse.find m k

/-- What a table holds at `k`, `d` where it lists nothing. -/
def Sparse.get {α : Type} (m : Sparse α) (d : α) (k : Nat) : α := (Sparse.find m k).getD d

/-- The table with `x` at `k`, in rising order. -/
def Sparse.put {α : Type} : Sparse α → Nat → α → Sparse α
  | [], k, x => [(k, x)]
  | (a, y) :: m, k, x => if a < k then (a, y) :: Sparse.put m k x else if a = k then (k, x) :: m else (k, x) :: (a, y) :: m

/-- The table without `k`. -/
def Sparse.del {α : Type} : Sparse α → Nat → Sparse α
  | [], _ => []
  | (a, y) :: m, k => if a = k then m else (a, y) :: Sparse.del m k

/-- The table with `x` at `k`, listing nothing where `x` is what an unlisted address reads as. -/
def Sparse.set {α : Type} [DecidableEq α] (m : Sparse α) (d : α) (k : Nat) (x : α) : Sparse α :=
  if x = d then Sparse.del m k else Sparse.put m k x

/-- The addresses of a table rise strictly, from above `lo`. -/
def Sparse.risesFrom {α : Type} : Sparse α → Option Nat → Bool
  | [], _ => true
  | (a, _) :: m, lo => (lo.all (· < a)) && Sparse.risesFrom m (some a)

/-- The canonical form of a memory: addresses rise strictly and no entry is what an unlisted byte reads as, 0. -/
def Memory.wf (m : Sparse Byte) : Bool := Sparse.risesFrom m none && m.all (fun e => e.2 != 0)

/-- A byte of a memory; an unlisted one reads 0 (R26, R378; log entry 4). -/
def Memory.byte (m : Sparse Byte) (a : Nat) : Byte := Sparse.get m 0 a
/-- A memory with one byte written. -/
def Memory.put (m : Sparse Byte) (a : Nat) (b : Byte) : Sparse Byte := Sparse.set m 0 a b

/-- The `n` bytes of a memory from `a` on. -/
def Memory.read (m : Sparse Byte) (a : Nat) : Nat → List Byte
  | 0 => []
  | n + 1 => Memory.byte m a :: Memory.read m (a + 1) n

/-- A memory with bytes written from `a` on. -/
def Memory.write (m : Sparse Byte) (a : Nat) : List Byte → Sparse Byte
  | [] => m
  | b :: bs => Memory.write (Memory.put m a b) (a + 1) bs

/-- A sorted list of numbers with `k` in it. -/
def insertNat (k : Nat) : List Nat → List Nat
  | [] => [k]
  | a :: l => if a < k then a :: insertNat k l else if a = k then a :: l else k :: a :: l
/-- A list of numbers without `k`. -/
def removeNat (k : Nat) (l : List Nat) : List Nat := l.filter (· != k)

/-! ## Numbers of a width (R89) -/

/-- `x[n-1:0]` read as two's complement (R89). -/
def signext (x n : Nat) : Int := if x % 2 ^ n < 2 ^ (n - 1) then (x % 2 ^ n : Nat) else ((x % 2 ^ n : Nat) : Int) - (2 ^ n : Nat)

/-- `x mod 2^n` (R89). -/
def wrap (x : Int) (n : Nat) : Nat := (x % ((2 ^ n : Nat) : Int)).toNat

/-- `x` clamped to n bits two's complement, and whether it clamped (R89). -/
def satsigned (x : Int) (n : Nat) : Int × Bool :=
  let hi : Int := ((2 ^ (n - 1) : Nat) : Int) - 1
  let lo : Int := -((2 ^ (n - 1) : Nat) : Int)
  if x > hi then (hi, true) else if x < lo then (lo, true) else (x, false)

/-- `x` clamped to n bits unsigned, and whether it clamped (R89). -/
def satunsigned (x : Int) (n : Nat) : Int × Bool :=
  let hi : Int := ((2 ^ n : Nat) : Int) - 1
  if x > hi then (hi, true) else if x < 0 then (0, true) else (x, false)

/-- The least `p` with `x ≤ 2^p`. -/
def ceilLog2 (x : Nat) : Nat := if x ≤ 1 then 0 else Nat.log2 (x - 1) + 1

/-! ## The 64 cores of a row -/

/-- A table made entry by entry. -/
def tableOfFn {α : Type} {n : Nat} (f : Fin n → α) : Vector α n := ⟨⟨List.ofFn f⟩, by simp⟩
/-- A table of 64 made core by core. -/
def tab {α : Type} (f : Fin 64 → α) : Vector α 64 := tableOfFn f

/-- The 64 core numbers, ascending. -/
def allCores : List (Fin 64) := List.finRange 64

/-- The mask with bit c set for each core that meets a condition (R231 word 1). -/
def coreMask (p : Fin 64 → Bool) : BitVec 64 :=
  BitVec.ofNat 64 (allCores.foldl (fun m c => if p c then m + 2 ^ c.val else m) 0)

/-- The lowest-numbered core that meets a condition. -/
def firstCore (p : Fin 64 → Bool) : Option (Fin 64) := allCores.find? p

/-- The other bank (R24). -/
def otherSide : Side → Side
  | .a => .b
  | .b => .a

/-- A core's part for a bank. -/
def Core.of (c : Core) : Side → CoreBank
  | .a => c.a
  | .b => c.b
/-- A core with a bank's part changed. -/
def Core.mod (c : Core) (x : Side) (f : CoreBank → CoreBank) : Core :=
  match x with
  | .a => { c with a := f c.a }
  | .b => { c with b := f c.b }

/-- A row's bank. -/
def Row.bank (r : Row) : Side → Bank
  | .a => r.a
  | .b => r.b
/-- A row with a bank changed. -/
def Row.modBank (r : Row) (x : Side) (f : Bank → Bank) : Row :=
  match x with
  | .a => { r with a := f r.a }
  | .b => { r with b := f r.b }
/-- A row with every core changed. -/
def Row.mapCores (r : Row) (f : Fin 64 → Core → Core) : Row := { r with cores := tab fun c => f c r.cores[c] }
/-- A row with a bank's part of every core changed. -/
def Row.mapBanks (r : Row) (x : Side) (f : Fin 64 → CoreBank → CoreBank) : Row :=
  r.mapCores fun c k => k.mod x (f c)
/-- A core of a row with a bank's part. -/
def Row.cb (r : Row) (x : Side) (c : Fin 64) : CoreBank := r.cores[c].of x

/-- A row of the panel: as after reset until something has changed it. -/
def State.row (s : State) (n : Nat) : Row := (Sparse.find s.rows n).getD (Row.reset n)
/-- The panel with a row set. -/
def State.setRow (s : State) (n : Nat) (r : Row) : State := { s with rows := Sparse.put s.rows n r }
/-- The panel with a row changed. -/
def State.modRow (s : State) (n : Nat) (f : Row → Row) : State := s.setRow n (f (s.row n))
/-- A bank of the panel. -/
def State.bank (s : State) (n : Nat) (x : Side) : Bank := (s.row n).bank x
/-- The panel with a bank changed. -/
def State.modBank (s : State) (n : Nat) (x : Side) (f : Bank → Bank) : State := s.modRow n (·.modBank x f)
/-- The panel with one core changed. -/
def State.modCore (s : State) (n : Nat) (c : Fin 64) (f : Core → Core) : State :=
  s.modRow n fun r => { r with cores := r.cores.set c.val (f r.cores[c]) }
/-- The panel with one core's part of a bank changed. -/
def State.modCoreBank (s : State) (n : Nat) (x : Side) (c : Fin 64) (f : CoreBank → CoreBank) : State :=
  s.modCore n c (·.mod x f)

/-- The die, index within its region, and region of a panel row (R15, R16, R22). -/
def dieOf (row : Nat) : Nat := row / 64
def regionOfDie (d : Nat) : Nat := d / 10
def regionOf (row : Nat) : Fin 16 := ⟨dieOf row / 10 % 16, Nat.mod_lt _ (by decide)⟩
def dieFin (row : Nat) : Fin 160 := ⟨dieOf row % 160, Nat.mod_lt _ (by decide)⟩

/-- The panel with a region changed. -/
def State.modRegion (s : State) (g : Fin 16) (f : Region → Region) : State :=
  { s with regions := s.regions.set g.val (f s.regions[g]) }
def State.modDie (s : State) (d : Fin 160) (f : Die → Die) : State := { s with dies := s.dies.set d.val (f s.dies[d]) }
def State.modJun (s : State) (j : Fin 160) (f : Junction → Junction) : State := { s with juns := s.juns.set j.val (f s.juns[j]) }

/-- What the active station does: with no station active, nothing (R19). -/
def State.atStation (s : State) (f : State → State) : State := if s.station.active.isNone then s else f s

/-- Draw the next free value (log entry 2). -/
def State.draw (s : State) (w : Nat) : BitVec w × State := (Config.freeValue s.freeSeq w, { s with freeSeq := s.freeSeq + 1 })

/-! ## The local store and its window (R26, R30-R32, R207) -/

/-- The first byte of a bank's window in the core's local store, and its size (R30). -/
def Bank.winBase (b : Bank) : Nat := b.lswin.toNat % 256 * 256
def Bank.winSize (b : Bank) : Nat := b.lswin.toNat / 256 % 256 * 256

/-- Whether every byte of an access lies in the window (R30). -/
def Bank.inWindow (b : Bank) (a n : Nat) : Bool := a + n ≤ b.winSize

/-- A 64-byte line's form bit in a local store: ciphertext or not (R207). -/
def Core.lineCipher (c : Core) (line : Nat) : Bool := c.cipher.getLsbD line
def Core.linePoison (c : Core) (line : Nat) : Bool := c.poison.getLsbD line

/-- The lines of 64 bytes an access of `n > 0` bytes touches. -/
def linesOf (a n : Nat) : List Nat := (List.range ((a + n - 1) / 64 + 1 - a / 64)).map (· + a / 64)

/-- Whether an access of `n` bytes meets a ciphertext or a poisoned line. -/
def Core.anyCipher (c : Core) (a n : Nat) : Bool := (linesOf a n).any c.lineCipher
def Core.anyPoison (c : Core) (a n : Nat) : Bool := (linesOf a n).any c.linePoison

/-- Whether a write of `n` bytes at `a` covers a line whole. -/
def coversLine (a n line : Nat) : Bool := a ≤ line * 64 && line * 64 + 64 ≤ a + n

/-- A line's bit set to a value. -/
def setLine (m : BitVec 768) (line : Nat) (x : Bool) : BitVec 768 :=
  if x then m ||| BitVec.twoPow 768 line else m &&& ~~~ BitVec.twoPow 768 line

/-- Write bytes at a local-store byte number: a line written whole becomes plaintext and clean (R366, R382). -/
def Core.lsWrite (c : Core) (a : Nat) (bs : List Byte) : Core :=
  let whole := (linesOf a bs.length).filter (coversLine a bs.length)
  { c with ls := Memory.write c.ls a bs
           cipher := whole.foldl (fun m l => setLine m l false) c.cipher
           poison := whole.foldl (fun m l => setLine m l false) c.poison }

/-- Whether runs of bytes cover a line whole. -/
def runsCover (runs : List (Nat × Nat)) (line : Nat) : Bool :=
  (List.range 64).all fun k => runs.any fun p => p.1 ≤ line * 64 + k && line * 64 + k < p.1 + p.2

/-- Runs of bytes written into a local store: lines they cover whole become plaintext and clean (R366, R382). -/
def Core.lsWriteRuns (c : Core) (runs : List (Nat × List Byte)) : Core :=
  let spans := runs.map fun p => (p.1, p.2.length)
  let whole := (spans.flatMap fun p => linesOf p.1 p.2).filter (runsCover spans)
  { c with ls := runs.foldl (fun m p => Memory.write m p.1 p.2) c.ls
           cipher := whole.foldl (fun m l => setLine m l false) c.cipher
           poison := whole.foldl (fun m l => setLine m l false) c.poison }

/-- Write one 64-byte line with its form bit and poison state, as a copy does (R207). -/
def Core.lsWriteLine (c : Core) (a : Nat) (bs : List Byte) (cipher poison : Bool) : Core :=
  { c with ls := Memory.write c.ls a bs
           cipher := setLine c.cipher (a / 64) cipher
           poison := setLine c.poison (a / 64) poison }

/-- The core and the window byte a quad-window address names (R32): slot m of the quad is core 4q + m. -/
def quadTarget (core : Fin 64) (a : Nat) : Option (Fin 64 × Nat) :=
  if a < 0x30000 then some (⟨(core.val / 4 * 4 + a / 0xC000 % 4) % 64, Nat.mod_lt _ (by decide)⟩, a % 0xC000) else none

/-- Whether an access of `n` bytes lies in one slot and in that core's window (R32). -/
def Bank.inQuad (b : Bank) (a n : Nat) : Bool := a < 0x30000 && (a % 0xC000 + n ≤ 0xC000) && b.inWindow (a % 0xC000) n

/-! ## Physical memory (R34, R35) -/

/-- The kinds of range of the physical map (R34). -/
inductive RangeKind where
  | hbm (j : Nat)
  | siding (s : Nat)
  | control
  | cxl (h : Nat)
  | host
  | unmapped
deriving DecidableEq, Repr

/-- The range a physical address lies in (R34); bits 51:48 set is unmapped (R273). -/
def rangeOf (a : Nat) : RangeKind :=
  if a < 0x0A0000000000 then (if a % 0x1000000000 < 0xC00000000 then .hbm (a / 0x1000000000) else .unmapped)
  else if a < 0x100000000000 then .unmapped
  else if a < 0x200000000000 then .siding ((a - 0x100000000000) / 0x8000000000)
  else if a < 0x200100000000 then .control
  else if a < 0x400000000000 then .unmapped
  else if a < 0x800000000000 then .cxl ((a - 0x400000000000) / 0x100000000000)
  else if a < 0x1000000000000 then .host
  else .unmapped

/-- The memory table's key of a physical address of a panel (R34: the pod extends an address with the panel id). -/
def physKey (panel a : Nat) : Nat := panel * 2 ^ 52 + a

/-! ### Encryption at rest (R381)

Memory lists a sealed line's plaintext with the view it was stored under. An access under that view reads the plaintext; one under another
view, or under none, reads what XTS makes of the stored cipher text.
(DEDUCED: log entry 93.) -/

/-- The slot of a number. -/
def slotFin64 (n : Nat) : Fin 64 := ⟨n % 64, Nat.mod_lt _ (by decide)⟩

/-- A key derived from a slot's key and a name: SHA3-256(K ‖ name) (R381). -/
def slotKey (k : BitVec 256) (name : List Byte) : BitVec 256 := sha3Short (bytesOfNat k.toNat 32 ++ name)
/-- XTS keys K1 and K2 of a slot's key: the names are "xts1" and "xts2". -/
def xtsKeys (k : BitVec 256) : BitVec 256 × BitVec 256 := (slotKey k [0x78, 0x74, 0x73, 0x31], slotKey k [0x78, 0x74, 0x73, 0x32])

/-- A line's bytes through XTS in a direction, under a view's slot and tweak; as they are where the slot holds no key. -/
def State.xtsAs (s : State) (cipher : List (List Byte) → List Byte → List Byte) (v : View) (line : Nat) (bs : List Byte) : List Byte :=
  match s.slots[slotFin64 v.slot].key with
  | some k => xtsLine cipher (xtsKeys k).1 (xtsKeys k).2 (Config.xtsTweak v.space v.tensor v.tile (line % 1024)) bs
  | none => bs

/-- A seal whose key has been erased, or whose epoch has gone by. -/
def State.sealStale (s : State) (e : Seal) : Bool :=
  let k := s.slots[slotFin64 e.view.slot]
  k.key.isNone || k.epoch.toNat != e.epoch

/-- An access under a view reads a line as memory lists it. -/
def State.readsPlain (s : State) (v : Option View) (line : Nat) : Bool :=
  match Sparse.find s.sealed line with
  | none => true
  | some e => v == some e.view || s.sealStale e

/-- A line's 64 bytes as an access under a view reads them. -/
def State.lineAs (s : State) (v : Option View) (line : Nat) : List Byte :=
  let bs := Memory.read s.mem (64 * line) 64
  match Sparse.find s.sealed line with
  | none => bs
  | some e =>
    if s.readsPlain v line then bs
    else
      let stored := s.xtsAs aesEncrypt e.view line bs
      match v with
      | none => stored
      | some w => s.xtsAs aesDecrypt w line stored

/-- The bytes from a key on as an access under a view reads them. -/
def State.keyRead (s : State) (v : Option View) (key n : Nat) : List Byte :=
  if (linesOf key n).all (s.readsPlain v) then Memory.read s.mem key n
  else (List.range n).map fun i => ((s.lineAs v ((key + i) / 64))[(key + i) % 64]?).getD 0

/-- A line about to be written in part under a view: listed as that view reads it, with no other view's seal; one that read as poison stays
poisoned. -/
def State.openLine (s : State) (v : Option View) (line : Nat) : State :=
  match Sparse.find s.sealed line with
  | none => s
  | some e =>
    if v == some e.view then s
    else
      { s with mem := Memory.write s.mem (64 * line) (s.lineAs v line)
               sealed := Sparse.del s.sealed line
               poison := if s.sealStale e then insertNat line s.poison else s.poison }
def State.openLines (s : State) (v : Option View) (key n : Nat) : State := (linesOf key n).foldl (fun s l => s.openLine v l) s

/-! ### Reads and writes by address -/

/-- The bytes at a physical address of this panel, as an agent that names no tensor reads them. -/
def State.physRead (s : State) (a n : Nat) : List Byte := s.keyRead none (physKey s.panelId.toNat a) n
def State.physWord (s : State) (a : Nat) : Word := wordOfBytes (s.physRead a 8)
def State.physNat (s : State) (a n : Nat) : Nat := natOfBytes (s.physRead a n)

/-- How an agent of this panel names an address of a panel: an address of this one as it is, another panel's above 2^52.
(DEDUCED: log entry 123.) -/
def farAddress (own panel a : Nat) : Nat := if panel = own then a else 2 ^ 52 * (panel + 1) + a
/-- The memory table's key of an address so named. -/
def State.farKey (s : State) (a : Nat) : Nat := if a < 2 ^ 52 then physKey s.panelId.toNat a else a - 2 ^ 52

/-- The number that the bytes at an address so named hold. -/
def State.farNat (s : State) (a n : Nat) : Nat := natOfBytes (s.keyRead none (s.farKey a) n)

/-- Memory with bytes written at a key: lines written whole become plaintext and clean (R366). -/
def State.keyWrite (s : State) (key : Nat) (bs : List Byte) : State :=
  let whole := (linesOf key bs.length).filter (coversLine key bs.length)
  { s with mem := Memory.write s.mem key bs
           cipher := whole.foldl (fun l x => removeNat x l) s.cipher
           poison := whole.foldl (fun l x => removeNat x l) s.poison
           sealed := whole.foldl (fun l x => Sparse.del l x) s.sealed }
/-- Memory with bytes written at a key by an agent that names no tensor. -/
def State.rawWrite (s : State) (key : Nat) (bs : List Byte) : State := (s.openLines none key bs.length).keyWrite key bs
/-- Memory with bytes written at a physical address of this panel. -/
def State.physWrite (s : State) (a : Nat) (bs : List Byte) : State := s.rawWrite (physKey s.panelId.toNat a) bs
def State.physWriteWord (s : State) (a : Nat) (w : Word) : State := s.physWrite a (bytesOfWord w)

/-- Write one line with its form bit and poison state (R207). -/
def State.keyWriteLine (s : State) (key : Nat) (bs : List Byte) (cipher poison : Bool) : State :=
  let l := key / 64
  { s with mem := Memory.write s.mem key bs
           cipher := if cipher then insertNat l s.cipher else removeNat l s.cipher
           poison := if poison then insertNat l s.poison else removeNat l s.poison
           sealed := Sparse.del s.sealed l }

/-- Whether a line of memory is ciphertext; whether it is poisoned, or stored under a slot whose key has been erased or whose epoch
has gone by (R207, R381). -/
def State.memCipher (s : State) (line : Nat) : Bool := s.cipher.contains line
def State.memPoison (s : State) (line : Nat) : Bool :=
  s.poison.contains line ||
  match Sparse.find s.sealed line with
  | some e => s.sealStale e
  | none => false

/-- What an agent outside the rows is to do is put in the order of its time. -/
def insertDeed (t : Nat) (e : Deed) : List (Nat × Deed) → List (Nat × Deed)
  | [] => [(t, e)]
  | a :: rest => if a.1 ≤ t then a :: insertDeed t e rest else (t, e) :: a :: rest
def State.schedule (s : State) (t : Nat) (e : Deed) : State := { s with agenda := insertDeed t e s.agenda }

/-- A vector is raised: on each host function whose MSI-X table enables it (R312); those raised are kept in order. -/
def State.raise (s : State) (v : Nat) : State :=
  { s with
    vectors := s.vectors ++ [v]
    interrupts := s.interrupts ++ ((List.finRange 4).filter fun h => (s.msix[h]).getLsbD v).map fun h => (h, v) }

/-- The sites of compute dies and junctions: the (dx, dy) of index i in a region whose first column is even or odd (R16). -/
def siteOffset (junction odd : Bool) (i : Nat) : Nat × Nat :=
  let y := i / 5 * 2 + (if i % 5 < 3 then 0 else 1)
  if junction == odd then
    (if i % 5 < 3 then i % 5 * 2 else (i % 5 - 3) * 2 + 1, y)
  else
    (match i % 5 with
      | 0 => (1, i / 5 * 2)
      | 1 => (3, i / 5 * 2)
      | 2 => (0, i / 5 * 2 + 1)
      | 3 => (2, i / 5 * 2 + 1)
      | _ => (4, i / 5 * 2 + 1))

/-- The site of compute die or junction `n` (R16). -/
def siteOf (junction : Bool) (n : Nat) : Nat × Nat :=
  let g := n / 10
  let o := siteOffset junction (5 * (g % 4) % 2 == 1) (n % 10)
  (5 * (g % 4) + o.1, 4 * (g / 4) + o.2)

/-- |dx| + |dy| of two sites (R294). -/
def siteDistance (p q : Nat × Nat) : Nat := (p.1 - q.1) + (q.1 - p.1) + ((p.2 - q.2) + (q.2 - p.2))

/-- The compute dies linked to a junction, ascending; the junctions linked to a die, ascending (R17). -/
def diesOfJunction (j : Nat) : List Nat := (List.range 160).filter fun d => siteDistance (siteOf false d) (siteOf true j) == 1
def junctionsOfDie (d : Nat) : List Nat := (List.range 160).filter fun j => siteDistance (siteOf false d) (siteOf true j) == 1

/-- Where an edge slot stands, and the site it faces (R18). -/
def slotPosition (n : Nat) : Int × Int :=
  if n < 20 then (n, -1) else if n < 36 then (20, n - 20) else if n < 56 then (55 - n, 16) else (-1, 71 - n)
def slotSite (n : Nat) : Nat × Nat :=
  if n < 20 then (n, 0) else if n < 36 then (19, n - 20) else if n < 56 then (55 - n, 15) else (0, 71 - n)

/-- The edge slots of siding die d, host die h, link die l and station die k (R18). -/
def sidingSlot (d : Nat) : Nat :=
  if d < 9 then 2 * d + 1 else if d < 16 then 2 * (d - 9) + 22 else if d < 25 then 2 * (d - 16) + 37 else 2 * (d - 25) + 58
def hostSlot (h : Nat) : Nat := if h = 0 then 0 else if h = 1 then 35 else if h = 2 then 36 else 71
def linkSlot (l : Nat) : Nat :=
  if l < 9 then 2 * l + 2 else if l < 16 then 2 * (l - 9) + 21 else if l < 25 then 2 * (l - 16) + 38 else 2 * (l - 25) + 57
def stationSlot (k : Nat) : Nat := if k = 0 then 19 else if k = 1 then 20 else if k = 2 then 55 else 56

/-- The edge dies a compute die and a junction link to, by slot: those outside its site; none inside the grid (R17, R18). -/
def edgesOfDie (d : Nat) : List Nat := (List.range 72).filter fun n => slotSite n == siteOf false d
def edgesOfJunction (j : Nat) : List Nat := (List.range 72).filter fun n => slotSite n == siteOf true j

/-- A compute die's links: to its junctions by their numbers, to edge dies by 160 + the slot (R17). -/
def linksOfDie (d : Nat) : List Nat := junctionsOfDie d ++ (edgesOfDie d).map (160 + ·)

/-- The slot of the link die that carries a Ngawen port (R18). -/
def portSlot (p : Nat) : Nat := linkSlot (p / 2)

/-! ## Results in flight and their landing (R58, R77, R78) -/

/-- Merge `new` over `old` where the byte mask is on. -/
def mergeBytes (old new : Vec) (mask : Pred) : Vec :=
  let m : Vec := BitVec.ofNat 1024 ((List.range 128).foldl (fun a i => if mask.getLsbD i then a + 255 * 2 ^ (8 * i) else a) 0)
  (old &&& ~~~ m) ||| (new &&& m)
/-- Merge `new` over `old` where the bit mask is on. -/
def mergeBits (old new mask : Pred) : Pred := (old &&& ~~~ mask) ||| (new &&& mask)
/-- Merge `new` over `old` where the element mask is on. -/
def mergeTile (old new : Tile) (mask : BitVec 256) : Tile :=
  let m : Tile := BitVec.ofNat 8192 ((List.range 256).foldl (fun a i => if mask.getLsbD i then a + 0xFFFFFFFF * 2 ^ (32 * i) else a) 0)
  (old &&& ~~~ m) ||| (new &&& m)

/-- A bit of a register of eight set to a value. -/
def setBit8 (m : BitVec 8) (t : TReg) (v : Bool) : BitVec 8 := if v then m ||| BitVec.twoPow 8 t.val else m &&& ~~~ BitVec.twoPow 8 t.val

/-- The first local-store byte of a tile's place in a bank's tile save area (R31). -/
def Bank.saveArea (b : Bank) (t : TReg) : Nat := b.winBase + b.tsave.toNat + 1024 * t.val

/-- Elements of a bank's tile are written: in the tile, which becomes dirty, while the bank owns it, else in the contents that the
other bank's touch has saved for it (R154).
(DEDUCED: log entry 44.) -/
def Core.landTile (c : Core) (b : Bank) (x : Side) (t : TReg) (v : Tile) (mask : BitVec 256) : Core :=
  if c.owner[t] == some x then
    { c with tiles := c.tiles.set t.val (mergeTile c.tiles[t] v mask)
             dirty := setBit8 c.dirty t true
             badT := if mask = BitVec.allOnes 256 then setBit8 c.badT t false else c.badT }
  else if (c.of x).saved.getLsbD t.val then
    c.lsWriteRuns ((List.range 256).filterMap fun e =>
      if mask.getLsbD e then some (b.saveArea t + 4 * e, bytesOfNat (v.toNat / 2 ^ (32 * e)) 4) else none)
  else c

/-- One result of a bank lands in a core (R77): s0, v31, s31 and q0 are never a destination (R62). A register written whole has no
uncorrectable error left (R365). (DEDUCED: log entry 133.) -/
def Core.land (c : Core) (k : Bank) (x : Side) (f : Flight) : Core :=
  let c := c.mod x fun b => { b with nflags := b.nflags ||| f.flags }
  match f.dest with
  | .none => c
  | .s r v => if r.val = 0 then c else c.mod x fun b => { b with s := b.s.set r.val v, badS := b.badS &&& ~~~ BitVec.twoPow 32 r.val }
  | .v r v m => c.mod x fun b =>
    { b with v := b.v.set r.val (mergeBytes b.v[r] v m)
             badV := if m = BitVec.allOnes 128 then b.badV &&& ~~~ BitVec.twoPow 32 r.val else b.badV }
  | .q r v m => c.mod x fun b =>
    { b with q := b.q.set r.val (mergeBits b.q[r] v m)
             badQ := if m = BitVec.allOnes 128 then b.badQ &&& ~~~ BitVec.twoPow 8 r.val else b.badQ }
  | .tile t v m => c.landTile k x t v m

/-- The results of a core that are due at issue cycle `n` land, in the order they were issued, so the later-issued is kept at a
collision (R78). -/
def Core.landDue (c : Core) (b : Bank) (x : Side) (n : Nat) : Core :=
  let fs := (c.of x).flights
  (fs.filter fun f => f.land ≤ n).foldl (fun k f => k.land b x f)
    (c.mod x fun b => { b with flights := fs.filter fun f => !decide (f.land ≤ n) })

/-- A bank's sequencer-side result lands; those of regions and of every core's %nflags are applied by `State.landSeq`. -/
def Bank.landSeq (b : Bank) : SeqDest → Bank
  | .k r x => { b with k := b.k.set r.val x, badK := b.badK &&& ~~~ BitVec.twoPow 16 r.val }
  | .chk x => { b with chk := x }
  | .deckle t x => { b with deckle := (b.deckle &&& ~~~ (0x3FF#80 <<< (10 * t.val))) ||| ((x.setWidth 80) <<< (10 * t.val)) }
  | .trapvec x => { b with trapvec := x }
  | .nflags _ | .istep _ | .barsel _ | .barmask _ => b

/-- The barrier mask's key: barrier id and die index (R298). -/
def maskKey (sel : BitVec 8) : Nat := (sel.toNat / 16) * 10 + sel.toNat % 16

/-- Write a barrier mask: a 0 for a row that holds no block of the launch that claims the id is ignored (R300). -/
def State.writeBarmask (s : State) (g : Fin 16) (id dieIx : Nat) (value : Word) : State :=
  let old := Sparse.get (s.regions[g]).masks 0 (id * 10 + dieIx)
  let absent := coreMask fun row =>
    let r := s.row ((g.val * 10 + dieIx) * 64 + row.val)
    let holds (b : Bank) : Bool := b.phase != .empty && b.info.cohort && b.info.barriers.getLsbD id
    let claimed := s.launches.any fun l => l.cohort && l.next != 0 && l.barriers.getLsbD id
    claimed && !(holds r.a || holds r.b)
  s.modRegion g fun rg => { rg with masks := Sparse.set rg.masks 0 (id * 10 + dieIx) (value ||| (old &&& absent)) }

/-- A sequencer-side result lands (R94, R216). -/
def State.landSeq (s : State) (n : Nat) (x : Side) (d : SeqDest) : State :=
  match d with
  | .nflags f => s.modRow n (·.mapBanks x fun _ b => { b with nflags := f })
  | .istep v => s.modRegion (regionOf n) fun g => { g with istep := v }
  | .barsel v => s.modRegion (regionOf n) fun g => { g with barsel := v }
  | .barmask v =>
    let g := s.regions[regionOf n]
    s.writeBarmask (regionOf n) (g.barsel.toNat / 16) (g.barsel.toNat % 16) v
  | .k _ _ | .chk _ | .deckle _ _ | .trapvec _ => s.modBank n x (·.landSeq d)

/-- Everything of a bank that is due at issue cycle `m` lands: sequencer results first, so that a %nflags write is replaced before the
flags of the same cycle are ORed in (R58), then votes, %fmt (R44) and every core's results. -/
def State.landAll (s : State) (n : Nat) (x : Side) (m : Nat) : State :=
  let b := s.bank n x
  let s := (b.seq.filter fun f => f.land ≤ m).foldl (fun s f => s.landSeq n x f.dest) s
  let s := s.modBank n x fun b =>
    { b with seq := b.seq.filter fun f => !decide (f.land ≤ m)
             k := (b.votes.filter fun v => v.ready ≤ m).foldl (fun k v => k.set v.reg.val v.value) b.k
             votes := b.votes.filter fun v => !decide (v.ready ≤ m)
             fmt := (b.fmtNext.filter fun p => p.1 ≤ m).foldl (fun _ p => p.2) b.fmt
             fmtNext := b.fmtNext.filter fun p => !decide (p.1 ≤ m) }
  s.modRow n fun r => r.mapCores fun _ c => c.landDue (r.bank x) x m

/-- One frozen cycle of a segment's drain: every register result in flight comes one cycle nearer, and those due land, in landing order.
No issue cycle passes, so %fmt keeps its shadow (R44, R78, R240).
(DEDUCED: log entry 33.) -/
def State.drainCycle (s : State) (n : Nat) (x : Side) : State :=
  let nearer (fs : List Flight) : List Flight := fs.map fun f => { f with land := f.land - 1 }
  let nearerSeq (fs : List SeqFlight) : List SeqFlight := fs.map fun f => { f with land := f.land - 1 }
  let s := s.modBank n x fun b =>
    { b with seq := nearerSeq b.seq
             votes := b.votes.map fun v => { v with ready := v.ready - 1 }
             segment := b.segment.map fun g => { g with entry := { g.entry with seq := nearerSeq g.entry.seq } } }
  let s := s.modRow n (·.mapBanks x fun _ b => { b with flights := nearer b.flights, ckF := nearer b.ckF })
  s.landAll n x (s.bank n x).cycle

/-! ## The skew line (R220, R228) -/

/-- What the skew line keeps of a core. -/
def Core.lineCore (c : Core) (x : Side) : LineCore :=
  let b := c.of x
  ⟨b.s, b.v, b.q, b.reel, b.nflags, b.flights, b.macc, b.mops, c.tiles, c.owner⟩

/-- The skew line of a bank. -/
def Row.line (r : Row) : Side → List LineEntry
  | .a => r.lineA
  | .b => r.lineB
def Row.setLine (r : Row) (x : Side) (l : List LineEntry) : Row :=
  match x with
  | .a => { r with lineA := l }
  | .b => { r with lineB := l }

/-- An issue cycle of a bank enters its skew line, with what the row held before it, and one that every core has executed leaves it; with
skew 0 there is none (R220).
(DEDUCED: log entry 16.) -/
def Row.stretch (r old : Row) (x : Side) (prior : List (Fin 64 × Nat × List Byte)) : Row :=
  let b := old.bank x
  if b.info.skew.val = 0 then r
  else r.setLine x (((r.line x).filter fun e => decide (b.cycle ≤ e.cycle + 63 * b.info.skew.val))
    ++ [⟨b.cycle, tab fun c => (old.cores[c]).lineCore x, prior⟩])

/-- How many cycles a core of a bank executes behind another: none behind itself or a higher one (R220). -/
def Bank.lag (b : Bank) (c t : Fin 64) : Nat := (t.val - c.val) * b.info.skew.val

/-- The bytes a line entry's bundle wrote over in a core's store hold a byte number. -/
def LineEntry.wrote (l : LineEntry) (t : Fin 64) (a : Nat) : Bool :=
  l.prior.any fun w => w.1 == t && w.2.1 ≤ a && a < w.2.1 + w.2.2.length

/-- The store of a core as another finds it in its own issue cycle `j`: what a core that lags has not executed by then in the skew line has
written nothing; a write of the same cycle is not yet seen (R179, R196, R220, R250).
(DEDUCED: log entry 16.) -/
def Row.storeAt (r : Row) (x : Side) (c t : Fin 64) (j : Nat) : Core :=
  if t.val ≤ c.val then r.cores[t]
  else
    let undo := (((r.line x).reverse.filter fun l => decide (j ≤ l.cycle + (r.bank x).lag c t)).flatMap fun l => l.prior.filter (·.1 == t))
    undo.foldl (fun k w => k.lsWriteRuns [(w.2.1, w.2.2)]) r.cores[t]

/-- What stood before the first bundle that a test finds ahead and that writes over a byte of a core is that byte's new value. -/
def patchLine (t : Fin 64) (ahead : LineEntry → Bool) (a : Nat) (v : Byte) : List LineEntry → List LineEntry
  | [] => []
  | l :: ls =>
    if ahead l && l.wrote t a then
      { l with prior := l.prior.map fun w =>
          if w.1 == t && w.2.1 ≤ a && a < w.2.1 + w.2.2.length then (w.1, w.2.1, w.2.2.set (a - w.2.1) v) else w } :: ls
    else l :: patchLine t ahead a v ls

/-- A core writes runs of bytes into a store of the row in its own issue cycle `j`. A byte that the store's core, lagging, writes later, by
a bundle the sequencer has issued already, keeps that write (R28, R179, R220, R250).
(DEDUCED: log entry 16.) -/
def Row.writeAt (r : Row) (x : Side) (c t : Fin 64) (j : Nat) (runs : List (Nat × List Byte)) : Row :=
  let ahead (l : LineEntry) : Bool := decide (c.val < t.val) && decide (j < l.cycle + (r.bank x).lag c t)
  let later (a : Nat) : Bool := (r.line x).any fun l => ahead l && l.wrote t a
  let bytes := runs.flatMap fun p => p.2.zipIdx.map fun b => (p.1 + b.2, b.1)
  let gone := bytes.filter fun b => later b.1
  if gone.isEmpty then { r with cores := r.cores.set t.val ((r.cores[t]).lsWriteRuns runs) }
  else
    let core := (r.cores[t]).lsWriteRuns ((bytes.filter fun b => !later b.1).map fun b => (b.1, [b.2]))
    ({ r with cores := r.cores.set t.val core } : Row).setLine x (gone.foldl (fun l b => patchLine t ahead b.1 b.2 l) (r.line x))

/-- A result enters flight in every core. -/
def Row.fly (r : Row) (x : Side) (f : Fin 64 → List Flight) : Row :=
  r.mapBanks x fun c b => { b with flights := b.flights ++ f c }

/-- A sequencer-side result enters flight with latency `l` (R90). -/
def State.flySeq (s : State) (n : Nat) (x : Side) (l : Nat) (d : SeqDest) : State :=
  s.modBank n x fun b => { b with seq := b.seq ++ [⟨b.cycle + l, d⟩] }

/-- The number of an engine's next operation of a bank, and the state with it taken (R108, R197). -/
def State.takeNumber (s : State) (n : Nat) (x : Side) (e : Fin 8) : Nat × State :=
  let k := (s.bank n x).numbers[e] + 1
  (k, s.modBank n x fun b => { b with numbers := b.numbers.set e.val k })

/-- A fresh id. -/
def State.fresh (s : State) : Nat × State := (s.nextId, { s with nextId := s.nextId + 1 })

/-- Put an operation among those that have issued and not performed; `delay` is given when a local-store port performs it (R250). -/
def State.submitDue (s : State) (n : Nat) (x : Side) (c : Fin 64) (delay : Option Nat) (op : PendOp) : State :=
  { s with nextId := s.nextId + 1
           pend := s.pend ++ [⟨s.nextId, n, x, c, (s.bank n x).cycle, delay.map (· + (s.bank n x).cycle), op, false, false⟩] }
def State.submit (s : State) (n : Nat) (x : Side) (c : Fin 64) (op : PendOp) : State := s.submitDue n x c none op

/-- Whether two errors are the same error of one engine operation. -/
def Posted.same (e p : Posted) : Bool := e.engine.isSome && e.engine == p.engine && e.trap == p.trap

/-- One operation's error as further cores meet it: every such core in the mask, the address of the lowest (R208, R231). -/
def Posted.join (e p : Posted) : Posted :=
  { e with mask := e.mask ||| p.mask
           address := if (p.mask &&& (0 - p.mask)).toNat < (e.mask &&& (0 - e.mask)).toNat then p.address else e.address }

/-- The errors posted to a bank with one more: an error its operation has posted already takes in the core.
(DEDUCED: log entry 132.) -/
def addPosted (l : List Posted) (p : Posted) : List Posted :=
  if l.any (·.same p) then l.map fun e => if e.same p then e.join p else e else l ++ [p]

/-- Post an error to a bank (R178, R208). -/
def State.post (s : State) (n : Nat) (x : Side) (p : Posted) : State :=
  s.modBank n x fun b => { b with posted := addPosted b.posted p }

/-- An engine operation has completed in a core: the counter reaches n only when every operation numbered ≤ n has (R197). The list
keeps the completed numbers above the counter; `fuel` bounds how many it can pass. -/
def advanceCounter (e : Fin 8) : Nat → List (Fin 8 × Nat) → Nat → Nat × List (Fin 8 × Nat)
  | 0, done, n => (n, done)
  | fuel + 1, done, n =>
    if done.contains (e, n + 1) then advanceCounter e fuel (done.filter (· != (e, n + 1))) (n + 1) else (n, done)

def CoreBank.completeOp (b : CoreBank) (e : Fin 8) (number : Nat) : CoreBank :=
  let r := advanceCounter e (b.doneOps.length + 1) ((e, number) :: b.doneOps) b.tl[e].toNat
  { b with tl := b.tl.set e.val (BitVec.ofNat 64 r.1), doneOps := r.2 }

/-! ## Loops (R99-R105) -/

/-- A body of `inc` bundles has gone by at the innermost loop: the position moves on, the loop passes back to its start, or it ends and
its whole body has gone by in the loop around it (R99, R101). Answers the running loops and the next pc. -/
def loopAdvance (inc : Nat) : List Frame → BitVec 15 → List Frame × BitVec 15
  | [], pc => ([], pc)
  | f :: fs, pc =>
    if f.pos + inc < f.len then ({ f with pos := f.pos + inc } :: fs, pc)
    else if f.pass + 1 < f.count then ({ f with pos := 0, pass := f.pass + 1 } :: fs, f.start)
    else loopAdvance f.len fs pc

/-- The step table once only `depth` loops run: the entries bound to an ended loop become inactive (R104). -/
def unbind (depth : Nat) (e : StepEntry) : StepEntry :=
  match e.bound with
  | some d => if d < depth then e else { fields := { e.fields with active := false }, bound := none }
  | none => e

/-- A step table changed entry by entry. -/
def mapSteps (v : Vector StepEntry 8) (f : StepEntry → StepEntry) : Vector StepEntry 8 :=
  tableOfFn fun i : Fin 8 => f v[i]

/-- The bank after one bundle of a body: loop-back and loop end, and the bindings that end (R99, R101, R104). -/
def Bank.passBundle (b : Bank) (next : BitVec 15) : Bank :=
  let r := loopAdvance 1 b.frames next
  { b with frames := r.1, pc := r.2, steps := mapSteps b.steps (unbind r.1.length) }

/-- The static offset of the current bundle in each running loop's body, innermost first (R104). -/
def staticOffsets : Nat → List Frame → List Nat
  | _, [] => []
  | inner, f :: fs => (f.pos + inner) :: staticOffsets (f.pos + inner) fs

/-! ## Taking a trap and returning from one (R231-R235, R239) -/

/-- The trap numbers (R232). -/
def Trap.number : Trap → Nat
  | .bundleLong => 0x01 | .bundleOrder => 0x02 | .illegalOp => 0x03 | .privOp => 0x04 | .vwidthOver => 0x05 | .bundleConflict => 0x06
  | .hazardII => 0x08 | .hazardShadow => 0x09 | .hazardWaw => 0x0A
  | .callOver => 0x10 | .callUnder => 0x11 | .loopCount => 0x12 | .loopDepth => 0x13 | .loopNest => 0x14 | .loopBranch => 0x15
  | .loopNone => 0x16 | .stepBusy => 0x17 | .waitAhead => 0x18 | .barFree => 0x19 | .permitHeld => 0x1A | .permitNone => 0x1B
  | .tileUnconf => 0x20 | .tileNosave => 0x21 | .tileRange => 0x22 | .reelUnconf => 0x23 | .reelMalformed => 0x24
  | .reelBusy => 0x25 | .fmtIllegal => 0x26
  | .lsRange => 0x30 | .lsAlign => 0x31 | .memAlign => 0x32 | .tensorId => 0x33 | .tensorRange => 0x34 | .tileMalformed => 0x35
  | .privRo => 0x36 | .privWr => 0x37 | .permFault => 0x38 | .ldqEmpty => 0x39 | .tagSlot => 0x3A
  | .lockSelf => 0x40 | .lockNotHeld => 0x41 | .syncMalformed => 0x42 | .rdvMismatch => 0x43
  | .sendTarget => 0x48 | .copyOverlap => 0x49 | .copySize => 0x4A | .cipherParam => 0x4B
  | .formFault => 0x50 | .sendRefused => 0x51 | .openAuth => 0x52 | .keySlot => 0x53 | .keyRevoked => 0x54 | .cipherPoison => 0x55
  | .handlerFault => 0x56
  | .bankState => 0x58 | .crValue => 0x59
  | .chkFail => 0x60 | .segLive => 0x61 | .ueConsumed => 0x62
  | .swTrap => 0x70
  | .doubleTrap => 0x7F

/-- The freeze cause codes (R223). -/
def Cause.code : Cause → Nat
  | .loadLate => 1 | .queueFull => 2 | .reelEmpty => 3 | .reelFull => 4 | .tileBusy => 5 | .channelFull => 6 | .tileSave => 7
  | .walk => 8 | .timeline => 9 | .phase => 10 | .lock => 11 | .barrier => 12 | .drain => 13 | .permit => 14 | .bankControl => 15

/-- A trap that is the same for the whole row: mask all ones, no address (R231). -/
def TrapInfo.row (t : Trap) : TrapInfo := ⟨t, 7, BitVec.allOnes 64, 0, 0, 0, 0, false, false⟩
/-- A trap of the cores in a mask, with the lowest one's address and coordinate operand (R231). -/
def TrapInfo.cores (t : Trap) (mask : BitVec 64) (address coord : Word) : TrapInfo := ⟨t, 7, mask, address, coord, 0, 0, false, false⟩

/-- The trap record's words 0-5 (R231): `pc` the trapped bundle's first syllable, `next` the bundle after it, `cycle` its issue cycle. -/
def trapRecord (t : TrapInfo) (number : Nat) (pc next : BitVec 15) (cycle : Nat) : Vector Word 6 :=
  ⟨#[BitVec.ofNat 64 (t.code.toNat * 2 ^ 48 + t.imprecise.toNat * 2 ^ 36 + t.posted.toNat * 2 ^ 35 + t.unit.val * 2 ^ 32
      + pc.toNat * 2 ^ 16 + number),
     t.mask, t.address, t.coord,
     BitVec.ofNat 64 (next.toNat * 2 ^ 32 + t.encoding.toNat),
     BitVec.ofNat 64 cycle], rfl⟩

/-- The bank's trap record written, with DOUBLE_TRAP in place of the number while a handler runs (R235). -/
def Bank.writeRecord (b : Bank) (t : TrapInfo) (pc next : BitVec 15) (cycle : Nat) : Bank :=
  { b with trapRec := trapRecord t (if b.handler then Trap.doubleTrap.number else t.trap.number) pc next cycle }

/-- The bank at its trap entry: loop state, call stack and step table saved and emptied, %bank bit 4 set, pc at the handler (R233). -/
def Bank.enterHandler (b : Bank) (pc next : BitVec 15) : Bank :=
  { b with handler := true
           savedCtl := some ⟨b.frames, b.calls, b.steps, pc, next⟩
           frames := []
           calls := []
           steps := Vector.replicate 8 StepEntry.reset
           pc := b.trapvec.setWidth 15
           frozen := none
           frozenFor := 0
           asked := false
           asking := none
           go := false
           answer := none
           request := none
           voteHeld := false
           retouch := false
           verdict := none }

/-- A failed bank: it issues nothing more (R235, R239). -/
def Bank.fail (b : Bank) : Bank :=
  { b with phase := .failed, frozen := none, frozenFor := 0, verdict := none, nopLeft := 0, heldLeft := 0, voteHeld := false
           waitLeft := 0, retouch := false, late := none }

/-- A launch learns that a block of its has failed, with the record (R235, R297). -/
def Launch.noteFailed (l : Launch) (blk : Nat) (record : Vector Word 6) : Launch :=
  { l with failed := l.failed + 1
           firstFail := match l.firstFail with
             | some (k, r) => if k < blk then some (k, r) else some (blk, record)
             | none => some (blk, record) }

/-- The error of a refused message: engine 6 with the send's operation number, the target word, the sending core (R208, R210, R231).
(DESIGN CHOICE: log entry 98.) -/
def Message.refusal (m : Message) (panel target : Nat) : Posted :=
  ⟨.sendRefused, some (6, m.number), BitVec.ofNat 64 (panel * 2 ^ 20 + target * 64 + m.core.val), BitVec.twoPow 64 m.fromCore.val⟩

/-- Refuse the messages a row has queued: SEND_REFUSED is posted to each sender on this panel (R239). -/
def State.refuseMessages (s : State) (n : Nat) (ms : List Message) : State :=
  ms.foldl (fun s m => if m.fromPanel = s.panelId then s.post m.fromRow m.fromSide (m.refusal s.panelId.toNat n) else s) s

/-- Taking a trap, the one operation every trap goes through (R231, R233, R235, R239). The record is written. In a bank that runs an
arrival handler the run ends and HANDLER_FAULT is posted to the arming bank; in a bank that runs a handler or has no trap entry the
block fails; otherwise the bank enters its handler.
(DEDUCED: log entry 26. DEDUCED: log entry 58.) -/
def State.takeTrap (s : State) (n : Nat) (x : Side) (t : TrapInfo) (pc next : BitVec 15) (cycle : Nat) : State :=
  let s := s.modBank n x (·.writeRecord t pc next cycle)
  let b := s.bank n x
  if b.armed.isSome then
    let queued := (s.row n).arrivals
    let s := s.modRow n fun r => { (r.modBank x Bank.fail) with arrivals := [] }
    let s := s.refuseMessages n queued
    s.post n (b.armer.getD (otherSide x)) ⟨.handlerFault, none, 0, BitVec.allOnes 64⟩
  else if b.handler || !b.trapvec.getLsbD 15 then
    let s := s.modBank n x Bank.fail
    { s with launches := s.launches.map fun l =>
        if l.id = b.info.launch then l.noteFailed b.info.blk.toNat (s.bank n x).trapRec else l }
  else s.modBank n x (·.enterHandler pc next)

/-- The return from a trap (R234): loop state, call stack and step table restored and %bank bit 4 cleared; without `skip` the bank
resumes at the trapped bundle in the same pass, with it as after that bundle had issued with no effect. -/
def Bank.returnFromTrap (b : Bank) (skip : Bool) : Bank :=
  match b.savedCtl with
  | none => { b with handler := false }
  | some c =>
    let b := { b with handler := false, savedCtl := none, frames := c.frames, calls := c.calls, steps := c.steps, pc := c.pc }
    if skip then b.passBundle c.next else b

end Sys2Proof.Machine
end

