-- ==== Sys2Proof/Machine/Flags.lean ====
section
/-! DEFINITION. The numerical flags of %nflags (R57), and every flag computation the spec gives: which flags a rounding, an overflow,
an invalid operation and a clamp raise (R50-R56). -/

namespace Sys2Proof.Machine

/-- Invalid: bit 0 (R57). -/
def Flags.nv : Flags := 1
/-- Overflow: bit 1. -/
def Flags.of : Flags := 2
/-- Underflow: bit 2. -/
def Flags.uf : Flags := 4
/-- Inexact: bit 3. -/
def Flags.nx : Flags := 8
/-- Q4X escape collision: bit 4. -/
def Flags.ec : Flags := 16
/-- Saturation: bit 5. -/
def Flags.sat : Flags := 32

/-- A flag where a condition holds. -/
def Flags.when (b : Bool) (f : Flags) : Flags := if b then f else 0

/-- A floating format: fraction bits, bias, the exponent field that is all ones, and whether it has infinities (R36). -/
structure Fmt where
  width : Nat
  frac  : Nat
  bias  : Nat
  top   : Nat
  inf   : Bool
deriving DecidableEq, Repr

def Fmt.fp32 : Fmt := ⟨32, 23, 127, 255, true⟩
def Fmt.bf16 : Fmt := ⟨16, 7, 127, 255, true⟩
def Fmt.e5m2 : Fmt := ⟨8, 2, 15, 31, true⟩
def Fmt.e4m3 : Fmt := ⟨8, 3, 7, 15, false⟩

/-- The exponent of the smallest normal magnitude. -/
def Fmt.emin (f : Fmt) : Int := 1 - (f.bias : Int)
/-- The canonical NaN (R37). -/
def Fmt.nan (f : Fmt) : Nat := if f.inf then f.top * 2 ^ f.frac + 2 ^ (f.frac - 1) else f.top * 2 ^ f.frac + (2 ^ f.frac - 1)
/-- The encoding of the sign bit. -/
def Fmt.sign (f : Fmt) (neg : Bool) : Nat := if neg then 2 ^ (f.width - 1) else 0
/-- The infinity of a sign; for a format without one, its canonical NaN whatever the sign (R55). -/
def Fmt.infinity (f : Fmt) (neg : Bool) : Nat := if f.inf then f.sign neg + f.top * 2 ^ f.frac else f.nan
/-- The largest finite magnitude's encoding (R36). -/
def Fmt.maxFinite (f : Fmt) : Nat := if f.inf then f.top * 2 ^ f.frac - 1 else f.top * 2 ^ f.frac + (2 ^ f.frac - 2)

/-- What an encoding stands for: a NaN, signalling or not, an infinity, or the value (-1)^neg m 2^e (R36, R37). -/
inductive Num where
  | nan (signalling : Bool)
  | inf (neg : Bool)
  | fin (neg : Bool) (m : Nat) (e : Int)
deriving DecidableEq, Repr

/-- The value of an encoding (R36); e4m3 and e5m2 NaNs are quiet, an fp32 or bf16 NaN is signalling when its most significant fraction
bit is 0 (R37). -/
def Fmt.value (f : Fmt) (x : Nat) : Num :=
  let neg := x / 2 ^ (f.width - 1) % 2 == 1
  let e := x / 2 ^ f.frac % (f.top + 1)
  let m := x % 2 ^ f.frac
  if f.inf && e == f.top then
    if m = 0 then .inf neg else .nan (f.width > 8 && m < 2 ^ (f.frac - 1))
  else if !f.inf && e == f.top && m == 2 ^ f.frac - 1 then .nan false
  else if e = 0 then .fin neg m (f.emin - f.frac)
  else .fin neg (m + 2 ^ f.frac) ((e : Int) - f.bias - f.frac)

/-- Whether an encoding is a signalling NaN (R37). -/
def Fmt.isSnan (f : Fmt) (x : Nat) : Bool := f.value x == .nan true
/-- Whether an encoding is a NaN. -/
def Fmt.isNan (f : Fmt) (x : Nat) : Bool :=
  match f.value x with
  | .nan _ => true
  | _ => false

/-- The magnitude (m + t) 2^e, with 0 ≤ t < 1 and t ≠ 0 exactly where `more` is set, rounded to a multiple of 2^q: the multiple, and
whether it is inexact (R54). -/
def roundAt (mode : RMode) (neg : Bool) (m : Nat) (e : Int) (more : Bool) (q : Int) : Nat × Bool :=
  if q ≤ e then (m * 2 ^ (e - q).toNat, more)
  else
    let sh := (q - e).toNat
    let n := m / 2 ^ sh
    let rest := m % 2 ^ sh
    let inexact := rest != 0 || more
    let half := 2 ^ (sh - 1)
    let up := match mode with
      | .rne => rest > half || (rest == half && (more || n % 2 == 1))
      | .rz => false
      | .ru => inexact && !neg
      | .rd => inexact && neg
    (if up then n + 1 else n, inexact)

/-- The spacing of a format at a magnitude of about 2^E: its precision, or the subnormal spacing where `bounded` (R54). -/
def Fmt.spacing (f : Fmt) (top : Int) (bounded : Bool) : Int :=
  let q := top - f.frac
  let least := f.emin - f.frac
  if bounded && q < least then least else q

/-- Whether n 2^q lies below the smallest normal magnitude. -/
def Fmt.tiny (f : Fmt) (n : Nat) (q : Int) : Bool :=
  if q ≤ f.emin then n < 2 ^ (f.emin - q).toNat else n == 0

/-- Whether n 2^q, n nonzero, exceeds the largest finite magnitude. -/
def Fmt.tooBig (f : Fmt) (n : Nat) (q : Int) : Bool :=
  let maxM := f.maxFinite % 2 ^ f.frac + 2 ^ f.frac
  let maxE := ((f.maxFinite / 2 ^ f.frac : Nat) : Int) - f.bias - f.frac
  if q ≤ maxE then n > maxM * 2 ^ (maxE - q).toNat else n * 2 ^ (q - maxE).toNat > maxM

/-- The encoding of (-1)^neg n 2^q, a value of the format. -/
def Fmt.encode (f : Fmt) (neg : Bool) (n : Nat) (q : Int) : Nat :=
  let p := if n ≥ 2 ^ (f.frac + 1) then (n / 2, q + 1) else (n, q)
  f.sign neg + if p.1 < 2 ^ f.frac then p.1 else ((p.2 + f.frac + f.bias).toNat) * 2 ^ f.frac + (p.1 - 2 ^ f.frac)

/-- Whether a nonzero value is tiny after rounding to the format's significant bits with unbounded exponent (R50). -/
def Fmt.underflows (f : Fmt) (mode : RMode) (neg : Bool) (m : Nat) (e : Int) (more : Bool) : Bool :=
  if m = 0 then more
  else
    let q := f.spacing ((Nat.log2 m : Int) + e) false
    let r := roundAt mode neg m e more q
    f.tiny r.1 q

/-- roundfp (R51, R54, R55, R89): an exact value (-1)^neg (m + t) 2^e rounded to the format in a mode, with its flags: nx where
inexact, uf where tiny and inexact, of and nx where it overflows, sat and nx in the saturating form. -/
def Fmt.round (f : Fmt) (mode : RMode) (saturate : Bool) (neg : Bool) (m : Nat) (e : Int) (more : Bool) : Nat × Flags :=
  if m = 0 && !more then (f.sign neg, 0)
  else
    let top := (Nat.log2 m : Int) + e
    let q := f.spacing top true
    let r := roundAt mode neg m e more q
    if f.tooBig r.1 q then
      if saturate then (f.sign neg + f.maxFinite, Flags.sat ||| Flags.nx) else (f.infinity neg, Flags.of ||| Flags.nx)
    else
      (f.encode neg r.1 q, Flags.when r.2 Flags.nx ||| Flags.when (r.2 && f.underflows mode neg m e more) Flags.uf)

/-- nv for each signalling NaN among operands (R37). -/
def snanFlag (f : Fmt) (xs : List Nat) : Flags := Flags.when (xs.any f.isSnan) Flags.nv

end Sys2Proof.Machine
end

