-- ==== Sys2Proof/Machine/Numbers.lean ====
section
/-! DEFINITION. Exact arithmetic on the number formats: vector floating arithmetic, minimum and maximum, the special functions, the
conversions, Q4X and the mma step (R40, R41, R47-R56). -/

namespace Sys2Proof.Machine

/-- The exact sum of two signed dyadic values, as a signed integer times a power of two. -/
def addExact (n1 : Bool) (m1 : Nat) (e1 : Int) (n2 : Bool) (m2 : Nat) (e2 : Int) : Int × Int :=
  let e := if e1 ≤ e2 then e1 else e2
  let a : Int := (m1 * 2 ^ (e1 - e).toNat : Nat)
  let b : Int := (m2 * 2 ^ (e2 - e).toNat : Nat)
  ((if n1 then -a else a) + (if n2 then -b else b), e)

/-- Round the exact value x 2^e; an exact zero takes the sign `zneg`. -/
def Fmt.roundInt2 (f : Fmt) (mode : RMode) (x : Int) (e : Int) (zneg : Bool) : Nat × Flags :=
  if x = 0 then (f.sign zneg, 0) else f.round mode false (x < 0) x.natAbs e false

/-- x + y, with `flip` x - y, rounded once (R51). -/
def fAdd (f : Fmt) (flip : Bool) (a b : Nat) : Nat × Flags :=
  let sn := snanFlag f [a, b]
  match f.value a, f.value b with
  | .nan _, _ => (f.nan, sn)
  | _, .nan _ => (f.nan, sn)
  | .inf n1, .inf n2 => if n1 == (n2 != flip) then (f.infinity n1, 0) else (f.nan, Flags.nv)
  | .inf n1, .fin _ _ _ => (f.infinity n1, 0)
  | .fin _ _ _, .inf n2 => (f.infinity (n2 != flip), 0)
  | .fin n1 m1 e1, .fin n2 m2 e2 =>
    let n2 := n2 != flip
    let r := addExact n1 m1 e1 n2 m2 e2
    f.roundInt2 .rne r.1 r.2 (n1 && n2)

/-- x y, rounded once (R51). -/
def fMul (f : Fmt) (a b : Nat) : Nat × Flags :=
  let sn := snanFlag f [a, b]
  match f.value a, f.value b with
  | .nan _, _ => (f.nan, sn)
  | _, .nan _ => (f.nan, sn)
  | .inf n1, .inf n2 => (f.infinity (n1 != n2), 0)
  | .inf n1, .fin n2 m2 _ => if m2 = 0 then (f.nan, Flags.nv) else (f.infinity (n1 != n2), 0)
  | .fin n1 m1 _, .inf n2 => if m1 = 0 then (f.nan, Flags.nv) else (f.infinity (n1 != n2), 0)
  | .fin n1 m1 e1, .fin n2 m2 e2 => f.round .rne false (n1 != n2) (m1 * m2) (e1 + e2) false

/-- x y + z, with `flip` z - x y, rounded once (R51, R134).
(DESIGN CHOICE: log entry 121.) -/
def fMulAdd (f : Fmt) (flip : Bool) (a b c : Nat) : Nat × Flags :=
  let sn := snanFlag f [a, b, c]
  let addend (pneg : Bool) : Nat × Flags :=
    match f.value c with
    | .inf n => if n == pneg then (f.infinity n, sn) else (f.nan, Flags.nv)
    | .nan _ => (f.nan, sn)
    | .fin _ _ _ => (f.infinity pneg, 0)
  match f.value a, f.value b with
  | .nan _, _ => (f.nan, sn)
  | _, .nan _ => (f.nan, sn)
  | .inf n1, .inf n2 => addend ((n1 != n2) != flip)
  | .inf n1, .fin n2 m2 _ => if m2 = 0 then (f.nan, Flags.nv ||| sn) else addend ((n1 != n2) != flip)
  | .fin n1 m1 _, .inf n2 => if m1 = 0 then (f.nan, Flags.nv ||| sn) else addend ((n1 != n2) != flip)
  | .fin n1 m1 e1, .fin n2 m2 e2 =>
    match f.value c with
    | .nan _ => (f.nan, sn)
    | .inf n => (f.infinity n, 0)
    | .fin n3 m3 e3 =>
      let p := (n1 != n2) != flip
      let r := addExact p (m1 * m2) (e1 + e2) n3 m3 e3
      f.roundInt2 .rne r.1 r.2 (p && n3)

/-- The order of two non-NaN values: -0 below +0 (R52). -/
def numLe : Num → Num → Bool
  | .inf n, .inf n' => n || !n'
  | .inf n, .fin _ _ _ => n
  | .fin _ _ _, .inf n => !n
  | .fin n1 m1 e1, .fin n2 m2 e2 =>
    let r := addExact n1 m1 e1 (!n2) m2 e2
    if r.1 = 0 then n1 || !n2 else r.1 < 0
  | .nan _, _ => false
  | _, .nan _ => false

/-- vfmin (greater = false) or vfmax (R52). -/
def fMinMax (f : Fmt) (greater : Bool) (a b : Nat) : Nat × Flags :=
  let sn := snanFlag f [a, b]
  match f.value a, f.value b with
  | .nan _, .nan _ => (f.nan, sn)
  | .nan _, _ => (b, sn)
  | _, .nan _ => (a, sn)
  | x, y => (if numLe x y != greater then a else b, sn)

/-- vfabs (R134). -/
def fAbs (f : Fmt) (a : Nat) : Nat × Flags :=
  if f.isNan a then (f.nan, snanFlag f [a]) else (a % 2 ^ (f.width - 1), 0)
/-- vfneg (R134). -/
def fNeg (f : Fmt) (a : Nat) : Nat × Flags :=
  if f.isNan a then (f.nan, snanFlag f [a]) else ((a + 2 ^ (f.width - 1)) % 2 ^ f.width, 0)

/-- Numeric equality and order of a compare: -0 and +0 are equal (R137). -/
def numEq : Num → Num → Bool
  | .inf n, .inf n' => n == n'
  | .fin n1 m1 e1, .fin n2 m2 e2 => (addExact n1 m1 e1 (!n2) m2 e2).1 == 0
  | _, _ => false
def numLt (x y : Num) : Bool := numLe x y && !numEq x y

/-- vfcmp: the outcome and nv (R137). -/
def fCompare (f : Fmt) (c : FCond) (a b : Nat) : Bool × Flags :=
  let x := f.value a
  let y := f.value b
  let nan := f.isNan a || f.isNan b
  let sn := snanFlag f [a, b]
  match c with
  | .eq => (!nan && numEq x y, sn)
  | .ne => (nan || !numEq x y, sn)
  | .lt => (!nan && numLt x y, Flags.when nan Flags.nv)
  | .le => (!nan && (numLt x y || numEq x y), Flags.when nan Flags.nv)
  | .un => (nan, sn)

/-! ## Special functions (R53): each magnitude is formed as (m + t) 2^e with far more bits than any format keeps. -/

/-- The integer square root by bits, from bit `n` down. -/
def isqrtFrom (x : Nat) : Nat → Nat → Nat
  | 0, r => r
  | n + 1, r => let r' := r + 2 ^ n; isqrtFrom x n (if r' * r' ≤ x then r' else r)
def isqrt (x : Nat) : Nat := isqrtFrom x (Nat.log2 x / 2 + 1) 0

/-- The bits kept of an irrational value. -/
def fxBits : Nat := 320

/-- 2 (z + z^3/3 + z^5/5 + ...), z = num/den, in units of 2^-fxBits: twice the inverse hyperbolic tangent. -/
def atanh2Terms (z2 : Nat) : Nat → Nat → Nat → Nat → Nat
  | 0, _, _, acc => acc
  | n + 1, k, p, acc => atanh2Terms z2 n (k + 2) (p * z2 / 2 ^ fxBits) (acc + p / k)
def atanh2 (num den : Nat) : Nat :=
  let z := num * 2 ^ fxBits / den
  2 * atanh2Terms (z * z / 2 ^ fxBits) 130 1 z 0

/-- ln 2 in units of 2^-fxBits. -/
def ln2 : Nat := atanh2 1 3

/-- The exponential series: y^k/k!, in units of 2^-fxBits. -/
def expTerms (y : Nat) : Nat → Nat → Nat → Nat → Nat
  | 0, _, _, acc => acc
  | n + 1, k, p, acc => expTerms y n (k + 1) (p * y / 2 ^ fxBits / k) (acc + p)
/-- 2^f for 0 ≤ f < 1 in units of 2^-fxBits.
(DESIGN CHOICE: log entry 25.) -/
def exp2Fx (fr : Nat) : Nat := expTerms (fr * ln2 / 2 ^ fxBits) 90 1 (2 ^ fxBits) 0

/-- The floor and the fraction (in units of 2^-fxBits) of x 2^e, and whether the fraction is exactly 0. -/
def splitFx (neg : Bool) (m : Nat) (e : Int) : Int × Nat × Bool :=
  if e ≥ 0 then (let v : Int := (m * 2 ^ e.toNat : Nat); if neg then -v else v, 0, true)
  else
    let k := (-e).toNat
    let w : Int := (m / 2 ^ k : Nat)
    let r := m % 2 ^ k
    if r = 0 then (if neg then -w else w, 0, true)
    else
      let fr := r * 2 ^ fxBits / 2 ^ k
      if neg then (-w - 1, 2 ^ fxBits - fr, false) else (w, fr, false)

/-- vexp2 (R53). Beyond ±2^20 the result overflows, or rounds below the least subnormal, as at the bound itself. -/
def fExp2 (f : Fmt) (a : Nat) : Nat × Flags :=
  match f.value a with
  | .nan _ => (f.nan, snanFlag f [a])
  | .inf true => (0, 0)
  | .inf false => (f.infinity false, 0)
  | .fin neg m e =>
    if m = 0 then f.round .rne false false 1 0 false
    else if (Nat.log2 m : Int) + e ≥ 20 then f.round .rne false false 1 (if neg then -1048576 else 1048576) false
    else
      match splitFx neg m e with
      | (n, _, true) => f.round .rne false false 1 n false
      | (n, fr, false) => f.round .rne false false (exp2Fx fr) (n - fxBits) true

/-- vlog2 (R53). -/
def fLog2 (f : Fmt) (a : Nat) : Nat × Flags :=
  match f.value a with
  | .nan _ => (f.nan, snanFlag f [a])
  | .inf true => (f.nan, Flags.nv)
  | .inf false => (f.infinity false, 0)
  | .fin neg m e =>
    if m = 0 then (f.infinity true, 0)
    else if neg then (f.nan, Flags.nv)
    else
      let l := Nat.log2 m
      let n : Int := l + e
      if m = 2 ^ l then f.round .rne false (n < 0) n.natAbs 0 false
      else
        let g := atanh2 (m - 2 ^ l) (m + 2 ^ l) * 2 ^ fxBits / ln2
        if n ≥ 0 then f.round .rne false false (n.toNat * 2 ^ fxBits + g) (-(fxBits : Int)) true
        else f.round .rne false true ((-n).toNat * 2 ^ fxBits - g - 1) (-(fxBits : Int)) true

/-- vrcp (R53). -/
def fRcp (f : Fmt) (a : Nat) : Nat × Flags :=
  match f.value a with
  | .nan _ => (f.nan, snanFlag f [a])
  | .inf neg => (f.sign neg, 0)
  | .fin neg m e =>
    if m = 0 then (f.infinity neg, 0)
    else
      let k := 64 + Nat.log2 m
      f.round .rne false neg (2 ^ k / m) (-e - k) (2 ^ k % m != 0)

/-- vrsqrt (R53): of -0 it is -infinity, of +0 +infinity. -/
def fRsqrt (f : Fmt) (a : Nat) : Nat × Flags :=
  match f.value a with
  | .nan _ => (f.nan, snanFlag f [a])
  | .inf true => (f.nan, Flags.nv)
  | .inf false => (0, 0)
  | .fin neg m e =>
    if m = 0 then (f.infinity neg, 0)
    else if neg then (f.nan, Flags.nv)
    else
      let p := if e % 2 = 0 then (m, e) else (m * 2, e - 1)
      let k := 80 + Nat.log2 p.1
      let q := isqrt (2 ^ (2 * k) / p.1)
      f.round .rne false false q (-(p.2 / 2) - k) (q * q * p.1 != 2 ^ (2 * k))

/-! ## Conversions (R54-R56, R140) -/

/-- roundint: an exact value rounded to an integer of `n` bits, signed or not, in a mode (R54, R56). -/
def roundInt (signed : Bool) (n : Nat) (mode : RMode) (saturate : Bool) : Num → Nat × Flags
  | .nan _ => (0, Flags.nv)
  | .inf neg =>
    if saturate then
      (if signed then (if neg then 2 ^ (n - 1) else 2 ^ (n - 1) - 1) else (if neg then 0 else 2 ^ n - 1), Flags.sat)
    else (0, Flags.nv)
  | .fin neg m e =>
    let r := roundAt mode neg m e false 0
    let x : Int := if neg then -(r.1 : Int) else r.1
    let nx := Flags.when r.2 Flags.nx
    let c := if signed then satsigned x n else satunsigned x n
    if c.2 then (if saturate then (wrap c.1 n, Flags.sat ||| nx) else (wrap x n, Flags.nv ||| nx)) else (wrap x n, nx)

/-- A conversion between floating formats, or from a floating format's value (R54, R55). -/
def fConvert (dst : Fmt) (mode : RMode) (saturate : Bool) (src : Fmt) (a : Nat) : Nat × Flags :=
  match src.value a with
  | .nan _ => (dst.nan, snanFlag src [a])
  | .inf neg =>
    if dst.inf then (dst.infinity neg, 0)
    else if saturate then (dst.sign neg + dst.maxFinite, Flags.sat)
    else (dst.nan, Flags.nv)
  | .fin neg m e => dst.round mode saturate neg m e false

/-- An integer's value rounded to a floating format (R54). -/
def intConvert (dst : Fmt) (mode : RMode) (x : Int) : Nat × Flags := dst.round mode true (x < 0) x.natAbs 0 false

/-- Integer narrowing: the saturating form clamps and raises sat, the other keeps the low bits (R56). -/
def narrow (signed : Bool) (n : Nat) (saturate : Bool) (x : Int) : Nat × Flags :=
  let c := if signed then satsigned x n else satunsigned x n
  if saturate then (wrap c.1 n, Flags.when c.2 Flags.sat) else (wrap x n, 0)

/-- The source width, destination width and conversion of a vcvt code (R140); the function takes the mode and the element. -/
def cvtSpec (c : Fin 32) : Nat × Nat × (RMode → Nat → Nat × Flags) :=
  match c.val with
  | 0 => (16, 32, fun m x => fConvert .fp32 m true .bf16 x)
  | 1 => (8, 32, fun m x => fConvert .fp32 m true .e4m3 x)
  | 2 => (8, 32, fun m x => fConvert .fp32 m true .e5m2 x)
  | 3 => (32, 16, fun m x => fConvert .bf16 m true .fp32 x)
  | 4 => (32, 16, fun m x => fConvert .bf16 m false .fp32 x)
  | 5 => (32, 8, fun m x => fConvert .e4m3 m true .fp32 x)
  | 6 => (32, 8, fun m x => fConvert .e4m3 m false .fp32 x)
  | 7 => (32, 8, fun m x => fConvert .e5m2 m true .fp32 x)
  | 8 => (32, 8, fun m x => fConvert .e5m2 m false .fp32 x)
  | 9 => (32, 32, fun m x => intConvert .fp32 m (signext x 32))
  | 10 => (32, 32, fun m x => roundInt true 32 m true (Fmt.fp32.value x))
  | 11 => (32, 32, fun m x => roundInt true 32 m false (Fmt.fp32.value x))
  | 12 => (8, 32, fun m x => intConvert .fp32 m (signext x 8))
  | 13 => (32, 8, fun m x => roundInt true 8 m true (Fmt.fp32.value x))
  | 14 => (32, 8, fun m x => roundInt true 8 m false (Fmt.fp32.value x))
  | 15 => (8, 32, fun m x => intConvert .fp32 m (x % 256 : Nat))
  | 16 => (32, 8, fun m x => roundInt false 8 m true (Fmt.fp32.value x))
  | 17 => (32, 8, fun m x => roundInt false 8 m false (Fmt.fp32.value x))
  | 18 => (16, 32, fun m x => intConvert .fp32 m (signext x 16))
  | 19 => (32, 16, fun m x => roundInt true 16 m true (Fmt.fp32.value x))
  | 20 => (32, 16, fun m x => roundInt true 16 m false (Fmt.fp32.value x))
  | 21 => (8, 32, fun _ x => (wrap (signext x 8) 32, 0))
  | 22 => (8, 32, fun _ x => (x % 256, 0))
  | 23 => (16, 32, fun _ x => (wrap (signext x 16) 32, 0))
  | 24 => (32, 8, fun _ x => narrow true 8 true (signext x 32))
  | 25 => (32, 8, fun _ x => narrow true 8 false (signext x 32))
  | 26 => (32, 8, fun _ x => narrow false 8 true (signext x 32))
  | 27 => (32, 8, fun _ x => narrow false 8 false (signext x 32))
  | 28 => (32, 16, fun _ x => narrow true 16 true (signext x 32))
  | 29 => (32, 16, fun _ x => narrow true 16 false (signext x 32))
  | 30 => (32, 64, fun _ x => (wrap (signext x 32) 64, 0))
  | _ => (64, 32, fun _ x => narrow true 32 true (signext x 64))

/-! ## Q4X (R40, R41) -/

/-- A nibble other than 0b1000 as an integer. -/
def nib (n : Nat) : Int := if n < 8 then n else (n : Int) - 16

/-- An escaped element: (-1)^n[3] 2^(X-7) (1 + n[2:0]/8). -/
def escaped (n x : Nat) : Num := .fin (n / 8 % 2 == 1) (8 + n % 8) ((x : Int) - 10)

/-- The value of a plain nibble. -/
def plain (n : Nat) : Num := .fin (nib n < 0) (nib n).natAbs 0

/-- The two elements of a Q4X byte under an outlier exponent, and whether the byte is 0x88 (R40, R41). -/
def q4xPair (b x : Nat) : Num × Num × Bool :=
  let lo := b % 16
  let hi := b / 16 % 16
  if lo ≠ 8 ∧ hi ≠ 8 then (plain lo, plain hi, false)
  else if lo = 8 ∧ hi ≠ 8 then (escaped hi x, .fin false 0 0, false)
  else if lo ≠ 8 then (.fin false 0 0, escaped lo x, false)
  else (.fin false 0 0, .fin false 0 0, true)

/-! ## One mma step (R43, R46-R50) -/

/-- The operand classes of an mma (R43). -/
inductive MmaClass where
  | bf16
  | fp8
  | integer
  | q4x
deriving DecidableEq, Repr

/-- The class of a format code; 6-15 are reserved (R43). -/
def mmaClass : Nat → Option MmaClass
  | 0 => some .bf16
  | 1 => some .fp8
  | 2 => some .fp8
  | 3 => some .integer
  | 4 => some .integer
  | 5 => some .q4x
  | _ => none

/-- The class an mma has under %fmt, none when the pair is illegal (R43). -/
def fmtClass (fmt : BitVec 32) : Option MmaClass :=
  match mmaClass (fmt.toNat % 16), mmaClass (fmt.toNat / 16 % 16) with
  | some a, some b => if a = b then some a else none
  | _, _ => none

/-- The K elements of row or column `r` (bytes 32r to 32r + 31) of a 512-byte reel entry, in format `code` with outlier exponent `x`
(R46). -/
def mmaOperand (code x : Nat) (entry : BitVec 4096) (r : Nat) : List Num :=
  let bytes := entry.toNat / 2 ^ (256 * r) % 2 ^ 256
  let byte (k : Nat) : Nat := bytes / 2 ^ (8 * k) % 256
  match code with
  | 0 => (List.range 16).map fun k => Fmt.bf16.value (bytes / 2 ^ (16 * k) % 65536)
  | 1 => (List.range 32).map fun k => Fmt.e4m3.value (byte k)
  | 2 => (List.range 32).map fun k => Fmt.e5m2.value (byte k)
  | 3 => (List.range 32).map fun k => .fin (signext (byte k) 8 < 0) (signext (byte k) 8).natAbs 0
  | 4 => (List.range 32).map fun k => .fin false (byte k) 0
  | _ => (List.range 32).flatMap fun k => let p := q4xPair (byte k) x; [p.1, p.2.1]

/-- Whether an entry of format q4x holds a byte 0x88 (R50). -/
def hasCollision (code : Nat) (entry : BitVec 4096) : Bool :=
  code == 5 && (List.range 512).any fun k => entry.toNat / 2 ^ (8 * k) % 256 == 0x88

/-- A product of an mma, exact: both infinite or zero cases of R48 are told apart. -/
inductive Prod where
  | invalid
  | inf (neg : Bool)
  | fin (neg : Bool) (m : Nat) (e : Int)
deriving DecidableEq, Repr

def Num.times : Num → Num → Prod
  | .inf n, .inf n' => .inf (n != n')
  | .inf n, .fin n' m _ => if m = 0 then .invalid else .inf (n != n')
  | .fin n m _, .inf n' => if m = 0 then .invalid else .inf (n != n')
  | .fin n m e, .fin n' m' e' => .fin (n != n') (m * m') (e + e')
  | _, _ => .invalid

/-- Truncate a term toward zero to a multiple of 2^q; and whether it dropped a nonzero bit. -/
def truncTerm (q : Int) (neg : Bool) (m : Nat) (e : Int) : (Bool × Nat × Int) × Bool :=
  if e ≥ q then ((neg, m, e), false)
  else let sh := (q - e).toNat; ((neg, m / 2 ^ sh, q), m % 2 ^ sh != 0)

/-- The exact sum of signed terms, over the least exponent among them. -/
def sumTerms (ts : List (Bool × Nat × Int)) : Int × Int :=
  let e := ts.foldl (fun e t => if t.2.2 < e then t.2.2 else e) 0
  (ts.foldl (fun s t => let v : Int := (t.2.1 * 2 ^ (t.2.2 - e).toNat : Nat); if t.1 then s - v else s + v) 0, e)

/-- floor(log2) of a term's magnitude. -/
def termTop (m : Nat) (e : Int) : Int := (Nat.log2 m : Int) + e

/-- One accumulator element of a floating-class step (R47, R48, R50): the accumulator's fp32 encoding, the two operand lists, the class
and the scale exponent ascale + bscale - 254.
(DEDUCED: log entry 28.) -/
def mmaElement (cls : MmaClass) (scale : Int) (c : Nat) (as bs : List Num) : Nat × Flags :=
  let f := Fmt.fp32
  let isNan : Num → Bool := fun x => match x with
    | .nan _ => true
    | _ => false
  if f.isNan c || as.any isNan || bs.any isNan then
    (f.nan, Flags.when (f.isSnan c || as.any (· == .nan true) || bs.any (· == .nan true)) Flags.nv)
  else
    let ps := List.zipWith Num.times as bs
    let pos := ps.any (· == .inf false)
    let neg := ps.any (· == .inf true)
    if ps.any (· == .invalid) then (f.nan, Flags.nv)
    else if pos && neg then (f.nan, Flags.nv)
    else match f.value c with
      | .nan _ => (f.nan, 0)
      | .inf n => if (n && pos) || (!n && neg) then (f.nan, Flags.nv) else (f.infinity n, 0)
      | .fin cn cm ce =>
        if pos then (f.infinity false, 0)
        else if neg then (f.infinity true, 0)
        else
          let ts := ps.map fun p => match p with
            | .fin n m e => (n, m, e)
            | _ => (false, 0, 0)
          let nz := ts.filter fun t => t.2.1 != 0
          let emax := nz.foldl (fun (o : Option Int) t =>
            let x := termTop t.2.1 t.2.2
            match o with
            | none => some x
            | some y => some (if x > y then x else y)) none
          let cut : List ((Bool × Nat × Int) × Bool) := match cls, emax with
            | .bf16, some x => ts.map fun t => truncTerm (x - 40) t.1 t.2.1 t.2.2
            | _, _ => ts.map fun t => (t, false)
          let dropped := cut.any (·.2)
          let d := sumTerms (cut.map (·.1))
          let d' := sumTerms ts
          let allNeg := cut.all fun t => t.1.2.1 == 0 && t.1.1
          let exact := addExact cn cm ce (d'.1 < 0) d'.1.natAbs (d'.2 + scale)
          let r := if d.1 = 0 ∧ cm = 0 then (f.sign (cn && allNeg), (0 : Flags))
            else
              let x := addExact cn cm ce (d.1 < 0) d.1.natAbs (d.2 + scale)
              f.roundInt2 .rne x.1 x.2 (cn && d.1 = 0)
          let same := match f.value r.1 with
            | .fin n m e => (addExact n m e (!(exact.1 < 0)) exact.1.natAbs exact.2).1 == 0
            | _ => false
          let ovf := r.2 &&& Flags.of
          let tiny := exact.1 != 0 && !same && f.underflows .rne (exact.1 < 0) exact.1.natAbs exact.2 false
          (r.1, ovf ||| Flags.when (!same || dropped) Flags.nx ||| Flags.when tiny Flags.uf)

/-- The integer a list of integer elements pairs to (R49). -/
def mmaIntSum (as bs : List Num) : Int :=
  (List.zipWith (fun a b => match a, b with
    | .fin n m _, .fin n' m' _ => (if n != n' then -((m * m' : Nat) : Int) else ((m * m' : Nat) : Int))
    | _, _ => 0) as bs).foldl (· + ·) 0

/-- An element of a tile (R151). -/
def tileGet (t : Tile) (i j : Nat) : Nat := t.toNat / 2 ^ (32 * (16 * i + j)) % 2 ^ 32

/-- A tile made of its 256 elements, and the mask of a shape's elements. -/
def tileOf (f : Nat → Nat → Nat) : Tile :=
  BitVec.ofNat 8192 ((List.range 256).foldl (fun a k => a + f (k / 16) (k % 16) * 2 ^ (32 * k)) 0)
def shapeMask (rows cols : Nat) : BitVec 256 :=
  BitVec.ofNat 256 ((List.range 256).foldl (fun a k => if k / 16 < rows ∧ k % 16 < cols then a + 2 ^ k else a) 0)

/-- A step: the values it delivers for every element of the shape, and its flags (R47-R50, R165). -/
def mmaStep (fmt : BitVec 32) (sat : Bool) (rows cols : Nat) (c : Tile) (a b : BitVec 4096) : Tile × Flags :=
  let w := fmt.toNat
  let afmt := w % 16
  let bfmt := w / 16 % 16
  let ra := (List.range 16).map fun i => mmaOperand afmt (w / 2 ^ 24 % 16) a i
  let cb := (List.range 16).map fun j => mmaOperand bfmt (w / 2 ^ 28 % 16) b j
  let scale : Int := ((w / 2 ^ 8 % 256 : Nat) : Int) + (w / 2 ^ 16 % 256 : Nat) - 254
  let cls := (fmtClass fmt).getD .bf16
  let element (i j : Nat) : Nat × Flags :=
    let as := ra.getD i []
    let bs := cb.getD j []
    match cls with
    | .integer =>
      let x := signext (tileGet c i j) 32 + mmaIntSum as bs
      if sat then let r := satsigned x 32; (wrap r.1 32, Flags.when r.2 Flags.sat) else (wrap x 32, 0)
    | k => mmaElement k scale (tileGet c i j) as bs
  let es := (List.range rows).map fun i => (List.range cols).map fun j => element i j
  let at' (i j : Nat) : Nat × Flags := ((es.getD i []).getD j (0, 0))
  let ec := Flags.when (hasCollision afmt a || hasCollision bfmt b) Flags.ec
  (tileOf fun i j => if i < rows ∧ j < cols then (at' i j).1 else 0,
   (es.foldl (fun f row => row.foldl (fun f e => f ||| e.2) f) 0) ||| ec)

end Sys2Proof.Machine
end

