-- ==== Sys2Proof/Machine/Operands.lean ====
section
/-! DEFINITION. How a syllable's operands are read (R66, R88): register sources, pops of the load-data queues, predicates, the span
and elements of a vector (R127, R128), and the description of a syllable that the issue machinery runs: what it reads and writes,
its conditions at issue, the results it puts in flight, and its other effects. -/

namespace Sys2Proof.Machine

/-- What a D, A or B field names as a source. -/
inductive Src where
  | none
  | s (r : SReg)
  | v (r : VReg)
deriving DecidableEq, Repr

/-- A register a syllable reads or writes, for write sets (R65), shadows (R81) and segment liveness (R244). -/
inductive Loc where
  | s (r : Fin 32)
  | v (r : Fin 32)
  | q (r : Fin 8)
  | tile (t : Fin 8)
  | k (r : KReg)
  | reel (r : Reel)
  | fmt
  | nflags
  | chk
  | deckle
  | step (n : Fin 8)
  | trapvec
  | istep
  | barsel
  | barmask
deriving DecidableEq, Repr

/-- What one core reads at issue: its registers as they stand before the bundle, and the values of the D, A and B sources, with pops
resolved (R66); `state` is the panel before the bundle, where the core's row is number `row`, and `late` the core with the local-store
writes of the bundle's earlier units made, which a CX syllable reads (R249). -/
structure Rd where
  core  : Fin 64
  side  : Side
  state : State
  row   : Nat
  whole : Core
  late  : Core
  cb    : CoreBank
  bank  : Bank
  d     : Word
  a     : Word
  b     : Word
  dv    : Vec
  av    : Vec
  bv    : Vec

/-- A scalar register's value; s0 reads zero (R25). -/
def CoreBank.sget (b : CoreBank) (r : Fin 32) : Word := if r.val = 0 then 0 else b.s[r]
/-- A predicate's value; q0 reads all ones (R25, R62). -/
def CoreBank.qget (b : CoreBank) (r : Fin 8) : Pred := if r.val = 0 then BitVec.allOnes 128 else b.q[r]

/-- The requests of one kind, oldest first (R180). -/
def CoreBank.queue (b : CoreBank) (vector : Bool) : List Request := b.loads.filter (·.vector == vector)

/-- How many scalar and vector entries a source pops. -/
def Src.pops : Src → Nat × Nat
  | .s r => (if r.val = 31 then 1 else 0, 0)
  | .v r => (0, if r.val = 31 then 1 else 0)
  | .none => (0, 0)

/-- The scalar value of a source whose pop, if it is one, is the `i`-th of its kind in the bundle. -/
def CoreBank.readS (b : CoreBank) (src : Src) (i : Nat) : Word :=
  match src with
  | .s r => if r.val = 31 then ((((b.queue false)[i]?).bind (·.data)).getD 0).setWidth 64 else b.sget r
  | _ => 0
/-- The vector value of a source. -/
def CoreBank.readV (b : CoreBank) (src : Src) (i : Nat) : Vec :=
  match src with
  | .v r => if r.val = 31 then (((b.queue true)[i]?).bind (·.data)).getD 0 else b.v[r]
  | _ => 0

/-- What an issue-time condition finds (R67): clear; a trap; a freeze with its cause, whether only the bank's matrix engine can end it
(R167), and what its frozen cycle does; or a freeze that ends only once the bundle has made a request, which it makes when no condition
of the bundle but such requests is left. -/
inductive Verdict where
  | clear
  | trap (t : TrapInfo)
  | freeze (c : Cause) (engine : Bool) (request : State → State)
  | ask (c : Cause) (request : State → State)

/-- The syllable as presented in a bundle: the state before the bundle, where it issues, what each core reads, what the bundle pops, and
whether its stores enter the segment store buffer (R241). -/
structure Issue where
  s    : State
  row  : Nat
  side : Side
  pc   : BitVec 15
  next : BitVec 15
  rd   : Fin 64 → Rd
  popS : Nat
  popV : Nat
  requests : Nat
  buffers : Bool

/-- The issuing bank as it stands before the bundle. -/
def Issue.bank (i : Issue) : Bank := i.s.bank i.row i.side
/-- The issue cycle. -/
def Issue.cycle (i : Issue) : Nat := i.bank.cycle

/-- A syllable's meaning, as the issue machinery runs it. -/
structure Syl where
  /-- The unit code (R60). -/
  unit : Fin 8
  /-- The sources in fields D, A and B, in the order of their pops (R66). -/
  d : Src := .none
  a : Src := .none
  b : Src := .none
  /-- The other registers read. -/
  reads : List Loc := []
  /-- The write set (R65). -/
  writes : List Loc := []
  /-- The width of a vector syllable in bits (R64). -/
  width : Nat := 0
  /-- Whether the issuing bank may hold it: check 4 of R64 (R214). -/
  permitted : Bank → Bool := fun _ => true
  /-- Whether the bundle holding it is guarded under skew by its kind (R221). -/
  guarded : Bool := false
  /-- Whether the bundle holding it is irrevocable (R242). -/
  irrevocable : Bool := false
  /-- Whether the bundle holding it ends its segment with it: seg, rdv and halt (R114, R240). -/
  ends : Bool := false
  /-- For an mma form: the initiation interval it imposes (R169). -/
  interval : Option Nat := none
  /-- The tile it touches (R153). -/
  touch : Option TReg := none
  /-- Which posted errors are reported at it (R178, R208, R382). -/
  reports : Bank → Posted → Bool := fun _ _ => false
  /-- How many load-address queue entries it takes in a core (R180). -/
  requests : Nat := 0
  /-- How many stores it puts in a segment store buffer (R241). -/
  stores : Nat := 0
  /-- The elements of a tile it reads: the tile and the mask (R161). -/
  tileRead : Rd → Option (TReg × BitVec 256) := fun _ => none
  /-- The local-store bytes it reads at issue: core, first byte, count (R243). -/
  lsRead : Issue → Fin 64 → List (Fin 64 × Nat × Nat) := fun _ _ => []
  /-- Its conditions at issue, in the order its description gives, up to the first that is not clear (R67); of a tensor access those
  before the translated frame is judged (R176 steps 1 to 3). -/
  check : Issue → Verdict := fun _ => .clear
  /-- The conditions that follow, from the translated frames on; the flag says that a walk of another syllable of the bundle has not
  ended, which keeps frames from being judged (R67, R176). -/
  frames : Issue → Bool → Verdict := fun _ _ => .clear
  /-- The places a core's part of it writes at once, of which those on other panels are counted for acknowledgement (R253). -/
  remote : Issue → Fin 64 → List Place := fun _ _ => []
  /-- The results it puts in flight in a core. -/
  fly : Rd → List Flight := fun _ => []
  /-- The local-store bytes a core's part of it writes in the issue cycle, and into which core's store (R28, R179, R196). -/
  put : Issue → Fin 64 → Option (Fin 64 × List (Nat × List Byte)) := fun _ _ => none
  /-- Whether its effect is an operation that a local-store port performs (R250). -/
  port : Bool := false
  /-- Its other effects, once every condition is clear. -/
  effect : Issue → State → State := fun _ s => s

/-- Whether a syllable pops a queue. -/
def Syl.popsAny (y : Syl) : Bool :=
  y.d.pops.1 + y.d.pops.2 + y.a.pops.1 + y.a.pops.2 + y.b.pops.1 + y.b.pops.2 != 0

/-- Whether the bundle holding the syllable is guarded under skew: by its kind, or by a pop (R221). -/
def Syl.isGuarded (y : Syl) : Bool := y.guarded || y.popsAny

/-- How many scalar and vector entries a syllable pops. -/
def Syl.pops (y : Syl) : Nat × Nat :=
  (y.d.pops.1 + y.a.pops.1 + y.b.pops.1, y.d.pops.2 + y.a.pops.2 + y.b.pops.2)

/-- What a core reads for a syllable, given how many entries of each kind earlier syllables of the bundle pop (R66). -/
def State.readFor (s : State) (n : Nat) (x : Side) (y : Syl) (base : Nat × Nat) (c : Fin 64) : Rd :=
  let r := s.row n
  let cb := r.cb x c
  let a0 := (base.1 + y.d.pops.1, base.2 + y.d.pops.2)
  let b0 := (a0.1 + y.a.pops.1, a0.2 + y.a.pops.2)
  { core := c, side := x, state := s, row := n, whole := r.cores[c], late := r.cores[c], cb := cb, bank := r.bank x
    d := cb.readS y.d base.1, a := cb.readS y.a a0.1, b := cb.readS y.b b0.1
    dv := cb.readV y.d base.2, av := cb.readV y.a a0.2, bv := cb.readV y.b b0.2 }

/-- The condition of the first of a list that is not clear. -/
def Verdict.seq : List (Unit → Verdict) → Verdict
  | [] => .clear
  | v :: vs =>
    match v () with
    | .clear => Verdict.seq vs
    | w => w

/-- A freeze for a walk. -/
def Verdict.isWalk : Verdict → Bool
  | .freeze .walk _ _ => true
  | _ => false

/-- A check made in every core: the first failing core's address and coordinate, and the mask of those that fail (R176). -/
def checkCores (t : Trap) (fails : Fin 64 → Bool) (address coord : Fin 64 → Word) : Verdict :=
  match firstCore fails with
  | some c => .trap (TrapInfo.cores t (coreMask fails) (address c) (coord c))
  | none => .clear

/-- A condition that holds alike in the whole row. -/
def checkRow (t : Trap) (fails : Bool) : Verdict := if fails then .trap (TrapInfo.row t) else .clear

/-! ## Scalar results -/

/-- A scalar result of latency `l` (R76, R77); s0 is written nowhere (R62). -/
def Rd.scalar (r : Rd) (u : Fin 8) (l : Nat) (d : SDst) (x : Word) : Flight :=
  ⟨r.bank.cycle + l, u, if d.val = 0 then .none else .s (d.castLE (by decide)) x, 0⟩

/-- Whether bit 0 of a predicate is on in the core (R115). -/
def Rd.on (r : Rd) (q : QReg) : Bool := (r.cb.qget q).getLsbD 0

/-- The write set of a scalar destination: s0 is not in it (R65). -/
def writeS (d : SDst) : List Loc := if d.val = 0 then [] else [.s (d.castLE (by decide))]
/-- The unit code of a scalar twin (R60). -/
def unitS : Twin → Fin 8
  | .a => 0
  | .b => 1
/-- The unit code of a vector twin (R60). -/
def unitV : Twin → Fin 8
  | .a => 3
  | .b => 4
/-- A predicate among the registers read: q0 reads as ones and is never in flight. -/
def readQ (q : QReg) : List Loc := if q.val = 0 then [] else [.q q]

/-! ## Spans and elements (R127, R128) -/

/-- The width in bits. -/
def widthBits : Width → Nat
  | .w256 => 256
  | .w512 => 512
  | .w1024 => 1024

/-- The first byte of the span: VA works upward from byte 0, VB downward from byte 127 (R89, R127). -/
def spanLo (u : Twin) (w : Width) : Nat :=
  match u with
  | .a => 0
  | .b => 128 - widthBits w / 8

/-- The element width in bits. -/
def eBits : EType → Nat
  | .i8 => 8
  | .i16 => 16
  | .i32 => 32
  | .i64 => 64
/-- The format a floating element type names. -/
def fmtOf : FType → Fmt
  | .f32 => .fp32
  | .bf16 => .bf16

/-- Bits `w` wide of a vector at a byte. -/
def vecAt (x : Vec) (byte w : Nat) : Nat := x.toNat / 2 ^ (8 * byte) % 2 ^ w

/-- A vector made of the elements of a span: element i, `w` bits wide, at byte lo + i w / 8. -/
def vecOf (lo w : Nat) (xs : List Nat) : Vec :=
  BitVec.ofNat 1024 (xs.foldr (fun x acc => x % 2 ^ w + 2 ^ w * acc) 0 * 2 ^ (8 * lo))

/-- The byte mask of `n` bytes from `lo` on. -/
def byteMask (lo n : Nat) : Pred := BitVec.ofNat 128 ((2 ^ n - 1) * 2 ^ lo)

end Sys2Proof.Machine
end

