-- ==== Sys2Proof/Machine/Tiles.lean ====
section
/-! DEFINITION. Reels, tile ownership with its lazy save and restore, and the matrix engine's steps in matrix time (R27, R151-R156,
R164-R173, R382). -/

namespace Sys2Proof.Machine

/-! ## Reel descriptors (R27) -/

def reelV (d : Word) : Bool := d.getLsbD 63
def reelBase (d : Word) : Nat := slice d.toNat 30 24
def reelLgn (d : Word) : Nat := slice d.toNat 18 16
def reelHead (d : Word) : Nat := slice d.toNat 13 8
def reelTail (d : Word) : Nat := slice d.toNat 5 0
/-- The entries the reel holds: (tail - head) mod 64. -/
def reelCount (d : Word) : Nat := (reelTail d + 64 - reelHead d) % 64
/-- The reserved bits of a descriptor: 62:31, 23:19, 15:14 and 7:6. -/
def reelReserved (d : Word) : Bool :=
  slice d.toNat 62 31 != 0 || slice d.toNat 23 19 != 0 || slice d.toNat 15 14 != 0 || slice d.toNat 7 6 != 0
/-- Malformed with V = 1: lgn 6 or 7, a ring past the window, more entries than 2^lgn (R27), or a reserved bit that is set (R6).
(DEDUCED: log entry 97.) -/
def reelBad (b : Bank) (d : Word) : Bool :=
  reelV d && (reelReserved d || reelLgn d ≥ 6 || reelBase d * 512 + 2 ^ reelLgn d * 512 > b.winSize || reelCount d > 2 ^ reelLgn d)
/-- A descriptor with its head or tail counter moved on by one, modulo 64. -/
def reelPop (d : Word) : Word := BitVec.ofNat 64 (d.toNat - reelHead d * 256 + (reelHead d + 1) % 64 * 256)
def reelPush (d : Word) : Word := BitVec.ofNat 64 (d.toNat - reelTail d + (reelTail d + 1) % 64)
/-- The window byte of the entry a counter value addresses: entry c mod 2^lgn. -/
def reelEntry (d : Word) (c : Nat) : Nat := reelBase d * 512 + 512 * (c % 2 ^ reelLgn d)

/-- REEL_UNCONF and REEL_MALFORMED of a reel, in every core (R27). -/
def checkReel (i : Issue) (r : Reel) : Verdict :=
  Verdict.seq [
    fun _ => checkCores .reelUnconf (fun c => !reelV ((i.rd c).cb.reel[r])) (fun _ => 0) (fun _ => 0),
    fun _ => checkCores .reelMalformed (fun c => reelBad i.bank ((i.rd c).cb.reel[r])) (fun _ => 0) (fun _ => 0)]

/-! ## %deckle (R152) -/

/-- The ten bits of a tile's field: type 9:8, cols 7:4, rows 3:0. -/
def deckleOf (d : BitVec 80) (t : TReg) : BitVec 10 := (d >>> (10 * t.val)).setWidth 10
def shapeType (x : BitVec 10) : Nat := x.toNat / 256
def shapeCols (x : BitVec 10) : Nat := x.toNat / 16 % 16 + 1
def shapeRows (x : BitVec 10) : Nat := x.toNat % 16 + 1

/-! ## Ownership and the lazy save (R154-R156) -/

/-- A tile whose contents the other bank owns and has dirtied: a save falls due (R154). -/
def Core.saveDue (c : Core) (x : Side) (t : TReg) : Bool := c.owner[t] == some (otherSide x) && c.dirty.getLsbD t.val
/-- A tile the bank does not own and has saved: a restore falls due (R154). -/
def Core.restoreDue (c : Core) (x : Side) (t : TReg) : Bool := c.owner[t] != some x && (c.of x).saved.getLsbD t.val

/-- The 1,024 bytes of a tile, and the tile of 1,024 bytes (R151). -/
def bytesOfTile (t : Tile) : List Byte := bytesOfNat t.toNat 1024
def tileOfBytes (bs : List Byte) : Tile := BitVec.ofNat 8192 (natOfBytes bs)

/-- What a tile holds for a bank that takes it: the bank's saved contents, or zeros (R154). -/
def Core.restored (c : Core) (b : Bank) (x : Side) (t : TReg) : Tile :=
  if (c.of x).saved.getLsbD t.val then tileOfBytes (Memory.read c.ls (b.saveArea t) 1024) else 0

/-- A tile's contents go to a bank's save area; lines that receive an uncorrectable element are poisoned (R154, R365).
(DEDUCED: log entry 133.) -/
def Core.saveTile (c : Core) (b : Bank) (t : TReg) : Core :=
  let k := c.lsWrite (b.saveArea t) (bytesOfTile c.tiles[t])
  if c.badT.getLsbD t.val then { k with poison := (linesOf (b.saveArea t) 1024).foldl (fun m l => setLine m l true) k.poison } else k

/-- Whether what a bank finds in a tile has an uncorrectable error: in the tile it owns, or in the contents to be restored (R154, R365). -/
def Core.badTile (c : Core) (b : Bank) (x : Side) (t : TReg) : Bool :=
  if c.owner[t] == some x then c.badT.getLsbD t.val else c.restoreDue x t && c.anyPoison (b.saveArea t) 1024

/-- The bank takes a tile before its touch (R154): save the other bank's dirty contents, restore its own or clear. -/
def Core.take (c : Core) (bx bo : Bank) (x : Side) (t : TReg) : Core :=
  if c.owner[t] == some x then c
  else
    let c := if c.saveDue x t then
        (c.saveTile bo t).mod (otherSide x) fun b => { b with saved := setBit8 b.saved t true }
      else c
    { c with tiles := c.tiles.set t.val (c.restored bx x t)
             owner := c.owner.set t.val (some x)
             dirty := setBit8 c.dirty t false
             badT := setBit8 c.badT t (c.badTile bx x t) }

/-- Every core of a row takes a tile for a bank. -/
def Row.takeTile (r : Row) (x : Side) (t : TReg) : Row :=
  r.mapCores fun _ c => c.take (r.bank x) (r.bank (otherSide x)) x t

/-- The bank's tiles are released: owner none, dirty 0, and every saved bit of the bank cleared (R156). -/
def Core.releaseTiles (c : Core) (x : Side) : Core :=
  let mine (t : Fin 8) : Bool := c.owner[t] == some x
  let c := c.mod x fun b => { b with saved := 0 }
  { c with owner := tableOfFn fun t : Fin 8 => if mine t then none else c.owner[t]
           dirty := (List.finRange 8).foldl (fun m t => if mine t then setBit8 m t false else m) c.dirty }

/-! ## The matrix engine (R164-R168, R171, R172, R382) -/

/-- The head entry of a reel in a core's local store, as 512 bytes. -/
def Core.headEntry (c : Core) (b : Bank) (x : Side) (r : Reel) : BitVec 4096 :=
  let d := (c.of x).reel[r]
  BitVec.ofNat 4096 (natOfBytes (Memory.read c.ls (b.winBase + reelEntry d (reelHead d)) 512))

/-- The first local-store byte of a reel's head entry. -/
def Core.headByte (c : Core) (b : Bank) (x : Side) (r : Reel) : Nat :=
  let d := (c.of x).reel[r]
  b.winBase + reelEntry d (reelHead d)

/-- Whether a core has a part in an operation: it has executed the bundle that issued it (R233). -/
def CoreBank.inOp (b : CoreBank) (o : MatrixOp) : Bool := b.macc.any (·.1 == o.number)

/-- Whether both reels of an operation hold a committed entry in every core that has a part in it. -/
def Row.reelsReady (r : Row) (x : Side) (o : MatrixOp) : Bool :=
  allCores.all fun c => !(r.cb x c).inOp o ||
    (reelCount (r.cb x c).reel[o.reelA] != 0 && reelCount (r.cb x c).reel[o.reelB] != 0)

/-- Whether a step of an operation is due to begin at the bank's matrix time. -/
def MatrixOp.due (o : MatrixOp) (now : Nat) : Bool := !o.ended && o.next < o.steps && o.at0 + 16 * o.next ≤ now

/-- A step of the bank is due and a reel of it is empty: matrix time stands (R167, R168). -/
def Row.stalled (r : Row) (x : Side) : Bool := (r.bank x).matOps.any fun o => o.due (r.bank x).matTime && !r.reelsReady x o

/-- The bank's %mxstep while an mma.n has steps left to begin: the number of the next one; otherwise as it stands (R170). -/
def Bank.setMxstep (b : Bank) (o : MatrixOp) : Bank :=
  { b with mxstep := if o.next < o.steps then BitVec.ofNat 8 o.next else 0 }

/-- One operation of a bank replaced by its number. -/
def Bank.setOp (b : Bank) (o : MatrixOp) : Bank := { b with matOps := b.matOps.map fun p => if p.number = o.number then o else p }

/-- An operation in the bank's engine keeps a tile busy; none does while the bank is stopped (R168, R172). -/
def Bank.busies (b : Bank) (t : TReg) : Bool :=
  (match b.phase with
    | .stopped _ => false
    | _ => true) && b.matOps.any (·.tile == t)

/-- A bank's operation keeps a tile busy no longer: it is not busy unless the other bank's engine keeps it so (R168, R172, R173). -/
def Row.idleTile (r : Row) (x : Side) (t : TReg) : Row :=
  if (r.bank (otherSide x)).busies t then r else r.mapCores fun _ c => { c with busy := setBit8 c.busy t false }

/-- An operation has completed: every core's tl4 counts it, it keeps its tile busy no longer, and it leaves the engine (R168, R171). -/
def State.finishOp (s : State) (n : Nat) (x : Side) (o : MatrixOp) : State :=
  s.modRow n fun r =>
    let r := r.mapCores fun _ c =>
      c.mod x fun b => { (b.completeOp 4 o.number) with macc := b.macc.filter (·.1 != o.number), mops := b.mops.filter (·.op != o.number) }
    (r.idleTile x o.tile).modBank x fun b => { b with matOps := b.matOps.filter (·.number != o.number) }

/-- The window address of the first line of a step's two entries in a core that a test finds bad: word 2 of the step's error (R231). -/
def Core.badEntry (k : Core) (b : Bank) (x : Side) (o : MatrixOp) (bad : Core → Nat → Nat → Bool) : Nat :=
  let lines := [k.headByte b x o.reelA, k.headByte b x o.reelB].flatMap fun e => (List.range 8).map (e + 64 * ·)
  ((lines.find? (bad k · 64)).getD 0) - b.winBase

/-- A step begins (R164): each core copies both head entries and pops the reels not kept. A step whose entry holds a ciphertext or a
poisoned line in some core does not begin: its macro-operation ends there and the error is posted for engine 4 (R382).
(DEDUCED: log entry 22.) -/
def State.beginStep (s : State) (n : Nat) (x : Side) (o : MatrixOp) : State :=
  let r := s.row n
  let b := r.bank x
  let meets (f : Core → Nat → Nat → Bool) (c : Fin 64) : Bool :=
    let k := r.cores[c]
    (k.of x).inOp o && (f k (k.headByte b x o.reelA) 512 || f k (k.headByte b x o.reelB) 512)
  let cm := coreMask (meets Core.anyCipher)
  let pm := coreMask (meets Core.anyPoison)
  if cm != 0 || pm != 0 then
    let o := { o with ended := true, steps := o.next }
    let s := s.modBank n x fun b => { (b.setOp o) with mxstep := BitVec.ofNat 8 o.next }
    let core := (firstCore fun c => (if cm != 0 then cm else pm).getLsbD c.val).getD 0
    let a := r.cores[core].badEntry b x o (if cm != 0 then Core.anyCipher else Core.anyPoison)
    let s := s.post n x
      ⟨if cm != 0 then .formFault else .ueConsumed, some (4, o.number), BitVec.ofNat 64 a, if cm != 0 then cm else pm⟩
    if o.landed = o.next then s.finishOp n x o else s
  else
    let s := s.modRow n fun r => r.mapCores fun _ c => c.mod x fun cb =>
      if !cb.inOp o then cb else
      { cb with mops := cb.mops ++ [⟨o.number, o.next, c.headEntry b x o.reelA, c.headEntry b x o.reelB⟩]
                reel :=
                  let v := if o.keepA then cb.reel else cb.reel.set o.reelA.val (reelPop cb.reel[o.reelA])
                  if o.keepB then v else v.set o.reelB.val (reelPop v[o.reelB]) }
    let o := { o with next := o.next + 1 }
    s.modBank n x fun b => (b.setOp o).setMxstep o

/-- A step of a bank lands in its tile (R165): each core's values inside the shape, its flags, and the dirty bit. -/
def Core.landStep (c : Core) (k : Bank) (x : Side) (o : MatrixOp) : Core :=
  let cb := c.of x
  match cb.mops.find? (fun p => p.op == o.number && p.step == o.landed), cb.macc.find? (fun p => p.1 == o.number) with
  | some p, some acc =>
    let rows := shapeRows o.shape
    let cols := shapeCols o.shape
    let start : Tile := if o.landed = 0 ∧ o.zero then 0 else acc.2
    let r := mmaStep o.fmt o.sat rows cols start p.a p.b
    (c.landTile k x o.tile r.1 (shapeMask rows cols)).mod x fun b =>
      { b with nflags := b.nflags ||| r.2
               macc := b.macc.map fun q => if q.1 == o.number then (q.1, r.1) else q
               mops := b.mops.filter fun q => !(q.op == o.number && q.step == o.landed) }
  | _, _ => c

/-- The next step of an operation lands in every core; after the last the operation is complete. -/
def State.landStep (s : State) (n : Nat) (x : Side) (o : MatrixOp) : State :=
  let s := s.modRow n fun r => r.mapCores fun _ c => c.landStep (r.bank x) x o
  let o := { o with landed := o.landed + 1 }
  let s := s.modBank n x (·.setOp o)
  if o.landed = o.steps ∧ (o.ended ∨ o.next = o.steps) then s.finishOp n x o else s

/-- Whether a begun step of an operation is due to land at a matrix time. -/
def MatrixOp.landsBy (o : MatrixOp) (now : Nat) : Bool := o.landed < o.next && o.at0 + 16 * o.landed + 24 ≤ now

/-- Begin the steps that are due and whose reels hold an entry. -/
def State.beginDue (s : State) (n : Nat) (x : Side) : State :=
  (s.bank n x).matOps.foldl (fun s o => if o.due (s.bank n x).matTime && (s.row n).reelsReady x o then s.beginStep n x o else s) s

/-- Land the steps that are due by the bank's matrix time. -/
def State.landStepsDue (s : State) (n : Nat) (x : Side) : State :=
  (s.bank n x).matOps.foldl (fun s o => if o.landsBy (s.bank n x).matTime then s.landStep n x o else s) s

/-- The end of a cycle of the bank's matrix time: it stands while a step that is due has not begun; else it moves on by one, steps due
land, and steps whose time it now is begin, before the coming cycle reads or writes anything (R164, R165, R167, R250). -/
def State.matrixPass (s : State) (n : Nat) (x : Side) : State :=
  if (s.bank n x).matOps.any fun o => o.due (s.bank n x).matTime then s
  else
    let s := s.modBank n x fun b => { b with matTime := b.matTime + 1 }
    if (s.bank n x).matOps.isEmpty then s else (s.landStepsDue n x).beginDue n x

/-- One cycle of the bank's matrix time: steps due begin, and it passes. -/
def State.matrixTick (s : State) (n : Nat) (x : Side) : State := (s.beginDue n x).matrixPass n x

/-- Every step already begun lands, whatever the matrix time, as a stop requires (R172); `fuel` bounds the steps begun. -/
def State.landBegun (s : State) (n : Nat) (x : Side) : Nat → State
  | 0 => s
  | fuel + 1 =>
    match (s.bank n x).matOps.find? (fun o => o.landed < o.next) with
    | some o => (s.landStep n x o).landBegun n x fuel
    | none => s

/-- How many steps of the bank have begun and not landed. -/
def Bank.begun (b : Bank) : Nat := b.matOps.foldl (fun m o => m + (o.next - o.landed)) 0

/-- The engine stops with the bank: steps already begun land, and it keeps no tile busy (R172, R227). -/
def State.stopEngine (s : State) (n : Nat) (x : Side) : State :=
  if (s.bank n x).matOps.isEmpty then s
  else
    let s := s.landBegun n x (s.bank n x).begun
    ((s.bank n x).matOps.map (·.tile)).foldl (fun s t => s.modRow n (·.idleTile x t)) s

/-- A trap is taken; where it fails the bank, the engine stops with it and the steps not begun are dropped (R227, R235, R239).
(DEDUCED: log entry 99.) -/
def State.enterTrap (s : State) (n : Nat) (x : Side) (t : TrapInfo) (pc next : BitVec 15) (cycle : Nat) : State :=
  let s := s.takeTrap n x t pc next cycle
  if (s.bank n x).phase = .failed && !(s.bank n x).matOps.isEmpty then
    (s.stopEngine n x).modBank n x fun b => { b with matOps := [] }
  else s

end Sys2Proof.Machine
end

