-- ==== Sys2Proof/Machine/Coherence.lean ====
section
/-! DEFINITION. Frames in use, write generations, and the coherence protocol of die caches and directories (R274, R276, R283, R344,
R345, R352-R358). Every byte has one value; the protocol's states say who may hold a copy. -/

namespace Sys2Proof.Machine

/-! ## Frames in use (R282, R283) -/

/-- The number of a vector's place below its length. -/
def junFin (j : Nat) : Fin 160 := ⟨j % 160, Nat.mod_lt _ (by decide)⟩
def dieNo (d : Nat) : Fin 160 := ⟨d % 160, Nat.mod_lt _ (by decide)⟩
def sidingFin (s : Nat) : Fin 32 := ⟨s % 32, Nat.mod_lt _ (by decide)⟩
def cxlFin (h : Nat) : Fin 4 := ⟨h % 4, Nat.mod_lt _ (by decide)⟩

/-- The frames in use of the tier unit a physical frame belongs to. -/
def State.framesAt (s : State) (frame : Nat) : List FrameUse :=
  match rangeOf (frame * 65536) with
  | .hbm j => s.juns[junFin j].frames
  | .siding d => s.sidings[sidingFin d].frames
  | .cxl h => s.cxl[cxlFin h].frames
  | .host => s.host.frames
  | .control | .unmapped => []

/-- The frames in use of that unit changed, and its used count with them. -/
def State.setFramesAt (s : State) (frame : Nat) (f : List FrameUse → List FrameUse) : State :=
  let tier (t : TierState) : TierState := { t with frames := f t.frames, marks := { t.marks with used := (f t.frames).length } }
  match rangeOf (frame * 65536) with
  | .hbm j => s.modJun (junFin j) fun k => { k with frames := f k.frames, marks := { k.marks with used := (f k.frames).length } }
  | .siding d => { s with sidings := s.sidings.set (sidingFin d).val (tier s.sidings[sidingFin d]) }
  | .cxl h => { s with cxl := s.cxl.set (cxlFin h).val (tier s.cxl[cxlFin h]) }
  | .host => { s with host := tier s.host }
  | .control | .unmapped => s

/-- A frame's record, if it is in use. -/
def State.frameUse (s : State) (frame : Nat) : Option FrameUse := (s.framesAt frame).find? (·.frame == frame)

/-- A frame's record changed; a frame not yet in use comes into use with `new`. -/
def State.touchFrame (s : State) (frame : Nat) (new : FrameUse) (f : FrameUse → FrameUse) : State :=
  s.setFramesAt frame fun l => if l.any (·.frame == frame) then l.map fun u => if u.frame == frame then f u else u else l ++ [f new]

/-- A new frame record. -/
def FrameUse.new (frame : Nat) : FrameUse := ⟨frame, none, none, 0, 0, false, false, false⟩

/-- The home junction of a line: the junction that holds an HBM4 frame, else the one its entry names (R276). -/
def State.homeOf (s : State) (line : Nat) : Fin 160 :=
  match rangeOf (line * 64) with
  | .hbm j => junFin j
  | _ => junFin (((s.frameUse (line / 1024)).map (·.home)).getD 0)

/-- Whether a line's frame is host-bias (R276). -/
def State.hostBias (s : State) (line : Nat) : Bool := ((s.frameUse (line / 1024)).map (·.hostBias)).getD false

/-! ## Write generations (R274, R344, R345) -/

/-- A write to a frame of this panel reports its generation, the present %wgen: the home writes it into the frame's generation word
where it exceeds the word, or marks the frame unattributed where it holds no address (R345). -/
def State.reportGeneration (s : State) (frame : Nat) : State :=
  match s.frameUse frame with
  | some u =>
    match u.genWord with
    | some g => if s.wgen.toNat > (s.physWord g).toNat then s.physWriteWord g s.wgen else s
    | none => s.touchFrame frame (FrameUse.new frame) fun u => { u with unattr := true }
  | none => s.touchFrame frame (FrameUse.new frame) fun u => { u with unattr := true }

/-- The reference age of a frame goes back to 0 (R283). -/
def State.resetAge (s : State) (frame : Nat) : State :=
  if (s.frameUse frame).isSome then s.touchFrame frame (FrameUse.new frame) fun u => { u with age := 0 } else s

/-! ## Die caches (R353) -/

/-- A die's state for a line; I is none. -/
def Die.lineState (d : Die) (line : Nat) : Option Moesi := (d.cache.find? (·.line == line)).map (·.state)

/-- A die's copy of a line set, or dropped. -/
def Die.setLine (d : Die) (line : Nat) (st : Option Moesi) (slot : Option (Fin 64)) : Die :=
  let rest := d.cache.filter (·.line != line)
  { d with cache := match st with
      | some state => ⟨line, state, slot, none⟩ :: rest
      | none => rest }

/-- A copy's answer to a snoop for a read elsewhere: M goes to O, O and S stay, E goes to S (R353). -/
def Moesi.readSnoop : Moesi → Moesi
  | .m => .o
  | .o => .o
  | .e => .s
  | .s => .s

/-- A die's copy answers a snoop for a read elsewhere. -/
def Die.snoopRead (d : Die) (line : Nat) : Die :=
  { d with cache := d.cache.map fun c => if c.line == line then { c with state := c.state.readSnoop } else c }

/-- Some of the dies hold a line dirty, in M or O: as they give it up it is written back, and its frame's age goes back to 0 (R283). -/
def State.writeBack (s : State) (line : Nat) (dies : List Nat) : State :=
  let dirty (d : Nat) : Bool := match s.dies[dieNo d].lineState line with
    | some .m | some .o => true
    | _ => false
  if dies.any dirty then s.resetAge (line / 1024) else s

/-- Every copy but one die's is invalidated. -/
def State.dropCopies (s : State) (line : Nat) (dies : List Nat) (keep : Option Nat) : State :=
  dies.foldl (fun s d => if keep = some d then s else s.modDie (dieNo d) (·.setLine line none none)) s

/-! ## Directories (R354-R357) -/

/-- The entry of a line in a directory. -/
def dirFind (l : List DirEntry) (line : Nat) : Option DirEntry := l.find? (·.line == line)
/-- A directory with an entry at its most recently used end, or without the line. -/
def dirPut (l : List DirEntry) (e : DirEntry) : List DirEntry := e :: l.filter (·.line != e.line)
def dirDrop (l : List DirEntry) (line : Nat) : List DirEntry := l.filter (·.line != line)

/-- The dies an entry names as sharers: by number, or every die of the marked regions (R354). -/
def DirEntry.sharing (e : DirEntry) : List Nat :=
  if e.regions = 0 then e.sharers
  else ((List.range 16).filter fun g => e.regions.getLsbD g).flatMap fun g => (List.range 10).map (10 * g + ·)
/-- All dies named by an entry. -/
def DirEntry.dies (e : DirEntry) : List Nat :=
  match e.state with
  | .owned o => if e.sharing.contains o then e.sharing else o :: e.sharing
  | _ => e.sharing

/-- An entry that names one more sharer: up to four by number, beyond four by their regions (R354). -/
def DirEntry.addSharer (e : DirEntry) (d : Nat) : DirEntry :=
  let mark (m : BitVec 16) (x : Nat) : BitVec 16 := m ||| BitVec.twoPow 16 (x / 10)
  if e.regions != 0 then { e with regions := mark e.regions d }
  else if e.sharers.contains d then e
  else if e.sharers.length < 4 then { e with sharers := e.sharers ++ [d] }
  else { e with sharers := [], regions := (d :: e.sharers).foldl mark 0 }

/-- An entry whose owner has become a sharer, or nobody. -/
def DirEntry.unowned (e : DirEntry) : DirEntry := { e with state := .shared }

/-- An entry that forgets a die it names by number; none when it names nobody any more. A region's mark stays. -/
def DirEntry.without (e : DirEntry) (d : Nat) : Option DirEntry :=
  let e := { e with sharers := e.sharers.filter (· != d) }
  let e := match e.state with
    | .owned o => if o = d then e.unowned else e
    | _ => e
  match e.state with
  | .shared => if e.sharers.isEmpty && e.regions = 0 then none else some e
  | _ => some e

/-- The route junction an entry has been delegated to. -/
def DirEntry.routed (e : DirEntry) : Option Nat :=
  match e.state with
  | .route k => some k
  | _ => none

/-- The home reclaims a delegated entry: the route junction returns it with its present sharers and owner (R356). -/
def State.reclaim (s : State) (j : Fin 160) (line : Nat) : State :=
  match (dirFind s.juns[j].home line).bind DirEntry.routed with
  | some k =>
    match dirFind s.juns[junFin k].routes line with
    | some e =>
      (s.modJun (junFin k) fun u => { u with routes := dirDrop u.routes line }).modJun j fun u => { u with home := dirPut u.home e }
    | none => s.modJun j fun u => { u with home := dirDrop u.home line }
  | _ => s

/-- Every copy of a line is back-invalidated and its entry, reclaimed first where it is delegated, leaves the home directory (R354, R356). -/
def State.dropEntry (s : State) (j : Fin 160) (line : Nat) : State :=
  let s := s.reclaim j line
  match dirFind s.juns[j].home line with
  | some e => ((s.writeBack line e.dies).dropCopies line e.dies none).modJun j fun u => { u with home := dirDrop u.home line }
  | none => s

/-- To make room in the line's set of 16 ways, the home evicts the entry of lowest recent use (R354).
(DESIGN CHOICE: log entry 23.) -/
def State.makeRoom (s : State) (j : Fin 160) (line : Nat) : State :=
  let set := (s.juns[j].home.filter fun e => e.line % 65536 == line % 65536 && e.line != line)
  if set.length < 16 then s else (set.getLast?.map fun e => s.dropEntry j e.line).getD s

/-- The state of a die's link to a junction: awake where nothing else is noted. -/
def Die.link (d : Die) (j : Nat) : LinkState := ((d.links.find? (·.1 == j)).map (·.2)).getD .awake
def Die.setLink (d : Die) (j : Nat) (l : LinkState) : Die :=
  { d with links := (d.links.filter (·.1 != j)) ++ (if l = .awake then [] else [(j, l)]) }

/-- Whether a die links to a junction: neither is excluded, and the link has not failed (R356, R363, R376). -/
def State.linked (s : State) (d j : Nat) : Bool :=
  (junctionsOfDie d).contains j && (s.dies[dieNo d]).link j != .failed && !s.dies[dieNo d].excluded && !s.juns[junFin j].excluded

/-- The lowest junction other than the home that every sharer links to (R356). -/
def State.commonJunction (s : State) (home : Fin 160) (dies : List Nat) : Option Nat :=
  match dies with
  | [] => none
  | d :: rest => (junctionsOfDie d).find? fun j => j != home.val && s.linked d j && rest.all fun e => s.linked e j

/-- A junction whose route directory is full gives back the entry of lowest recent use (R356).
(DESIGN CHOICE: log entry 23.) -/
def State.giveRoute (s : State) (j : Fin 160) : State :=
  if s.juns[j].routes.length < 65536 then s
  else (s.juns[j].routes.getLast?.map fun e => s.reclaim (s.homeOf e.line) e.line).getD s

/-- The home delegates a device-bias line to the lowest common junction of two or more sharers (R356, R358). -/
def State.delegate (s : State) (j : Fin 160) (line : Nat) : State :=
  match dirFind s.juns[j].home line with
  | some e =>
    if s.hostBias line || e.dies.length < 2 then s
    else match e.state, s.commonJunction j e.dies with
      | .route _, _ => s
      | .pod _ _, _ => s
      | _, some k =>
        ((s.giveRoute (junFin k)).modJun (junFin k) fun u => { u with routes := dirPut u.routes e }).modJun j fun u =>
          { u with home := dirPut u.home { e with state := .route k, sharers := [], regions := 0 } }
      | _, none => s
  | none => s

/-- Where a request of die `d` for a line is resolved: at the route junction that holds its entry when `d` links to it, else at the home,
which first reclaims a delegated entry (R356, R357). Answers the state and the junction whose directory resolves, with `true` for a
route directory. -/
def State.resolve (s : State) (d line : Nat) : State × Fin 160 × Bool :=
  let j := s.homeOf line
  match (dirFind s.juns[j].home line).bind DirEntry.routed with
  | some k => if s.linked d k then (s, junFin k, true) else (s.reclaim j line, j, false)
  | _ => (s, j, false)

/-- The directory entry of a line at a resolving point. -/
def State.dirAt (s : State) (j : Fin 160) (route : Bool) (line : Nat) : Option DirEntry :=
  dirFind (if route then s.juns[j].routes else s.juns[j].home) line
def State.setDirAt (s : State) (j : Fin 160) (route : Bool) (e : DirEntry) : State :=
  s.modJun j fun u => if route then { u with routes := dirPut u.routes e } else { u with home := dirPut u.home e }

/-- The line's entry forgets a die, at the home or at the route junction; a delegated entry that names nobody any more leaves both. -/
def State.forgetDie (s : State) (d line : Nat) : State :=
  let j := s.homeOf line
  let fix (l : List DirEntry) : List DirEntry := l.filterMap fun e => if e.line = line then e.without d else some e
  match (dirFind s.juns[j].home line).bind DirEntry.routed with
  | some k =>
    let s := s.modJun (junFin k) fun u => { u with routes := fix u.routes }
    if (dirFind s.juns[junFin k].routes line).isSome then s else s.modJun j fun u => { u with home := dirDrop u.home line }
  | _ => s.modJun j fun u => { u with home := fix u.home }

/-- A die gives up its copy of a line: dirty data is in memory, and the line's entry forgets the die. -/
def State.flushLine (s : State) (d line : Nat) : State :=
  ((s.writeBack line [d]).forgetDie d line).modDie (dieNo d) (·.setLine line none none)

/-- A line leaves a full cache: written back where it is dirty, else silently (R353). -/
def State.evictLine (s : State) (d line : Nat) : State :=
  match s.dies[dieNo d].lineState line with
  | some .m | some .o => s.flushLine d line
  | _ => s.modDie (dieNo d) (·.setLine line none none)

/-- The lines of a die cache of 16 MiB (R29). -/
def dieLines : Nat := 262144

/-- A line enters a die's cache; a full cache first evicts the line that entered it first (R29, R353).
(DESIGN CHOICE: log entry 114.) -/
def State.fillLine (s : State) (d line : Nat) (st : Moesi) (slot : Option (Fin 64)) : State :=
  let others := s.dies[dieNo d].cache.filter (·.line != line)
  let s := if others.length < dieLines then s else (others.getLast?.map fun c => s.evictLine d c.line).getD s
  s.modDie (dieNo d) (·.setLine line (some st) slot)

/-- The slot a cached line is tagged with: that of the tensor it is reached through, else the tag it has, else the slot it is stored under
(R381, R386). -/
def State.lineTag (s : State) (d line : Nat) (slot : Option (Fin 64)) : Option (Fin 64) :=
  (slot.orElse fun _ => (s.dies[dieNo d].cache.find? (·.line == line)).bind (·.slot)).orElse fun _ =>
    (Sparse.find s.sealed (physKey s.panelId.toNat (64 * line) / 64)).map fun e => ⟨e.view.slot % 64, Nat.mod_lt _ (by decide)⟩

/-- A cached line's tag is brought up to date. -/
def State.tagLine (s : State) (d line : Nat) (slot : Option (Fin 64)) : State :=
  if slot.isNone then s
  else s.modDie (dieNo d) fun k => { k with cache := k.cache.map fun c => if c.line == line then { c with slot := slot } else c }

/-- The entry once its owner has answered a snoop for a read: an owner that held the line dirty stays the owner, one that held it clean
shares it, and one that had given it up silently is forgotten (R353, R354). -/
def State.ownerAnswers (s : State) (e : DirEntry) : DirEntry :=
  match e.state with
  | .owned o =>
    match s.dies[dieNo o].lineState e.line with
    | some .m | some .o => e
    | some _ => e.unowned.addSharer o
    | none => { e.unowned with sharers := e.sharers.filter (· != o) }
  | _ => e

/-- The dies of this panel snooped for a read elsewhere: the owner; of a line that a pod switch resolves, every sharer. -/
def DirEntry.readSnoops (e : DirEntry) : List Nat :=
  match e.state with
  | .owned o => [o]
  | .pod _ _ => e.sharing
  | _ => []

/-- A die reads a line: a hit in any state; else a fill, E when there is no other copy, the host's included, else S with the owner snooped
(R353, R358). In state P other panels may share the line (R359).
(DEDUCED: log entry 27.) -/
def State.readLine (s : State) (d line : Nat) (slot : Option (Fin 64)) : State :=
  if (s.dies[dieNo d].lineState line).isSome then s.tagLine d line slot
  else
    let tag := s.lineTag d line slot
    let way : State × Fin 160 × Bool := s.resolve d line
    let j := way.2.1
    let route := way.2.2
    let s := way.1.resetAge (line / 1024)
    let host := s.hostCopies.contains line
    match s.dirAt j route line with
    | none =>
      let s := s.makeRoom j line
      if host then (s.setDirAt j false ⟨line, .shared, [d], 0⟩).fillLine d line .s tag
      else (s.setDirAt j false ⟨line, .owned d, [], 0⟩).fillLine d line .e tag
    | some e =>
      let seen := s.ownerAnswers e
      let pod := match e.state with
        | .pod _ _ => true
        | _ => false
      if !pod && !host && seen.dies.all (· == d) then (s.setDirAt j route ⟨line, .owned d, [], 0⟩).fillLine d line .e tag
      else
        let s := e.readSnoops.foldl (fun (s : State) o => s.modDie (dieNo o) (·.snoopRead line)) s
        let s := (s.setDirAt j route (seen.addSharer d)).fillLine d line .s tag
        if route then s else s.delegate j line

/-- A die takes a line for a write: every other copy goes to I, the host's included, and its own to M (R353, R358); in state P some panel
now holds M (R359). -/
def State.ownLine (s : State) (d line : Nat) (slot : Option (Fin 64)) : State :=
  let tag := s.lineTag d line slot
  match s.dies[dieNo d].lineState line with
  | some .m => s.tagLine d line slot
  | some .e => s.modDie (dieNo d) (·.setLine line (some .m) tag)
  | _ =>
    let way : State × Fin 160 × Bool := s.resolve d line
    let j := way.2.1
    let route := way.2.2
    let s := way.1.resetAge (line / 1024)
    let s := { s with hostCopies := s.hostCopies.filter (· != line) }
    match s.dirAt j route line with
    | none =>
      let s := s.makeRoom j line
      (s.setDirAt j false ⟨line, .owned d, [], 0⟩).fillLine d line .m tag
    | some e =>
      let s := s.dropCopies line e.dies (some d)
      let mine : DirEntry := match e.state with
        | .pod k _ => ⟨line, .pod k true, [d], 0⟩
        | _ => ⟨line, .owned d, [], 0⟩
      (s.setDirAt j route mine).fillLine d line .m tag

/-- Every die-cache copy of a line is recalled, as the home does for an access of its own (R177, R267, R353). -/
def State.recallLine (s : State) (line : Nat) : State := s.dropEntry (s.homeOf line) line
/-- The same before a write at the home: the host's copy goes too (R358). -/
def State.recallToWrite (s : State) (line : Nat) : State :=
  let s := s.recallLine line
  { s with hostCopies := s.hostCopies.filter (· != line) }

/-- A pod switch asks for a line homed here, for panels behind it (R359): the home delegates its entry to the switch, state P, and notes
whether some panel may now hold E, M or O: it does after a write, after a read that finds no other copy, and while a die here owns the
line. A host-bias line is not delegated: its copies are recalled (R358).
(DEDUCED: log entry 148.) -/
def State.switchRequest (s : State) (k line : Nat) (write : Bool) : State :=
  let j := s.homeOf line
  if s.hostBias line then
    if write then s.recallToWrite line else s.recallLine line
  else
    let s := (s.reclaim j line).resetAge (line / 1024)
    match dirFind s.juns[j].home line with
    | none => (s.makeRoom j line).setDirAt j false ⟨line, .pod k true, [], 0⟩
    | some e =>
      let switch := match e.state with
        | .pod p _ => p
        | _ => k
      if write then ((s.writeBack line e.dies).dropCopies line e.dies none).setDirAt j false ⟨line, .pod switch true, [], 0⟩
      else
        let seen := s.ownerAnswers e
        let owned := match seen.state with
          | .owned _ => true
          | .pod _ o => o
          | _ => seen.dies.isEmpty
        let s := e.readSnoops.foldl (fun (s : State) o => s.modDie (dieNo o) (·.snoopRead line)) s
        let named := match seen.state with
          | .owned o => seen.addSharer o
          | _ => seen
        s.setDirAt j false { named with state := .pod switch owned }

/-! ## Lines that requests wait for (R355, R361, R363) -/

/-- The dies that a request for a line is to snoop: for a read the owner, unless the asking die has the line; for a write or a recall every
other die named. With them the junction that resolves. -/
def State.snooped (s : State) (line : Nat) (asker : Option Nat) (write : Bool) : List Nat × Nat :=
  let j := s.homeOf line
  let place : Option DirEntry × Nat := match dirFind s.juns[j].home line with
    | some ⟨_, .route k, _, _⟩ => (dirFind s.juns[junFin k].routes line, k)
    | e => (e, j.val)
  let has := asker.any fun d => (s.dies[dieNo d].lineState line).isSome
  let dies := match place.1 with
    | some e => if write then e.dies else if has then [] else e.readSnoops
    | none => []
  (dies.filter fun d => asker != some d && (s.dies[dieNo d].lineState line).isSome, place.2)

/-- The junction a snoop of a die goes through: the one that resolves where the die links to it, else the lowest one that it links to; none
where every link has failed (R363). -/
def State.snoopPath (s : State) (d j : Nat) : Option Nat := (j :: junctionsOfDie d).find? fun k => s.linked d k

/-- A snoop due at a die waits for a link: the one it goes through is not awake (R363). -/
def State.snoopHeld (s : State) (d j : Nat) : Bool :=
  match s.snoopPath d j with
  | some k => (s.dies[dieNo d]).link k != .awake
  | none => true

/-- A request for a line waits: the line is in recovery, or a snoop of it waits for a link (R355, R361, R363).
(DEDUCED: log entry 89. DEDUCED: log entry 92.) -/
def State.lineWaits (s : State) (line : Nat) (asker : Option Nat) (write : Bool) : Bool :=
  s.pod.recovery.any (·.1 == line) || (s.snooped line asker write).1.any fun d => s.snoopHeld d (s.snooped line asker write).2

/-- The links that snoops of a line wait for wake (R363). -/
def State.wakeSnoops (s : State) (line : Nat) (asker : Option Nat) (write : Bool) : State :=
  let way := s.snooped line asker write
  way.1.foldl (fun (s : State) d =>
    match s.snoopPath d way.2 with
    | some k => if (s.dies[dieNo d]).link k = .asleep then s.modDie (dieNo d) (·.setLink k .waking) else s
    | none => s) s

/-- A die that can hold lines: not gated, dead or excluded (R329, R364, R376). -/
def State.dieServes (s : State) (d : Nat) : Bool :=
  let x := s.dies[dieNo d]
  !x.gated && !x.dead && !x.excluded

end Sys2Proof.Machine
end

