-- ==== Sys2Proof/Machine/Translate.lean ====
section
/-! DEFINITION. From tensor, coordinates and tile table to a frame: descriptors, the mapping, entries, walks, the checks of a tensor
access in their order, and the recording of a traced block's tiles (R176, R182, R183, R201, R268-R280, R341, R342). -/

namespace Sys2Proof.Machine

/-! ## Descriptors (R268-R270) -/

/-- Word n of a descriptor. -/
def descWord (d : List Word) (n : Nat) : Nat := ((d[n]?).getD 0).toNat
def descRank (d : List Word) : Nat := slice (descWord d 0) 61 60 + 1
def descEsz (d : List Word) : Nat := slice (descWord d 0) 55 54
def descOrder (d : List Word) : Nat := slice (descWord d 0) 53 52
/-- log2 of the tile extent in dimension k. -/
def descLt (d : List Word) (k : Nat) : Nat := slice (descWord d 0) (36 + 5 * k) (32 + 5 * k)
def descSlot (d : List Word) : Nat := slice (descWord d 0) 31 24
def descDim (d : List Word) (k : Nat) : Nat := slice (descWord d 1) (16 * k + 15) (16 * k) + 1
def descBase (d : List Word) : Nat := descWord d 2
def descCount (d : List Word) : Nat := slice (descWord d 3) 31 0
def descGuard (d : List Word) : Nat := slice (descWord d 4) 47 0
def descLimit (d : List Word) : Nat := descWord d 5
def descRegion (d : List Word) : Nat := slice (descWord d 6) 11 8
def descDie (d : List Word) : Nat := slice (descWord d 6) 7 0

/-- Tiles along dimension k; 1 beyond the rank (R271). -/
def descTiles (d : List Word) (k : Nat) : Nat :=
  if k < descRank d then (descDim d k + 2 ^ descLt d k - 1) / 2 ^ descLt d k else 1

/-- The bits of g0 and g1 a Z-ordered index interleaves (R272). -/
def descZ (d : List Word) : Nat := max (ceilLog2 (descTiles d 0)) (ceilLog2 (descTiles d 1))

/-- The tile count a descriptor requires (R270, R272). -/
def descRequired (d : List Word) (flat : Bool) : Nat :=
  if flat then descLimit d / 65536
  else if descOrder d = 2 then 4 ^ descZ d * (descTiles d 2 * descTiles d 3)
  else descTiles d 0 * descTiles d 1 * descTiles d 2 * descTiles d 3

/-- Whether an address lies in the HBM4 or siding ranges. -/
def inTierMap (a : Nat) : Bool :=
  match rangeOf a with
  | .hbm _ | .siding _ => true
  | _ => false

/-- A descriptor gives no tensor: V = 0 or malformed (R268, R270).
(DEDUCED: log entry 30.) -/
def descBad (d : List Word) (flat : Bool) : Bool :=
  let w0 := descWord d 0
  slice w0 63 63 = 0
  || slice w0 62 62 != 0 || slice w0 23 0 != 0 || slice (descWord d 2) 63 48 != 0 || slice (descWord d 2) 2 0 != 0
  || slice (descWord d 3) 63 32 != 0 || slice (descWord d 4) 63 48 != 0 || slice (descWord d 6) 63 12 != 0 || descWord d 7 != 0
  || descOrder d = 3
  || descLt d 0 + descLt d 1 + descLt d 2 + descLt d 3 + descEsz d != 16
  || (List.range 4).any (fun k => descRank d ≤ k && (descLt d k != 0 || (!flat && descDim d k != 1)))
  || (descOrder d = 2 && descRank d = 1)
  || (64 ≤ descSlot d && descSlot d ≤ 254)
  || 159 < descDie d
  || !inTierMap (descBase d)
  || descCount d < descRequired d flat
  || (if flat then descRank d != 1 || descEsz d != 0 || descLt d 0 != 16 || descOrder d != 0 || descLimit d = 0
        || descLimit d % 65536 != 0
      else descLimit d != 0)

/-- The eight words of a descriptor in memory. -/
def State.readDesc (s : State) (base id : Nat) : List Word := (List.range 8).map fun i => s.physWord (base + 64 * id + 8 * i)

/-- The descriptor a bank's access sees: the cached copy, else what a walk reads (R277).
(DEDUCED: log entry 29.) -/
def State.descOf (s : State) (n : Nat) (x : Side) (id : Nat) : List Word :=
  let b := s.bank n x
  match (s.row n).dcache.find? (fun e => e.space == b.info.space.toNat && e.tensor == id) with
  | some e => e.words
  | none => s.readDesc b.info.tableBase id

/-- The flat address of a tensor's guard; 0 for none, and for tensor 0 (R255). -/
def State.guardOf (s : State) (n : Nat) (x : Side) (id : Nat) : Nat := if id = 0 then 0 else descGuard (s.descOf n x id)

/-! ## Accesses and the mapping (R182, R183, R201, R271, R272) -/

/-- A tensor access of one core: tensor operand, coordinate operand, the alignment its offset needs, its length, and whether it reads
and writes. -/
structure Acc where
  tensor : Word
  coord  : Word
  align  : Nat
  len    : Nat
  read   : Bool
  write  : Bool
deriving DecidableEq, Repr

/-- The coordinates s[B] packs (R182). -/
def coordOf (w : Word) (k : Nat) : Nat := slice w.toNat (16 * k + 15) (16 * k)

/-- The tile index of tile coordinates g (R272). -/
def tileIndex (d : List Word) (g : Nat → Nat) : Nat :=
  let n := descTiles d
  if descOrder d = 0 then g 0 + n 0 * (g 1 + n 1 * (g 2 + n 2 * g 3))
  else if descOrder d = 1 then (List.range (descRank d)).foldl (fun acc k => g k + n k * acc) 0
  else
    let z := (List.range (descZ d)).foldl (fun acc i => acc + (g 0 / 2 ^ i % 2) * 4 ^ i + (g 1 / 2 ^ i % 2) * 2 * 4 ^ i) 0
    z + 4 ^ descZ d * (g 2 + n 2 * g 3)

/-- Whether some coordinates reach a tile table position below the required count: Z-order leaves positions that none does (R272). -/
def tileReached (d : List Word) (flat : Bool) (idx : Nat) : Bool :=
  let part (off : Nat) : Nat := (List.range (descZ d)).foldl (fun a i => a + idx / 2 ^ (2 * i + off) % 2 * 2 ^ i) 0
  flat || descOrder d != 2 || (decide (part 0 < descTiles d 0) && decide (part 1 < descTiles d 1))

/-- The addresses of a tensor's tile table entries. -/
def descEntries (d : List Word) (flat : Bool) : List Nat :=
  ((List.range (descRequired d flat)).filter (tileReached d flat)).map (descBase d + 8 * ·)

/-- The byte offset within the tile (R271). -/
def tileOffset (d : List Word) (c : Nat → Nat) : Nat :=
  let w k := c k % 2 ^ descLt d k
  2 ^ descEsz d * (w 0 + 2 ^ descLt d 0 * (w 1 + 2 ^ descLt d 1 * (w 2 + 2 ^ descLt d 2 * w 3)))

/-- Where an access lands: tensor id, tile index, offset, and the address of its tile table entry. -/
structure Spot where
  id     : Nat
  tile   : Nat
  offset : Nat
  entry  : Nat
deriving DecidableEq, Repr

/-- An access through the layout unit. -/
def spotOf (d : List Word) (a : Acc) : Spot :=
  let id := a.tensor.toNat
  let idx := if id = 0 then a.coord.toNat / 65536 else tileIndex d fun k => coordOf a.coord k / 2 ^ descLt d k
  let off := if id = 0 then a.coord.toNat % 65536 else tileOffset d (coordOf a.coord)
  ⟨id, idx, off, descBase d + 8 * idx⟩

/-- The descriptor and place of an access of a bank. -/
def State.spot (s : State) (n : Nat) (x : Side) (a : Acc) : Spot := spotOf (s.descOf n x a.tensor.toNat) a

/-! ## Tile table entries (R273-R276) -/

def teState (e : Word) : Nat := slice e.toNat 63 62
def teTier (e : Word) : Nat := slice e.toNat 61 59
def teInterleave (e : Word) : Nat := slice e.toNat 58 57
def teBias (e : Word) : Bool := e.getLsbD 56
def teForm (e : Word) : Bool := e.getLsbD 55
def teWr (e : Word) : Bool := e.getLsbD 54
def teRd (e : Word) : Bool := e.getLsbD 53
def teHome (e : Word) : Nat := slice e.toNat 52 45
def tePanel (e : Word) : Nat := slice e.toNat 44 32
def teFrame (e : Word) : Nat := slice e.toNat 31 0

/-- Whether a frame lies in the control and management range. -/
def frameControl (f : Nat) : Bool := rangeOf (f * 65536) == .control

/-- Whether a frame lies in the range of its tier (R275). -/
def frameInTier (f tier : Nat) : Bool :=
  match rangeOf (f * 65536), tier with
  | .hbm _, 0 | .siding _, 1 | .cxl _, 2 | .host, 3 => true
  | _, _ => false

/-- Whether boot excluded the edge die in a slot (R376). -/
def State.edgeOut (s : State) (slot : Nat) : Bool := (s.edges[(⟨slot % 72, Nat.mod_lt _ (by decide)⟩ : Fin 72)]).excluded

/-- A frame withheld from the map (R34, R376). -/
def State.frameWithheld (s : State) (f : Nat) : Bool :=
  match rangeOf (f * 65536) with
  | .hbm j => (s.juns[junFin j]).excluded
  | .siding d => s.edgeOut (sidingSlot d)
  | .cxl h => s.edgeOut (hostSlot h)
  | .host => s.edgeOut (hostSlot 0) && s.edgeOut (hostSlot 1) && s.edgeOut (hostSlot 2) && s.edgeOut (hostSlot 3)
  | .control | .unmapped => false

/-- An entry names a home junction, or a frame, withheld from the map (R34, R275); a handle is no frame (R284). -/
def State.withheld (s : State) (e : Word) : Bool :=
  tePanel e == s.panelId.toNat &&
  ((s.juns[junFin (teHome e)]).excluded || (decide (teTier e ≤ 3) && s.frameWithheld (teFrame e)))

/-- A malformed entry (R275). -/
def State.entryBad (s : State) (e : Word) : Bool :=
  let live := teState e = 1 || teState e = 2
  let control := live && frameControl (teFrame e)
  teState e = 3 || 5 ≤ teTier e
  || (live && teTier e = 4)
  || (!control && live && !frameInTier (teFrame e) (teTier e))
  || (!control && teTier e = 0 && tePanel e = s.panelId.toNat && teHome e != slice (teFrame e) 27 20)
  || 159 < teHome e
  || s.withheld e

/-- An entry denies an access. -/
def teDenies (e : Word) (a : Acc) : Bool := (a.read && !teRd e) || (a.write && !teWr e)

/-! ## Caches and walks (R277, R278, R345) -/

/-- The cached entry of a tile. -/
def State.cachedEntry (s : State) (n : Nat) (x : Side) (p : Spot) : Option Word :=
  ((s.row n).tcache.find? fun e => e.space == (s.bank n x).info.space.toNat && e.tensor == p.id && e.tile == p.tile).map (·.entry)

/-- The entry that a fresh walk for the present bundle returned, where one has been done. -/
def State.walkedEntry (s : State) (n : Nat) (x : Side) (p : Spot) : Option Word :=
  ((s.row n).walked.find? (·.1 == ⟨x, (s.bank n x).info.space.toNat, p.id, p.tile⟩)).map (·.2)

/-- Whether the descriptor cache holds a bank's tensor (R277). -/
def State.descCached (s : State) (n : Nat) (x : Side) (id : Nat) : Bool :=
  (s.row n).dcache.any fun e => e.space == (s.bank n x).info.space.toNat && e.tensor == id

/-- Whether an access must walk: its descriptor or its entry is not cached, or the entry denies it, and no fresh walk has been done
(R277, R278). -/
def State.mustWalk (s : State) (n : Nat) (x : Side) (a : Acc) : Bool :=
  let p := s.spot n x a
  (s.walkedEntry n x p).isNone &&
  (!s.descCached n x p.id ||
  match s.cachedEntry n x p with
  | none => true
  | some e => teDenies e a)

/-- The entry an access is judged by: what its fresh walk returned, else the cached one. -/
def State.entryOf (s : State) (n : Nat) (x : Side) (p : Spot) : Word :=
  ((s.walkedEntry n x p).orElse fun _ => s.cachedEntry n x p).getD 0

/-- Keep the newest `n` of a cache. -/
def capTo {α : Type} (n : Nat) (l : List α) : List α := l.drop (l.length - n)

/-- A walk that returns an entry, or a move that writes it, tells the home junction of the frame: the entry's and generation word's
addresses, home, bias, age 0; an unattributed frame's word is brought up to %wgen (R283, R345). -/
def State.noteEntry (s : State) (e : Word) (entry genWord : Nat) : State :=
  if (teState e = 1 || teState e = 2) && tePanel e = s.panelId.toNat && !frameControl (teFrame e) then
    let f := teFrame e
    let was := ((s.frameUse f).map (·.unattr)).getD false
    let s := s.touchFrame f (FrameUse.new f) fun u =>
      { u with entry := some entry, genWord := some genWord, age := 0, home := teHome e, hostBias := teBias e, unattr := false }
    if was && s.wgen.toNat > (s.physWord genWord).toNat then s.physWriteWord genWord s.wgen else s
  else s

/-- An entry names a frame of this panel: resident, moving, or the frame that holds the absent tile's data (R273, R283). -/
def State.names (s : State) (e : Word) (frame : Nat) : Bool :=
  tePanel e == s.panelId.toNat && decide (teState e ≤ 2) && decide (teTier e ≤ 3) && teFrame e == frame

/-- A frame that software placed comes into use: the entry `e` it wrote at `entry` names the frame as resident (R282, R283). -/
def State.placeNamed (s : State) (entry : Nat) (e : Word) : State :=
  if teState e = 1 && tePanel e = s.panelId.toNat && !frameControl (teFrame e) then
    s.touchFrame (teFrame e) (FrameUse.new (teFrame e)) fun u =>
      { u with entry := some entry, home := teHome e, hostBias := teBias e, demoted := false }
  else s
/-- The frame that the entry at `entry` now names. -/
def State.placeFrame (s : State) (entry : Nat) : State := s.placeNamed entry (s.physWord entry)

/-- All frames in use. -/
def State.allFrames (s : State) : List FrameUse :=
  s.juns.toList.flatMap (·.frames) ++ s.sidings.toList.flatMap (·.frames) ++ s.cxl.toList.flatMap (·.frames) ++ s.host.frames

/-- The entry of a frame in use now reads as `e`: one that names the frame no more frees it (R282). -/
def State.renameFrame (s : State) (u : FrameUse) (e : Word) : State :=
  if s.names e u.frame then s else s.setFramesAt u.frame fun l => l.filter (·.frame != u.frame)

/-- The entry of a frame in use has been written over: the frame it now names comes into use (R282). -/
def State.noteFrame (s : State) (u : FrameUse) : State :=
  (s.renameFrame u (s.physWord (u.entry.getD 0))).placeFrame (u.entry.getD 0)

/-- `n` bytes from a key on have been written: of the entries of frames in use among them, one that names its frame no more frees it, and
the frame one now names comes into use (R282).
(DESIGN CHOICE: log entry 115.) -/
def State.noteTables (s : State) (key n : Nat) : State :=
  let hit (a : Nat) : Bool := let k := physKey s.panelId.toNat a; decide (key < k + 8) && decide (k < key + n)
  (s.allFrames.filter fun u => u.entry.any hit).foldl State.noteFrame s

/-- A walk: the descriptor, then the entry (R277). Resident and moving entries enter the translation cache, a full cache drops its oldest
entry; the outcome stands for the bundle that waits.
(DESIGN CHOICE: log entry 146.) -/
def State.walk (s : State) (n : Nat) (w : WalkReq) : State :=
  let base := (s.bank n w.side).info.tableBase
  let d := s.readDesc base w.tensor
  let place := descBase d + 8 * w.tile
  let e := s.physWord place
  let bad := s.entryBad e
  let s := if bad then s else s.noteEntry e place (descBase d + 8 * descCount d + 8 * w.tile)
  s.modRow n fun r =>
    let others := r.tcache.filter fun t => !(t.space == w.space && t.tensor == w.tensor && t.tile == w.tile)
    let keep := !bad && (teState e = 1 || teState e = 2)
    { r with
      walks := r.walks.filter (· != w)
      walked := (w, e) :: r.walked.filter (·.1 != w)
      dcache := capTo 64 ((r.dcache.filter fun t => !(t.space == w.space && t.tensor == w.tensor)) ++ [⟨w.space, w.tensor, d⟩])
      tcache := if keep then capTo 512 (others ++ [⟨w.space, w.tensor, w.tile, e, place⟩]) else others }

/-- The oldest walk of a row is served. -/
def State.walkNext (s : State) (n : Nat) : State :=
  match (s.row n).walks with
  | w :: _ => s.walk n w
  | [] => s

/-- The walks a bundle's accesses need are asked for, in ascending core order. -/
def State.askWalks (s : State) (n : Nat) (x : Side) (as : List Acc) : State :=
  let space := (s.bank n x).info.space.toNat
  let ws := (as.filter (s.mustWalk n x)).map fun a => let p := s.spot n x a; (⟨x, space, p.id, p.tile⟩ : WalkReq)
  s.modRow n fun r => { r with walks := ws.foldl (fun l w => if l.contains w then l else l ++ [w]) r.walks }

/-! ## The checks of a tensor access (R176, R201) -/

/-- The address a trap record's word 2 gives for an access: the flat address for tensor 0, else the tensor id (R231). -/
def Acc.address (a : Acc) : Word := if a.tensor = 0 then a.coord else a.tensor

/-- A check of every core's accesses: the trap with the lowest failing core's address and coordinate operand, or clear. -/
def checkAccs (t : Trap) (accs : Fin 64 → List Acc) (fails : Acc → Bool) : Verdict :=
  let first (c : Fin 64) : Option Acc := (accs c).find? fails
  checkCores t (fun c => (first c).isSome) (fun c => ((first c).map (·.address)).getD 0) (fun c => ((first c).map (·.coord)).getD 0)

/-- TENSOR_ID: high bits, an id at or above the count, no descriptor (R182, R268). -/
def State.failsId (s : State) (n : Nat) (x : Side) (a : Acc) : Bool :=
  let b := s.bank n x
  2 ^ 20 ≤ a.tensor.toNat || b.info.tableLen ≤ a.tensor.toNat || descBad (s.descOf n x a.tensor.toNat) (a.tensor.toNat == 0)

/-- TENSOR_RANGE of the coordinates or the flat address (R182, R183). -/
def State.failsRange (s : State) (n : Nat) (x : Side) (a : Acc) : Bool :=
  let d := s.descOf n x a.tensor.toNat
  if a.tensor = 0 then descLimit d ≤ a.coord.toNat
  else (List.range 4).any fun k => if k < descRank d then descDim d k ≤ coordOf a.coord k else coordOf a.coord k != 0

/-- The promotions a tile fault asks for: the entries found absent, each once, with tensor and tile index (R280). -/
def State.faultsOf (s : State) (n : Nat) (x : Side) (as : List Acc) : List (Nat × Nat × Nat) :=
  as.foldl (fun l a =>
    let p := s.spot n x a
    if teState (s.entryOf n x p) = 0 && !l.contains (p.entry, p.id, p.tile) then l ++ [(p.entry, p.id, p.tile)] else l) []

/-- Whether the entry of an access names a frame that is moving: it says so, or its move is under way (R285). -/
def State.moving (s : State) (n : Nat) (x : Side) (a : Acc) : Bool :=
  let p := s.spot n x a
  teState (s.entryOf n x p) == 2 || s.moves.any (·.entry == p.entry)

/-- Steps 1 and 2 of R176 and the span of R201 for the accesses of every core, each check in every core before the next. -/
def checkSpan (i : Issue) (accs : Fin 64 → List Acc) : Verdict :=
  Verdict.seq [
    fun _ => checkAccs .tensorId accs (i.s.failsId i.row i.side),
    fun _ => checkAccs .tensorRange accs (i.s.failsRange i.row i.side),
    fun _ => checkAccs .memAlign accs fun a => (i.s.spot i.row i.side a).offset % a.align != 0,
    fun _ => checkAccs .tensorRange accs fun a => 65536 < (i.s.spot i.row i.side a).offset + a.len]

/-- Step 3: the walks the accesses need. -/
def checkWalks (i : Issue) (accs : Fin 64 → List Acc) : Verdict :=
  let all := allCores.flatMap accs
  if all.any (i.s.mustWalk i.row i.side) then .freeze .walk false (·.askWalks i.row i.side all) else .clear

/-- Steps 1 to 3. -/
def checkReach (i : Issue) (accs : Fin 64 → List Acc) : Verdict :=
  Verdict.seq [fun _ => checkSpan i accs, fun _ => checkWalks i accs]

/-- Tile faults join those a bank has found. -/
def addFaults (l fs : List (Nat × Nat × Nat)) : List (Nat × Nat × Nat) := l ++ fs.filter fun f => !l.contains f

/-- Steps 4 and 5 and the moving frame, once every walk of the bundle has ended: each check in every core before the next. -/
def checkFrames (i : Issue) (walking : Bool) (accs : Fin 64 → List Acc) : Verdict :=
  let s := i.s
  let n := i.row
  let x := i.side
  let entry (a : Acc) : Word := s.entryOf n x (s.spot n x a)
  let control (a : Acc) : Bool := teState (entry a) != 0 && frameControl (teFrame (entry a))
  if walking then .clear
  else Verdict.seq [
    fun _ => checkAccs .tileMalformed accs fun a => s.entryBad (entry a),
    fun _ => checkAccs .privRo accs fun a => control a && !a.write,
    fun _ => checkAccs .privWr accs fun a => control a && a.write,
    fun _ => checkAccs .permFault accs fun a => teDenies (entry a) a,
    fun _ =>
      let fs := s.faultsOf n x (allCores.flatMap accs)
      if fs.isEmpty then .clear
      else .freeze .walk false fun s => s.modBank n x fun b => { b with faults := addFaults b.faults fs, stopReq := some .tileFault },
    fun _ =>
      if allCores.any (fun c => (accs c).any fun a => a.write && s.moving n x a) then .freeze .walk false (fun s => s) else .clear]

/-- Steps 1 to 5 of R176 for the accesses of every core. -/
def checkTensor (i : Issue) (accs : Fin 64 → List Acc) : Verdict :=
  Verdict.seq [fun _ => checkReach i accs, fun _ => checkFrames i false accs]

/-- The physical place of an access that has passed its checks. -/
def State.placeOf (s : State) (n : Nat) (x : Side) (a : Acc) : Place :=
  let p := s.spot n x a
  let e := s.entryOf n x p
  .phys (tePanel e) (teFrame e * 65536 + p.offset) p.entry (s.bank n x).info.space.toNat p.id p.tile
    (descSlot (s.descOf n x a.tensor.toNat))

/-! ## Recording (R341, R342) -/

/-- A list with the first element that meets a condition changed. -/
def mapFirst {α : Type} (p : α → Bool) (f : α → α) : List α → List α
  | [] => []
  | r :: rs => if p r then f r :: rs else r :: mapFirst p f rs

/-- A tile recorded among a block's runs: covered already, extending the lowest entry that touches it, or a new entry; the 65th makes
the block untraced. -/
def recordRun (runs : List Run) (write : Bool) (tensor : BitVec 20) (tile : Nat) : Option (List Run) :=
  let same (r : Run) : Bool := r.write == write && r.tensor == tensor
  let covers (r : Run) : Bool := same r && r.first.toNat ≤ tile && tile < r.first.toNat + r.count.toNat
  let touches (r : Run) : Bool := same r && (r.first.toNat + r.count.toNat == tile || tile + 1 == r.first.toNat)
  let grow (r : Run) : Run :=
    if r.first.toNat + r.count.toNat = tile then { r with count := r.count + 1 } else { r with first := r.first - 1, count := r.count + 1 }
  if runs.any covers then some runs
  else if runs.any touches then some (mapFirst touches grow runs)
  else if runs.length < 64 then some (runs ++ [⟨write, tensor, BitVec.ofNat 32 tile, 1⟩])
  else none

/-- A bank of a traced block records one tile. -/
def Bank.record (b : Bank) (write : Bool) (tensor tile : Nat) : Bank :=
  if b.info.traced && !b.untraced then
    match recordRun b.runs write (BitVec.ofNat 20 tensor) tile with
    | some rs => { b with runs := rs }
    | none => { b with untraced := true }
  else b

/-- The accesses of an issued syllable are recorded (R341). -/
def State.recordAccs (s : State) (n : Nat) (x : Side) (as : List Acc) : State :=
  if (s.bank n x).info.traced then
    as.foldl (fun s a =>
      let p := s.spot n x a
      let s := if a.read then s.modBank n x (·.record false p.id p.tile) else s
      if a.write then s.modBank n x (·.record true p.id p.tile) else s) s
  else s

end Sys2Proof.Machine
end

