-- ==== Sys2Proof/Machine/Memory.lean ====
section
/-! DEFINITION. Operations that have issued and perform later: reads and writes at a place, atomics, phase objects, locks, discards,
copies, reductions, sealing, messages; what a release covers and when it is complete; in which order operations may perform (R177,
R186-R194, R202-R213, R237, R238, R246-R266). -/

namespace Sys2Proof.Machine

/-! ## Places -/

/-- The view an access at a place reads memory under: none where its tensor names no key slot (R276, R381). -/
def Place.view : Place → Option View
  | .phys _ _ _ space tensor tile slot => if slot < 64 then some ⟨slot, space, tensor, tile⟩ else none
  | .ls _ _ _ => none

/-- The key slot of a place. -/
def Place.slot : Place → Nat
  | .phys _ _ _ _ _ _ slot => slot
  | .ls _ _ _ => 255

/-- The slot tag of a cached line (R381). -/
def slotTag (slot : Nat) : Option (Fin 64) := if h : slot < 64 then some ⟨slot, h⟩ else none

/-- The slot of a view holds no key. -/
def State.keyless (s : State) (v : Option View) : Bool := v.any fun w => s.slots[slotFin64 w.slot].key.isNone

/-- The bytes at a place. -/
def State.readPlace (s : State) (p : Place) (n : Nat) : List Byte :=
  match p with
  | .ls row core byte => Memory.read (s.row row).cores[core].ls byte n
  | .phys panel addr _ _ _ _ _ => s.keyRead p.view (physKey panel addr) n
def State.placeWord (s : State) (p : Place) : Word := wordOfBytes (s.readPlace p 8)

/-- Whether the bytes at a place meet a ciphertext line; a poisoned line, which every line read under an erased slot is (R381). -/
def State.placeCipher (s : State) (p : Place) (n : Nat) : Bool :=
  match p with
  | .ls row core byte => (s.row row).cores[core].anyCipher byte n
  | .phys panel addr _ _ _ _ _ => (linesOf (physKey panel addr) n).any s.memCipher
def State.placePoison (s : State) (p : Place) (n : Nat) : Bool :=
  match p with
  | .ls row core byte => (s.row row).cores[core].anyPoison byte n
  | .phys panel addr _ _ _ _ _ => s.keyless p.view || (linesOf (physKey panel addr) n).any s.memPoison

/-- A place `k` bytes on. -/
def Place.shift (p : Place) (k : Nat) : Place :=
  match p with
  | .ls row core byte => .ls row core (byte + k)
  | .phys panel addr entry space tensor tile slot => .phys panel (addr + k) entry space tensor tile slot

/-- Whether two runs of bytes share one. -/
def Place.meets (p : Place) (n : Nat) (q : Place) (m : Nat) : Bool :=
  match p, q with
  | .ls r c a, .ls r' c' b => r == r' && c == c' && a < b + m && b < a + n
  | .phys w a _ _ _ _ _, .phys w' b _ _ _ _ _ => w == w' && a < b + m && b < a + n
  | _, _ => false

/-- The flat address of a place in tensor 0. -/
def Place.flat : Place → Nat
  | .phys _ addr _ _ _ tile _ => tile * 65536 + addr % 65536
  | .ls _ _ byte => byte

/-- The address word 2 of a trap record gives for a place (R231): the flat address in tensor 0, else the tensor id; in local store the
address in a window that begins at `base`, or with `quad` in the quad window (R30, R32). -/
def Place.address (base : Nat) (quad : Bool) : Place → Nat
  | .phys _ addr _ _ tensor tile _ => if tensor = 0 then tile * 65536 + addr % 65536 else tensor
  | .ls _ core byte => (if quad then core.val % 4 * 0xC000 else 0) + (byte - base)

/-! ## Global reads and writes (R207, R251, R345, R366, R381, R382) -/

/-- The lines of this panel that bytes at an address touch, as the directories name them. -/
def panelLines (addr n : Nat) : List Nat := linesOf addr n

/-- A die's caches read the lines of an access. -/
def State.cacheRead (s : State) (die : Nat) (p : Place) (n : Nat) : State :=
  match p with
  | .phys panel addr _ _ _ _ slot =>
    if panel = s.panelId.toNat then (panelLines addr n).foldl (fun s l => s.readLine die l (slotTag slot)) s else s
  | .ls _ _ _ => s

/-- A read at the home execution point: every cached copy of the lines is recalled (R177, R267). -/
def State.homeRead (s : State) (p : Place) (n : Nat) : State :=
  match p with
  | .phys panel addr _ _ _ _ _ => if panel = s.panelId.toNat then (panelLines addr n).foldl (·.recallLine ·) s else s
  | .ls _ _ _ => s

/-- A line's generation is reported once under each value of %wgen (R345). -/
def State.reportOnce (s : State) (die line : Nat) : State :=
  let c := s.dies[dieNo die].cache.find? (·.line == line)
  if (c.bind (·.reported)) = some s.wgen then s
  else
    let s := s.reportGeneration (line / 1024)
    s.modDie (dieNo die) fun d => { d with cache := d.cache.map fun k => if k.line == line then { k with reported := some s.wgen } else k }

/-- A die takes the lines of an access for a write, or, at a home execution point, every cached copy is recalled (R177); generations
are reported. -/
def State.cacheOwn (s : State) (die : Nat) (atHome : Bool) (p : Place) (n : Nat) : State :=
  match p with
  | .phys panel addr _ _ _ _ slot =>
    if panel = s.panelId.toNat then
      (panelLines addr n).foldl (fun s l =>
        if atHome then (s.recallToWrite l).reportGeneration (l / 1024)
        else (s.ownLine die l (slotTag slot)).reportOnce die l) s
    else s
  | .ls _ _ _ => s

/-- A line stored under a view: with its slot and epoch, poisoned when the slot holds no key; a line that reads as poison stays so unless the
whole of it was written (R381, R386 step 5).
(DEDUCED: log entry 93.) -/
def State.sealLine (s : State) (line : Nat) (v : Option View) (whole : Bool) : State :=
  match v with
  | none => s
  | some w =>
    if !whole && s.memPoison line then s
    else if s.keyless v then { s with poison := insertNat line s.poison }
    else { s with sealed := Sparse.put s.sealed line ⟨w, (s.slots[slotFin64 w.slot]).epoch.toNat⟩ }

/-- The bytes held back for a move with one more. -/
def holdByte (held : List (Nat × Byte)) (i : Nat) (b : Byte) : List (Nat × Byte) := held.filter (·.1 != i) ++ [(i, b)]

/-- Software has written `n` bytes from a key on. Over the entry of a move under way the write is held until the move's final step: the entry
keeps the bytes it had (R286). -/
def State.holdMoves (s before : State) (key n : Nat) : State :=
  (s.moves.foldl (fun s m =>
    let k := physKey s.panelId.toNat m.entry
    let mine := (List.range 8).filter fun i => decide (key ≤ k + i) && decide (k + i < key + n)
    if mine.isEmpty then s
    else
      { s with moves := s.moves.map fun o => if o.id = m.id
                 then { o with held := mine.foldl (fun l i => holdByte l i (Memory.byte s.mem (k + i))) o.held } else o
               mem := Memory.write s.mem k (Memory.read before.mem k 8) }) s).noteTables key n

/-- Plain bytes written at a place: into a local store, or into memory with the lines sealed under the tensor's slot. -/
def State.writePlace (s : State) (p : Place) (bs : List Byte) : State :=
  match p with
  | .ls row core byte => s.modCore row core (·.lsWrite byte bs)
  | .phys panel addr _ _ _ _ _ =>
    let key := physKey panel addr
    let t := s.openLines p.view key bs.length
    ((linesOf key bs.length).foldl (fun s l => s.sealLine l p.view (coversLine key bs.length l)) (t.keyWrite key bs)).holdMoves
      t key bs.length

/-- One whole line written with its form bit and poison state. -/
def State.writePlaceLine (s : State) (p : Place) (bs : List Byte) (cipher poison : Bool) : State :=
  match p with
  | .ls row core byte => s.modCore row core (·.lsWriteLine byte bs cipher poison)
  | .phys panel addr _ _ _ _ _ =>
    let key := physKey panel addr
    let t := s.openLines p.view key 64
    let u := t.keyWriteLine key bs cipher poison
    (if poison then u else u.sealLine (key / 64) p.view true).holdMoves t key 64

/-- Whether a place belongs to a frame of another panel (R253).
(DEDUCED: log entry 31.) -/
def State.offPanel (s : State) : Place → Bool
  | .phys panel _ _ _ _ _ _ => panel != s.panelId.toNat
  | .ls _ _ _ => false

/-- The writes among some places that go to frames of another panel. -/
def State.offWrites (s : State) (ps : List Place) : Nat := (ps.filter s.offPanel).length

/-- The bank's acknowledgement counter counts writes off the panel as they issue (R253). -/
def State.countWrites (s : State) (n : Nat) (x : Side) (ps : List Place) : State :=
  if s.offWrites ps = 0 then s else s.modBank n x fun b => { b with acks := b.acks + s.offWrites ps }

/-- A write to a frame off the panel, counted at its issue, waits for its acknowledgement (R253). -/
def State.awaitAck (s : State) (q : Pending) (p : Place) : State :=
  if s.offPanel p then { s with nextId := s.nextId + 1, pend := s.pend ++ [{ q with id := s.nextId, due := none, op := .ack, poison := false, inOrder := false }] } else s

/-- A release's own write off the panel is counted once its release is complete and it is sent (R253, R255). -/
def State.countAck (s : State) (q : Pending) (p : Place) : State :=
  if s.offPanel p then s.modBank q.row q.side fun b => { b with acks := b.acks + 1 } else s

/-- A counted write that an error keeps from performing is acknowledged as it is dropped. -/
def State.dropAck (s : State) (q : Pending) (p : Place) : State :=
  if s.offPanel p then s.modBank q.row q.side fun b => { b with acks := b.acks - 1 } else s

/-! ## What a release covers (R252, R254, R255, R262) -/

/-- A scope's place in the order of R7. -/
def scopeRank : Scope → Nat
  | .lane => 0 | .core => 1 | .quad => 2 | .row => 3 | .die => 4 | .region => 5 | .panel => 6 | .pod => 7 | .system => 8

/-- Whether a scope's execution point is the home junction (R177). -/
def scopeAtHome (sc : Scope) : Bool := 5 ≤ scopeRank sc

/-- Whether a place lies within a scope's reach for a core of a row (R252). -/
def State.inReach (s : State) (sc : Scope) (row : Nat) (core : Fin 64) : Place → Bool
  | .ls r c _ =>
    (match sc with
      | .lane => false
      | .core => r == row && c == core
      | .quad => r == row && c.val / 4 == core.val / 4
      | _ => true)
  | .phys panel addr _ _ _ _ _ =>
    if panel = s.panelId.toNat then
      (match rangeOf addr with
        | .hbm _ | .siding _ => 3 ≤ scopeRank sc
        | _ => sc == .system)
    else 7 ≤ scopeRank sc

/-- Whether a place lies within a scope's reach for some core of a row's bank, each of which runs its fences: at core and quad scope every
local store of the row does (R110, R252, R254). -/
def inRowReach (s : State) (sc : Scope) (row : Nat) (p : Place) : Bool :=
  match p with
  | .ls r _ _ => sc != .lane && (3 ≤ scopeRank sc || r == row)
  | p => s.inReach sc row 0 p

/-- Whether an operation is an engine's (R206, R260). -/
def PendOp.engine : PendOp → Bool
  | .copyIn .. | .copyOut .. | .copyLocal .. | .send .. | .red .. | .cipher .. => true
  | _ => false

/-- The bytes an operation writes: the core it acts for, the first byte's place, how many; of a lock request the words it waits for. -/
def Pending.writes (q : Pending) : List (Fin 64 × Place × Nat) :=
  match q.op with
  | .load .. | .ack | .send .. => []
  | .store p d => [(q.core, p, d.length)]
  | .atom _ t _ _ _ ts => ts.map fun x => (x.1, x.2.1, if t = .i64 then 8 else 4)
  | .arrive _ _ ts => ts.map fun x => (x.1, x.2.1, 64)
  | .lock _ _ ts => (ts.filter fun x => !x.2.2).map fun x => (x.1, x.2.1, 8)
  | .unlock _ _ ts => ts.map fun x => (x.1, x.2, 8)
  | .discard p n => [(q.core, p, 64 * n)]
  | .copyIn _ _ ls _ => ls.map fun x => (q.core, .ls q.row q.core x.2, 64)
  | .copyOut _ _ ls => ls.map fun x => (q.core, x.2, 64)
  | .copyLocal _ _ _ t d n => [(q.core, .ls q.row t d, n)]
  | .red _ _ _ ts => ts.map fun x => (x.1, x.2.1, 128)
  | .cipher _ sealing _ d b n _ _ _ _ =>
    (q.core, .ls q.row q.core d, n) :: if sealing then [(q.core, .ls q.row q.core (b + 32), 16)] else []

/-- The bytes an operation reads. -/
def Pending.reads (q : Pending) : List (Fin 64 × Place × Nat) :=
  match q.op with
  | .load _ p n _ => [(q.core, p, n)]
  | .atom _ t _ ret _ ts => if ret then ts.map fun x => (x.1, x.2.1, if t = .i64 then 8 else 4) else []
  | .copyIn _ _ ls _ => ls.map fun x => (q.core, x.1, 64)
  | .copyOut _ _ ls => ls.map fun x => (q.core, .ls q.row q.core x.1, 64)
  | .copyLocal _ _ a _ _ n => [(q.core, .ls q.row q.core a, n)]
  | .cipher _ _ a _ _ n _ _ _ _ => [(q.core, .ls q.row q.core a, n)]
  | .store .. | .ack | .arrive .. | .lock .. | .unlock .. | .discard .. | .send .. | .red .. => []

/-- The bytes an operation reads or writes. -/
def Pending.spans (q : Pending) : List (Fin 64 × Place × Nat) := q.reads ++ q.writes

/-- The bytes an operation of AG still has to return to its bank: a load's, or an atomic's. -/
def Pending.returns (q : Pending) : List (Fin 64 × Place × Nat) := if q.op.engine then [] else q.reads

/-- The guard named by the tensor a place was reached through. -/
def State.placeGuard (s : State) (n : Nat) (x : Side) : Place → Nat
  | .phys _ _ _ _ tensor _ _ => s.guardOf n x tensor
  | .ls _ _ _ => 0

/-- An operation leaves a fence of a scope open: it writes within the reach of some core of the bank, has yet to return data from there, or
is a send (R110, R252, R254). -/
def State.fenceOpen (s : State) (n : Nat) (sc : Scope) (q : Pending) : Bool :=
  (match q.op with
    | .send .. => true
    | _ => false)
  || (q.writes ++ q.returns).any fun y => inRowReach s sc n y.2.1

/-- A fence, barrier or publication of a scope is complete: no operation of the bank that it covers is outstanding, and at pod and
system scope the acknowledgement counter is zero (R110, R252, R253).
(DEDUCED: log entry 48.) -/
def State.fenceClear (s : State) (n : Nat) (x : Side) (sc : Scope) : Bool :=
  (s.pend.all fun q => !(q.row == n && q.side == x) || !s.fenceOpen n sc q)
  && (scopeRank sc < 7 || (s.bank n x).acks = 0)

/-- Whether a release on an object covers a write of a core: at core and quad scope every write into local store in its reach, wider
those made through a tensor that names the object (R254, R255). -/
def State.releaseCovers (s : State) (n : Nat) (x : Side) (sc : Scope) (core : Fin 64) (guard : Nat) (p : Place) : Bool :=
  s.inReach sc n core p &&
  (match p with
    | .ls _ _ _ => decide (scopeRank sc ≤ 2)
    | p => guard != 0 && s.placeGuard n x p == guard)

/-- A guarded release of a core, or of every core, on an object, issued in a given cycle, is complete: every write it covers has been
performed, and every load of the bank within its reach has returned (R252, R255, R257). The extent of an operation of the row as a whole is
core 0's.
(DEDUCED: log entry 107. DEDUCED: log entry 137.) -/
def State.releaseClear (s : State) (n : Nat) (x : Side) (sc : Scope) (byRow : Bool) (core : Fin 64) (guard cycle : Nat) : Bool :=
  (s.pend.all fun q =>
    !(q.row == n && q.side == x && decide (q.cycle < cycle)) ||
    (q.writes.all (fun y => !((byRow || y.1 == core) && s.releaseCovers n x sc core guard y.2.1))
      && q.returns.all fun y => !s.inReach sc n core y.2.1))
  && (scopeRank sc < 7 || (s.bank n x).acks = 0)

/-- A send's release is complete: every write its core issued in earlier bundles within the reach has been performed, and every load of
the bank from there has returned (R252, R257, R262).
(DEDUCED: log entry 107.) -/
def State.sendClear (s : State) (n : Nat) (x : Side) (core : Fin 64) (sc : Scope) (cycle : Nat) : Bool :=
  (s.pend.all fun q =>
    !(q.row == n && q.side == x && decide (q.cycle < cycle)) ||
    (q.writes.all (fun y => !(y.1 == core && s.inReach sc n core y.2.1)) && q.returns.all fun y => !s.inReach sc n core y.2.1))
  && (scopeRank sc < 7 || (s.bank n x).acks = 0)

/-- The acknowledgements a bank awaits once the releases it has issued have been sent: those counted, and its releases' own writes to
other panels, counted as they are sent (R253, R255). -/
def State.acksDue (s : State) (n : Nat) (x : Side) : Nat :=
  s.pend.foldl (fun k q => k +
    (if q.row == n && q.side == x then
      (match q.op with
        | .arrive .. | .unlock .. => s.offWrites (q.writes.map (·.2.1))
        | _ => 0)
    else 0)) (s.bank n x).acks

/-! ## Arrival handlers (R237-R239) -/

/-- A message's sender word: panel 32:20, row 19:6, core 5:0, bank bit 33 (R238). -/
def Message.sender (m : Message) : Word :=
  BitVec.ofNat 64 ((if m.fromSide = .b then 2 ^ 33 else 0) + m.fromPanel.toNat * 2 ^ 20 + m.fromRow * 64 + m.fromCore.val)

/-- A bank is armed and able to take messages: neither failed nor killed (R237-R239). -/
def Bank.takesMessages (b : Bank) : Bool :=
  b.armed.isSome && b.phase != .empty && b.phase != .failed && b.phase != .killed

/-- The armed bank of a row: dormant, running a handler, or with one that is stopped or has not yet completed. -/
def Row.armedSide (r : Row) : Option Side :=
  if r.a.takesMessages then some .a else if r.b.takesMessages then some .b else none
/-- A handler starts in the armed bank: the target core gets payload, sender, tag and q1 = ones, every other core q1 = zeros, with no
shadow; the bank is ready at the message's entry, or at the armed one for an entry of 0 (R238). -/
def Row.startHandler (r : Row) (x : Side) (m : Message) : Row :=
  let r := r.mapBanks x fun c b =>
    if c = m.core then
      { b with v := b.v.set 0 m.payload, s := (b.s.set 1 m.sender).set 2 (m.tag.setWidth 64), q := b.q.set 1 (BitVec.allOnes 128)
               badV := if m.poison then b.badV ||| 1 else b.badV &&& ~~~ 1, badS := b.badS &&& ~~~ 6, badQ := b.badQ &&& ~~~ 2 }
    else { b with q := b.q.set 1 0, badQ := b.badQ &&& ~~~ 2 }
  r.modBank x fun b => { b with pc := if m.entry = 0 then b.armed.getD 0 else m.entry, phase := .run }

/-- A row takes a message: into a handler when the armed bank is dormant, else into its queue (R238). -/
def Row.takeMessage (r : Row) (m : Message) : Row :=
  match r.armedSide with
  | some x => if (r.bank x).phase = .dormant then r.startHandler x m else { r with arrivals := r.arrivals ++ [m] }
  | none => r

/-- The oldest queued message starts a handler in a dormant armed bank. -/
def Row.nextHandler (r : Row) : Row :=
  match r.armedSide, r.arrivals with
  | some x, m :: ms => if (r.bank x).phase = .dormant then { (r.startHandler x m) with arrivals := ms } else r
  | _, _ => r

/-- What becomes of a message of a world at a row (R209, R210): refused, taken, or waiting for room. -/
inductive Delivery where
  | refuse
  | take
  | wait
deriving DecidableEq, Repr

/-- The fate of a message. A message to another panel that the pod maps is taken there.
(DESIGN CHOICE: log entry 108.) -/
def State.delivery (s : State) (world : Byte) (panel : Nat) (target : Nat) : Delivery :=
  if panel != s.panelId.toNat then
    (if s.pod.failed.contains (BitVec.ofNat 13 panel) || !Config.podMaps (BitVec.ofNat 13 panel) then .refuse else .take)
  else
    let r := s.row target
    match r.armedSide with
    | none => .refuse
    | some x =>
      if (r.bank x).info.world != world then .refuse
      else if (r.bank x).phase = .dormant || r.arrivals.length < 16 then .take
      else .wait

/-! ## Which operation may perform (R187, R192, R206, R210, R213, R248, R249) -/

/-- An access to bytes of frames of this panel waits for a line (R355, R361, R363). -/
def State.placeWaits (s : State) (p : Place) (n : Nat) (asker : Option Nat) (write : Bool) : Bool :=
  match p with
  | .phys panel addr _ _ _ _ _ => panel = s.panelId.toNat && (linesOf addr n).any fun l => s.lineWaits l asker write
  | .ls _ _ _ => false

/-- The die whose cache an operation goes through; none for one executed at the home junction (R177). -/
def Pending.asker (q : Pending) : Option Nat :=
  let atHome := match q.op with
    | .atom _ _ sc _ _ _ | .arrive sc _ _ | .lock sc _ _ | .unlock sc _ _ | .red _ _ sc _ => scopeAtHome sc
    | _ => false
  if atHome then none else some (dieOf q.row)

/-- Whether two lists of bytes share one that the same core acts on. -/
def spansMeet (l k : List (Fin 64 × Place × Nat)) : Bool :=
  l.any fun y => k.any fun z => y.1 == z.1 && y.2.1.meets y.2.2 z.2.1 z.2.2

/-- Whether two lists of bytes share one of a frame, whoever acts on it. -/
def framesMeet (l k : List (Fin 64 × Place × Nat)) : Bool :=
  l.any fun y => (match y.2.1 with
    | .phys .. => true
    | .ls .. => false) && k.any fun z => y.2.1.meets y.2.2 z.2.1 z.2.2

/-- Whether an operation is a lock acquisition. -/
def PendOp.isLock : PendOp → Bool
  | .lock .. => true
  | _ => false

/-- Whether an operation performs as its bundle issues, and not of itself: a release of a lock (R67, R193). -/
def PendOp.atIssue : PendOp → Bool
  | .unlock .. => true
  | _ => false

/-- Whether an earlier operation holds a later one back. Of one core of a bank (R184, R206, R210, R213, R240, R248, R249): they act for it on
one byte and the earlier is no engine's, or both write it and only the earlier is an engine's; both are stores of one segment store buffer,
or cipher operations; or both are sends of one core to one core of this panel. Of the whole panel: they act on one byte of a frame and
one of them writes it, so that each byte's writes and reads keep the order of issue whatever stands between them (R248, R257, R258). An
acquisition, which waits for what is yet to be issued, holds nothing.
(DEDUCED: log entry 109. DEDUCED: log entry 138.) -/
def Pending.holds (q p : Pending) : Bool :=
  !q.op.isLock &&
  (q.row == p.row && q.side == p.side &&
    (q.inOrder && p.inOrder && q.core == p.core
    || (if q.op.engine then !p.op.engine && spansMeet q.writes p.writes else spansMeet q.spans p.spans)
    || (match q.op, p.op with
      | .cipher .., .cipher .. => q.core == p.core
      | _, _ => false))
  || (match q.op, p.op with
    | .send _ w t m _, .send _ w' t' m' _ =>
      q.row == p.row && q.core == p.core && w == m.fromPanel.toNat && w == w' && t == t' && m.core == m'.core
    | _, _ => false)
  || framesMeet q.writes p.spans || framesMeet q.reads p.writes)

/-- An operation of a core's own bank, not an engine's, on bytes at a place is still to perform: an access the core makes there in its
issue cycle waits for it (R184, R248). -/
def State.ownPending (s : State) (n : Nat) (x : Side) (c : Fin 64) (p : Place) (len : Nat) : Bool :=
  s.pend.any fun q => q.row == n && q.side == x && !q.op.engine && !q.op.isLock && !q.op.atIssue && spansMeet q.spans [(c, p, len)]

/-- The arrivals of a syllable that may perform now, in ascending core number: each whose own release is complete, that nothing earlier holds
back, and before which no arrival of the syllable at its object waits (R189, R250, R255).
(DEDUCED: log entry 139.) -/
def State.arrivalsDue (s : State) (q : Pending) (sc : Scope) (byRow : Bool) (ts : List (Fin 64 × Place × Flags)) : List (Fin 64 × Place × Flags) :=
  let earlier := s.pend.takeWhile (·.id != q.id)
  (ts.foldl (fun (a : List (Fin 64 × Place × Flags) × List Place) t =>
    if s.releaseClear q.row q.side sc byRow t.1 t.2.1.flat q.cycle && !s.placeWaits t.2.1 64 q.asker true
      && earlier.all (fun e => !e.holds { q with op := .arrive sc byRow [t] }) && a.2.all fun p => !p.meets 64 t.2.1 64
    then (a.1 ++ [t], a.2) else (a.1, a.2 ++ [t.2.1])) ([], [])).1

/-- What an operation itself waits for: a release for what it covers, a lock for a free word and its turn, a message for room. -/
def State.opReady (s : State) (q : Pending) : Bool :=
  match q.op with
  | .arrive sc byRow ts => !(s.arrivalsDue q sc byRow ts).isEmpty
  | .unlock sc byRow ts => ts.all fun t => s.releaseClear q.row q.side sc byRow t.1 t.2.flat q.cycle
  | .lock _ _ ts => ts.any fun t => !t.2.2 && s.placeWord t.2.1 == 0 &&
      (s.pend.takeWhile (·.id != q.id)).all fun e =>
        match e.op with
        | .lock _ _ us => us.all fun u => u.2.2 || !(u.2.1.meets 8 t.2.1 8)
        | _ => true
  | .send _ panel target m sc =>
    s.sendClear q.row q.side m.fromCore sc q.cycle && s.delivery (s.bank q.row q.side).info.world panel target != .wait
  | _ => true

/-- Nothing holds an operation back; of a syllable's arrivals, some one. -/
def State.unheld (s : State) (q : Pending) : Bool :=
  (match q.op with
    | .arrive .. => true
    | _ => (s.pend.takeWhile (·.id != q.id)).all (fun e => !e.holds q)
      && q.reads.all (fun y => !s.placeWaits y.2.1 y.2.2 q.asker q.asker.isNone) && q.writes.all fun y => !s.placeWaits y.2.1 y.2.2 q.asker true)
  && s.opReady q

/-- An operation may perform of itself now: nothing holds it back, and, where a local-store port performs it, its cycle has gone by or its
bank runs no more (R250). -/
def State.enabled (s : State) (q : Pending) : Bool :=
  !q.op.atIssue && s.unheld q && q.due.all fun d => decide (d < (s.bank q.row q.side).cycle) || (s.bank q.row q.side).phase != .run

/-! ## Performing -/

/-- The operation leaves the list. -/
def State.retire (s : State) (q : Pending) : State := { s with pend := s.pend.filter (·.id != q.id) }

/-- Whether an operation reaches local store through the quad window (R177). -/
def PendOp.quad : PendOp → Bool
  | .atom _ _ sc _ _ _ | .arrive sc _ _ => sc == .quad
  | _ => false

/-- The address the record of an error at a place of an operation gives (R231). -/
def State.errorAddress (s : State) (q : Pending) (p : Place) : Word :=
  BitVec.ofNat 64 (p.address (s.bank q.row q.side).winBase q.op.quad)

/-- Post an error that carries no engine number (R178). -/
def State.postPlain (s : State) (q : Pending) (t : Trap) (core : Fin 64) (p : Place) : State :=
  s.post q.row q.side ⟨t, none, s.errorAddress q p, BitVec.twoPow 64 core.val⟩
/-- Post an engine's error (R208). -/
def State.postEngine (s : State) (q : Pending) (t : Trap) (engine : Fin 8) (number : Nat) (core : Fin 64) (p : Place) : State :=
  s.post q.row q.side ⟨t, some (engine, number), s.errorAddress q p, BitVec.twoPow 64 core.val⟩

/-- Bytes of a place with the buffered stores a load sees laid over them (R241). -/
def overlay (p : Place) (bs : List Byte) (seen : List BufferedStore) : List Byte :=
  (List.range bs.length).map fun i =>
    seen.foldl (fun b st =>
      match (List.range st.data.length).find? (fun j => (p.shift i).meets 1 (st.place.shift j) 1) with
      | some j => (st.data[j]?).getD b
      | none => b) ((bs[i]?).getD 0)

/-- A request is answered, with the physical address of the line whose poison it takes along (R180, R181, R367). -/
def CoreBank.answerLoad (b : CoreBank) (id : Nat) (data : Vec) (cipher poison : Bool) (line : Nat) : CoreBank :=
  { b with loads := b.loads.map fun r =>
      if r.id = id ∧ r.data = none then { r with data := some data, cipher := cipher, poison := poison, line := line } else r }

/-- The physical address of the first poisoned line among bytes of a frame; 0 for none. -/
def State.poisonAt (s : State) (p : Place) (n : Nat) : Nat :=
  match p with
  | .phys panel addr _ _ _ _ _ => (((linesOf addr n).find? fun l => s.memPoison (physKey panel (64 * l) / 64)).map (64 * ·)).getD 0
  | .ls _ _ _ => 0

def State.performLoad (s : State) (q : Pending) (req : Nat) (p : Place) (len : Nat) (seen : List BufferedStore) : State :=
  let s := s.cacheRead (dieOf q.row) p len
  let bs := overlay p (s.readPlace p len) seen
  s.modCoreBank q.row q.side q.core
    (·.answerLoad req (BitVec.ofNat 1024 (natOfBytes bs)) (s.placeCipher p len)
      (q.poison || s.placePoison p len || seen.any fun st => st.poison && p.meets len st.place st.data.length) (s.poisonAt p len))

/-- A store: a write of part of a ciphertext line is not performed and FORM_FAULT is posted (R382). -/
def State.performStore (s : State) (q : Pending) (p : Place) (bs : List Byte) : State :=
  if bs.length < 64 && s.placeCipher p bs.length then (s.postPlain q .formFault q.core p).dropAck q p
  else ((s.cacheOwn (dieOf q.row) false p bs.length).writePlace p bs).awaitAck q p

/-- The new value of an atomic: operation, type, old value, operand, compare value, all at the type's width (R186). -/
def atomValue (op : Fin 8) (t : AType) (x b c : Nat) : Nat :=
  let w := match t with
    | .i64 => 64
    | _ => 32
  let float := t == .f32
  match op.val with
  | 0 => if float then (fAdd .fp32 false x b).1 else (x + b) % 2 ^ w
  | 1 => if float then (fMinMax .fp32 false x b).1 else if signext x w ≤ signext b w then x else b
  | 2 => if float then (fMinMax .fp32 true x b).1 else if signext x w ≤ signext b w then b else x
  | 3 => x &&& b
  | 4 => x ||| b
  | 5 => x ^^^ b
  | 6 => b
  | _ => if x = c then b else x

/-- Bytes of a place as an operation of a core's port finds them, in the issue cycle its bank has come to (R220, R250). -/
def State.portRead (s : State) (q : Pending) (c : Fin 64) (p : Place) (n : Nat) : List Byte :=
  match p with
  | .ls row t byte => Memory.read ((s.row row).storeAt q.side c t (s.bank row q.side).cycle).ls byte n
  | p => s.readPlace p n
/-- Bytes that such an operation writes. -/
def State.portWrite (s : State) (q : Pending) (c : Fin 64) (p : Place) (bs : List Byte) : State :=
  match p with
  | .ls row t byte => s.modRow row fun r => r.writeAt q.side c t (r.bank q.side).cycle [(byte, bs)]
  | p => s.writePlace p bs

/-- One core's atomic (R186, R366, R382). -/
def State.performAtomOne (s : State) (q : Pending) (op : Fin 8) (t : AType) (sc : Scope) (ret : Bool) (req : Nat)
    (x : Fin 64 × Place × Word × Word) : State :=
  let w := if t = .i64 then 8 else 4
  let core := x.1
  let p := x.2.1
  let old := natOfBytes (s.portRead q core p w)
  let cipher := s.placeCipher p w
  let poison := s.placePoison p w
  let value : Word := if t = .f32 then BitVec.ofNat 64 old else BitVec.ofInt 64 (signext old (8 * w))
  let s := if ret then s.modCoreBank q.row q.side core (·.answerLoad req (value.setWidth 1024) cipher poison (s.poisonAt p w)) else s
  if cipher then (if ret then s else s.postPlain q .formFault core p).dropAck q p
  else if poison then (if ret then s else s.postPlain q .cipherPoison core p).dropAck q p
  else
    let new := atomValue op t old (x.2.2.1.toNat % 2 ^ (8 * w)) (x.2.2.2.toNat % 2 ^ (8 * w))
    ((s.cacheOwn (dieOf q.row) (scopeAtHome sc) p w).portWrite q core p (bytesOfNat new w)).awaitAck q p

/-- A phase object's fields, and whether it is malformed (R188). -/
def phaseBad (bs : List Byte) : Bool :=
  let x := natOfBytes bs
  x / 2 ^ 160 != 0 || slice x 159 134 != 0 || slice x 127 102 != 0 || slice x 95 65 != 0
def phaseParity (bs : List Byte) : Bool := slice (natOfBytes bs) 64 64 == 1
def phaseLast (bs : List Byte) : Nat := slice (natOfBytes bs) 133 128

/-- A phase object after an arrival with mask m (R189). -/
def phaseArrive (bs : List Byte) (m : Flags) : List Byte :=
  let x := natOfBytes bs
  let expected := slice x 31 0
  let arrivals := (slice x 63 32 + 1) % 2 ^ 32
  let parity := slice x 64 64
  let opened : Nat := (BitVec.ofNat 6 (slice x 101 96) ||| m).toNat
  let y := if arrivals = expected then
      expected + (1 - parity) * 2 ^ 64 + opened * 2 ^ 128
    else expected + arrivals * 2 ^ 32 + parity * 2 ^ 64 + opened * 2 ^ 96 + slice x 133 128 * 2 ^ 128
  bytesOfNat y 64

/-- One arrival at its execution point (R178, R189). At a ciphertext line it is not performed, as a write that is no whole line's own; a
poisoned line stays poisoned, its object updated.
(DEDUCED: log entry 140.) -/
def State.performArriveOne (s : State) (q : Pending) (sc : Scope) (x : Fin 64 × Place × Flags) : State :=
  let p := x.2.1
  let bs := s.portRead q x.1 p 64
  if s.placeCipher p 64 then s.postPlain q .formFault x.1 p
  else if phaseBad bs then s.postPlain q .syncMalformed x.1 p
  else
    let poison := s.placePoison p 64
    let s := (s.cacheOwn (dieOf q.row) (scopeAtHome sc) p 64).countAck q p
    (if poison then s.writePlaceLine p (phaseArrive bs x.2.2) false true else s.portWrite q x.1 p (phaseArrive bs x.2.2)).awaitAck q p

/-- The arrivals of a syllable that may perform do; the others wait on. -/
def State.performArrive (s : State) (q : Pending) (sc : Scope) (byRow : Bool) (ts : List (Fin 64 × Place × Flags)) : State :=
  let now := s.arrivalsDue q sc byRow ts
  let rest := ts.filter fun t => !now.contains t
  let s := if rest.isEmpty then s.retire q
    else { s with pend := s.pend.map fun e => if e.id = q.id then { e with op := .arrive sc byRow rest } else e }
  now.foldl (fun s x => s.performArriveOne q sc x) s

/-- Whether a lock word stands in a ciphertext line of a frame: its 8 bytes are not written (R382). -/
def State.wordSealed (s : State) (p : Place) : Bool :=
  match p with
  | .phys .. => s.placeCipher p 8
  | .ls .. => false

/-- A lock step: every word still free and due to this request is taken (R192). When every word is held the operation is done. A word in a
ciphertext line of a frame is not taken and waited for no longer: FORM_FAULT is posted (R178, R382).
(DEDUCED: log entry 140.) -/
def State.performLock (s : State) (q : Pending) (sc : Scope) (tag : Word) (ts : List (Fin 64 × Place × Bool)) : State :=
  let due (t : Fin 64 × Place × Bool) : Bool :=
    !t.2.2 && s.placeWord t.2.1 == 0 &&
    (s.pend.takeWhile (·.id != q.id)).all fun e =>
      match e.op with
      | .lock _ _ us => us.all fun u => u.2.2 || !(u.2.1.meets 8 t.2.1 8)
      | _ => true
  let own (c : Fin 64) : Word := if tag.getLsbD 63 then tag else tag + BitVec.ofNat 64 c.val
  let s' := ts.foldl (fun s t => if due t && s.wordSealed t.2.1 then s.postPlain q .formFault t.1 t.2.1
    else if due t then (s.cacheOwn (dieOf q.row) (scopeAtHome sc) t.2.1 8).writePlace t.2.1 (bytesOfWord (own t.1)) else s) s
  let ts' := ts.map fun t => if due t then (t.1, t.2.1, true) else t
  if ts'.all (·.2.2) then s'.retire q
  else { s' with pend := s'.pend.map fun e => if e.id = q.id then { e with op := .lock sc tag ts' } else e }

/-- The word is released (R193), unless it stands in a ciphertext line of a frame: FORM_FAULT is posted (R178, R382).
(DEDUCED: log entry 140.) -/
def State.performUnlockOne (s : State) (q : Pending) (sc : Scope) (c : Fin 64) (p : Place) : State :=
  if s.wordSealed p then s.postPlain q .formFault c p
  else (((s.cacheOwn (dieOf q.row) (scopeAtHome sc) p 8).countAck q p).writePlace p (bytesOfWord 0)).awaitAck q p

/-- 64 zero bytes, marked plaintext, to each named line (R194, R266). -/
def State.performDiscard (s : State) (q : Pending) (p : Place) (lines : Nat) : State :=
  (List.range lines).foldl (fun s i =>
    let l := p.shift (64 * i)
    ((s.cacheOwn (dieOf q.row) false l 64).writePlaceLine l (List.replicate 64 0) false false).awaitAck q l) s

/-! ### Engines (R197, R202-R213) -/

/-- A core's engine operation is complete (R197). -/
def State.engineDone (s : State) (q : Pending) (core : Fin 64) (e : Fin 8) (number : Nat) : State :=
  s.modCoreBank q.row q.side core (·.completeOp e number)

/-- Committed reservations advance the tail in order (R203); `fuel` bounds how many. -/
def CoreBank.commitReel (b : CoreBank) (r : Reel) : Nat → CoreBank
  | 0 => b
  | fuel + 1 =>
    match b.reserved.find? (·.reel == r) with
    | some v =>
      if v.done then
        CoreBank.commitReel { b with reel := b.reel.set r.val (reelPush b.reel[r]), reserved := b.reserved.erase v } r fuel
      else b
    | none => b

def State.performCopyIn (s : State) (q : Pending) (channel : Fin 4) (number : Nat) (lines : List (Place × Nat)) (reel : Option Reel) : State :=
  let s := lines.foldl (fun (s : State) l =>
    let s := s.cacheRead (dieOf q.row) l.1 64
    let bs := s.readPlace l.1 64
    s.modCore q.row q.core (·.lsWriteLine l.2 bs (s.placeCipher l.1 64) (s.placePoison l.1 64))) s
  let s := s.engineDone q q.core (channel.castLE (by decide)) number
  match reel with
  | none => s
  | some r => s.modCoreBank q.row q.side q.core fun b =>
      CoreBank.commitReel { b with reserved := b.reserved.map fun v =>
        if v.reel = r ∧ v.channel = channel ∧ v.number = number then { v with done := true } else v } r 32

/-- Whether a line written into a tensor without a key slot by a bank of a confidential world is refused (R207). -/
def State.exportRefused (s : State) (q : Pending) (p : Place) (plain : Bool) : Bool :=
  plain && (s.bank q.row q.side).info.world != 0 && !decide (p.slot < 64)

/-- A copy out performs; a line whose export is refused is reported with its local source line.
(DESIGN CHOICE: log entry 110.) -/
def State.performCopyOut (s : State) (q : Pending) (channel : Fin 4) (number : Nat) (lines : List (Nat × Place)) : State :=
  let s := lines.foldl (fun (s : State) l =>
    let k := (s.row q.row).cores[q.core]
    let cipher := k.lineCipher (l.1 / 64)
    if s.exportRefused q l.2 (!cipher) then (s.postEngine q .formFault (channel.castLE (by decide)) number q.core (.ls q.row q.core l.1)).dropAck q l.2
    else
      ((s.cacheOwn (dieOf q.row) false l.2 64).writePlaceLine l.2 (Memory.read k.ls l.1 64) cipher (k.linePoison (l.1 / 64))).awaitAck q l.2) s
  s.engineDone q q.core (channel.castLE (by decide)) number

def State.performCopyLocal (s : State) (q : Pending) (channel : Fin 4) (number source : Nat) (target : Fin 64) (dest len : Nat) : State :=
  let k := (s.row q.row).cores[q.core]
  let s := (List.range (len / 64)).foldl (fun (s : State) i =>
    let a := source + 64 * i
    s.modCore q.row target (·.lsWriteLine (dest + 64 * i) (Memory.read k.ls a 64) (k.lineCipher (a / 64)) (k.linePoison (a / 64)))) s
  s.engineDone q q.core (channel.castLE (by decide)) number

/-- A message reaches its row, or is refused (R209, R210). -/
def State.performSend (s : State) (q : Pending) (number panel target : Nat) (m : Message) : State :=
  let fate := s.delivery (s.bank q.row q.side).info.world panel target
  let s := s.engineDone q q.core 6 number
  match fate with
  | .take => if panel = s.panelId.toNat then s.modRow target (·.takeMessage { m with poison := m.poison || q.poison }) else s
  | .refuse => s.post q.row q.side (m.refusal panel target)
  | .wait => s

/-- One core's reduction (R207, R211, R366). -/
def State.performRedOne (s : State) (q : Pending) (number : Nat) (t : AType) (sc : Scope) (x : Fin 64 × Place × Vec) : State :=
  let w := if t = .i64 then 64 else 32
  let p := x.2.1
  let half (s : State) (k : Nat) : State :=
    let l := p.shift (64 * k)
    if s.placeCipher l 64 || s.exportRefused q l true then s.postEngine q .formFault 7 number x.1 l
    else if s.placePoison l 64 then s.postEngine q .cipherPoison 7 number x.1 l
    else
      let old := natOfBytes (s.readPlace l 64)
      let add := x.2.2.toNat / 2 ^ (512 * k) % 2 ^ 512
      let new := (List.range (512 / w)).foldl (fun acc i =>
        let a := old / 2 ^ (w * i) % 2 ^ w
        let b := add / 2 ^ (w * i) % 2 ^ w
        acc + (if t = .f32 then (fAdd .fp32 false a b).1 else (a + b) % 2 ^ w) * 2 ^ (w * i)) 0
      (s.cacheOwn (dieOf q.row) (scopeAtHome sc) l 64).writePlace l (bytesOfNat new 64)
  ((half (half s 0) 1).awaitAck q p).engineDone q x.1 7 number

/-- The GCM key of a slot key: SHA3-256(K ‖ "gcm") (R381). -/
def gcmKey (k : BitVec 256) : BitVec 256 := slotKey k [0x67, 0x63, 0x6D]

/-- What a seal or open meets (R213).
(DEDUCED: log entry 34.) -/
def State.cipherError (s : State) (q : Pending) (sealing : Bool) (source len : Nat) (slot : Fin 64) (iv : BitVec 96) (aad : List Byte)
    (tag : BitVec 128) : Option Trap :=
  let world := (s.bank q.row q.side).info.world
  let granted := s.worlds.any fun w => w.id == world && w.slots.getLsbD slot.val
  let core := (s.row q.row).cores[q.core]
  if !granted then some .keySlot
  else if core.anyPoison source len then some .cipherPoison
  else if !sealing && (linesOf source len).any (fun l => !core.lineCipher l) then some .formFault
  else
    match s.slots[slot].key with
    | none => some .keySlot
    | some k =>
      if !sealing && gcmTag (gcmKey k) iv aad (Memory.read core.ls source len) != tag then some .openAuth else none

def State.performCipher (s : State) (q : Pending) (number : Nat) (sealing : Bool) (source dest block len : Nat) (slot : Fin 64)
    (iv : BitVec 96) (aad : List Byte) (tag : BitVec 128) : State :=
  let s := match s.cipherError q sealing source len slot iv aad tag with
    | some t => s.postEngine q t 5 number q.core (.ls q.row q.core source)
    | none =>
      let key := gcmKey (s.slots[slot].key.getD 0)
      let text := Memory.read (s.row q.row).cores[q.core].ls source len
      let out := gcmText key iv text
      let s := (List.range (len / 64)).foldl (fun (s : State) i =>
        s.modCore q.row q.core (·.lsWriteLine (dest + 64 * i) ((out.drop (64 * i)).take 64) sealing false)) s
      if sealing then s.modCore q.row q.core (·.lsWrite (block + 32) (bytesOfNat (gcmTag key iv aad out).toNat 16)) else s
  s.engineDone q q.core 5 number

/-- The acknowledgement of a write off the panel (R253). -/
def State.performAck (s : State) (q : Pending) : State := s.modBank q.row q.side fun b => { b with acks := b.acks - 1 }

/-- The lines that bytes at a place touch become poisoned (R366). -/
def State.poisonPlace (s : State) (p : Place) (n : Nat) : State :=
  match p with
  | .ls row core byte => s.modCore row core fun c => { c with poison := (linesOf byte n).foldl (fun m l => setLine m l true) c.poison }
  | .phys panel addr _ _ _ _ _ =>
    { s with poison := (linesOf (physKey panel addr) n).foldl (fun l k => insertNat k l) s.poison }

/-- An operation performs: the one place where each kind takes effect. -/
def State.performClean (s : State) (q : Pending) : State :=
  match q.op with
  | .load req p n seen => (s.retire q).performLoad q req p n seen
  | .store p d => (s.retire q).performStore q p d
  | .ack => (s.retire q).performAck q
  | .atom op t sc ret req ts => ts.foldl (fun s x => s.performAtomOne q op t sc ret req x) (s.retire q)
  | .arrive sc byRow ts => s.performArrive q sc byRow ts
  | .lock sc tag ts => s.performLock q sc tag ts
  | .unlock sc _ ts => ts.foldl (fun s x => s.performUnlockOne q sc x.1 x.2) (s.retire q)
  | .discard p n => (s.retire q).performDiscard q p n
  | .copyIn c k ls r => (s.retire q).performCopyIn q c k ls r
  | .copyOut c k ls => (s.retire q).performCopyOut q c k ls
  | .copyLocal c k a t d n => (s.retire q).performCopyLocal q c k a t d n
  | .send k w t m _ => (s.retire q).performSend q k w t m
  | .red k t sc ts => ts.foldl (fun s x => s.performRedOne q k t sc x) (s.retire q)
  | .cipher k sl a d b n slot iv aad tag => (s.retire q).performCipher q k sl a d b n slot iv aad tag

/-- An operation performs; what its buffer entry held uncorrectable is carried onward: the lines it has written become poisoned, a message
brings its poison along (R365 code 11). -/
def State.perform (s : State) (q : Pending) : State :=
  let t := s.performClean q
  let left := ((t.pend.find? (·.id == q.id)).map Pending.writes).getD []
  if q.poison then (q.writes.filter fun y => !left.contains y).foldl (fun t y => t.poisonPlace y.2.1 y.2.2) t else t

/-- The operation of an id performs if it may and is of a given kind. -/
def State.performId (s : State) (id : Nat) (kind : PendOp → Bool) : State :=
  match s.pend.find? (·.id == id) with
  | some q => if kind q.op && s.enabled q then s.perform q else s
  | none => s

/-- The oldest operation that may perform does. -/
def State.performFirst (s : State) : State :=
  match s.pend.find? s.enabled with
  | some q => s.perform q
  | none => s

/-- What the local-store ports of a bank perform by a given issue cycle (R250); `fuel` bounds how many. -/
def State.performDue (s : State) (n : Nat) (x : Side) (cycle : Nat) : Nat → State
  | 0 => s
  | fuel + 1 =>
    match s.pend.find? (fun q => q.row == n && q.side == x && q.due.any (· ≤ cycle) && !q.op.atIssue && s.unheld q) with
    | some q => (s.perform q).performDue n x cycle fuel
    | none => s

/-- Whether a message of the bank waits for room at its target: then every bundle of it with a CX syllable freezes (R209). -/
def State.sendBlocked (s : State) (n : Nat) (x : Side) : Bool :=
  s.pend.any fun q => q.row == n && q.side == x &&
    (match q.op with
      | .send _ panel target m sc => s.sendClear n x m.fromCore sc q.cycle && s.delivery (s.bank n x).info.world panel target == .wait
      | _ => false)

end Sys2Proof.Machine
end

