-- ==== Sys2Proof/Machine/Moves.lean ====
section
/-! DEFINITION. The tiers and their engines: free frames, pinned frames, promotions, demotions, the moving state, the host's request
rings, invalidations (R279-R286, R313). -/

namespace Sys2Proof.Machine

/-! ## Writes of agents of system extent: command processors, the station, hosts (R246, R267, R345) -/

/-- A write by such an agent takes place: die-cache copies are recalled, generations reported, moves' entries held. -/
def State.agentWriteNow (s : State) (addr : Nat) (bs : List Byte) : State :=
  let t := (linesOf addr bs.length).foldl (fun (s : State) l => (s.recallToWrite l).reportGeneration (l / 1024)) s
  let key := physKey s.panelId.toNat addr
  let t := t.openLines none key bs.length
  (t.keyWrite key bs).holdMoves t key bs.length
/-- A write by such an agent waits for a line: its copies are to be recalled, or an earlier such write waits for it (R355, R361, R363). -/
def State.agentWaits (s : State) (addr n : Nat) : Bool :=
  (linesOf addr n).any fun l => s.lineWaits l none true || s.waiting.any fun w => (linesOf w.1 w.2.length).contains l
/-- A write by such an agent, at once or as soon as its lines are free. -/
def State.agentWrite (s : State) (addr : Nat) (bs : List Byte) : State :=
  if s.agentWaits addr bs.length then { s with waiting := s.waiting ++ [(addr, bs)] } else s.agentWriteNow addr bs
/-- The writes that waited take place in order, as far as their lines are free. -/
def State.flushWaiting (s : State) : State :=
  s.waiting.foldl (fun (s : State) w => s.agentWrite w.1 w.2) { s with waiting := [] }
/-- A write by such an agent at an address of this panel or of another one (R217, R253). -/
def State.farWrite (s : State) (addr : Nat) (bs : List Byte) : State :=
  if addr < 2 ^ 52 then s.agentWrite addr bs else s.rawWrite (s.farKey addr) bs
def State.agentWriteWord (s : State) (addr : Nat) (w : Word) : State := s.agentWrite addr (bytesOfWord w)

/-! ## Frames of the tiers (R282, R283) -/

/-- The first frame number of a tier unit, and how many frames it has (R34, R282; log entry 12). -/
def unitBase : TierUnit → Nat
  | .junction j => j.val * 0x100000
  | .siding d => 0x10000000 + d.val * 0x800000
  | .cxl h => 0x40000000 + h.val * 0x10000000
  | .host => 0x80000000
def unitFrames : TierUnit → Nat
  | .junction _ => 786432
  | .siding _ => 8388608
  | .cxl h => Config.cxlFrames h.val
  | .host => Config.hostFrames

def State.unitUse (s : State) : TierUnit → List FrameUse
  | .junction j => s.juns[j].frames
  | .siding d => s.sidings[d].frames
  | .cxl h => s.cxl[h].frames
  | .host => s.host.frames
def State.unitMarks (s : State) : TierUnit → Marks
  | .junction j => s.juns[j].marks
  | .siding d => s.sidings[d].marks
  | .cxl h => s.cxl[h].marks
  | .host => s.host.marks
def State.setMarks (s : State) (u : TierUnit) (f : Marks → Marks) : State :=
  match u with
  | .junction j => s.modJun j fun k => { k with marks := f k.marks }
  | .siding d => { s with sidings := s.sidings.set d.val { s.sidings[d] with marks := f s.sidings[d].marks } }
  | .cxl h => { s with cxl := s.cxl.set h.val { s.cxl[h] with marks := f s.cxl[h].marks } }
  | .host => { s with host := { s.host with marks := f s.host.marks } }

/-- The frames of this panel that the tile tables of launches under way name: among them those that no walk or write has told the tier's
unit of (R282).
(DESIGN CHOICE: log entry 115.) -/
def State.tableFrames (s : State) : List Nat :=
  s.launches.flatMap fun l => (List.range l.tableLen).flatMap fun id =>
    let d := s.readDesc l.tableBase id
    if descBad d (id == 0) then []
    else ((descEntries d (id == 0)).map s.physWord).filterMap fun e => if s.names e (teFrame e) then some (teFrame e) else none

/-- The frames of a unit that are in use, in rising order. -/
def State.unitTaken (s : State) (u : TierUnit) : List Nat :=
  let mine (f : Nat) : Bool := decide (unitBase u ≤ f) && (decide (f < unitBase u + unitFrames u) || (u == .host && s.hostPool.added.contains f))
  (((s.unitUse u).map (·.frame)) ++ s.tableFrames.filter mine).foldl (fun l f => insertNat f l) []

/-- The first of some frames that is not among those taken. -/
def firstFree (taken : List Nat) : Nat → Nat → Option Nat
  | 0, _ => none
  | fuel + 1, f => if taken.contains f then firstFree taken fuel (f + 1) else some f

/-- The free frames of a unit, and its lowest-numbered free frame; the host pool is without the frames given to the driver, and has those
the driver supplied (R283). -/
def State.unitFree (s : State) (u : TierUnit) : Nat :=
  let pool := match u with
    | .host => unitFrames u + s.hostPool.added.length - s.hostPool.given.length
    | _ => unitFrames u
  pool - (s.unitTaken u).length
def State.lowestFree (s : State) (u : TierUnit) : Option Nat :=
  let taken := s.unitTaken u
  match u with
  | .host => (firstFree (taken ++ s.hostPool.given) (unitFrames u) (unitBase u)).orElse fun _ => s.hostPool.added.find? fun f => !taken.contains f
  | _ => firstFree taken (unitFrames u) (unitBase u)

/-- A frame of the host pool goes to the driver; frames of host memory come from it (R283, R313). -/
def State.giveHostFrame (s : State) (frame : Nat) : State :=
  if s.hostPool.added.contains frame then { s with hostPool := { s.hostPool with added := removeNat frame s.hostPool.added } }
  else { s with hostPool := { s.hostPool with given := insertNat frame s.hostPool.given } }
def State.takeHostFrame (s : State) (frame : Nat) : State :=
  if rangeOf (frame * 65536) != .host then s
  else if frame < unitBase .host + unitFrames .host then { s with hostPool := { s.hostPool with given := removeNat frame s.hostPool.given } }
  else { s with hostPool := { s.hostPool with added := insertNat frame s.hostPool.added } }

/-- A write to mark.hi or mark.lo: mark.lo above mark.hi is refused (R282). -/
def Marks.write (m : Marks) (high : Bool) (v : Nat) : Marks :=
  let v := v % 2 ^ 32
  if high then { m with high := v } else if v > m.high then m else { m with low := v }

/-- A frame leaves use (R282). -/
def State.freeFrame (s : State) (frame : Nat) : State := s.setFramesAt frame fun l => l.filter (·.frame != frame)

/-- An operation that names a frame has not performed, or a store to it is buffered: the access was checked against the frame (R281). -/
def State.frameNamed (s : State) (frame : Nat) : Bool :=
  let inFrame : Place → Bool
    | .phys panel addr _ _ _ _ _ => panel == s.panelId.toNat && addr / 65536 == frame
    | .ls _ _ _ => false
  (s.pend.any fun q => q.spans.any fun y => inFrame y.2.1)
  || (s.rows.any fun r => allCores.any fun c =>
      [Side.a, Side.b].any fun x => (r.2.cb x c).segBuf.any fun b => inFrame b.place)

/-- A frame is pinned: an operation or a buffered store names it, or its entry is moving (R281).
(DEDUCED: log entry 37.) -/
def State.pinned (s : State) (frame : Nat) : Bool :=
  s.frameNamed frame
  || (s.moves.any fun m => teFrame m.old == frame || teFrame m.final == frame)

/-! ## Moving a frame (R285, R286) -/

/-- An entry with its state changed. -/
def teWithState (e : Word) (st : Nat) : Word := BitVec.ofNat 64 (e.toNat % 2 ^ 62 + st * 2 ^ 62)
/-- An entry with state, tier, home and frame changed; the panel stays. -/
def teMoved (e : Word) (st tier home frame : Nat) : Word :=
  BitVec.ofNat 64 (slice e.toNat 58 53 * 2 ^ 53 + slice e.toNat 44 32 * 2 ^ 32 + frame % 2 ^ 32 + home % 256 * 2 ^ 45
    + tier % 8 * 2 ^ 59 + st * 2 ^ 62)

/-- A move of an entry is under way. -/
def State.isMoving (s : State) (entry : Nat) : Bool := s.moves.any (·.entry == entry)

/-- A tile that is to move: its entry's address, the form bit and view of its lines, the address of its generation word. -/
structure Mover where
  entry   : Nat
  form    : Bool
  view    : View
  genWord : Option Nat

/-- The engine's step 1: the entry is set to moving, but for a promotion from storage, whose entry stays absent. -/
def State.startMove (s : State) (kind : MoveKind) (o : Mover) (final : Word) : State :=
  let e := s.physWord o.entry
  let s := if teTier e = 4 then s else s.physWriteWord o.entry (teWithState e 2)
  let m : Move := { id := s.nextId, kind := kind, entry := o.entry, old := e, final := final, held := [], form := o.form
                    view := o.view, genWord := o.genWord, answer := none }
  { s with nextId := s.nextId + 1, moves := s.moves ++ [m] }

/-- The host die that serves a request, or the next one in service (R18, R376). -/
def State.hostDie (s : State) (h : Nat) : Fin 4 :=
  let ring : List (Fin 4) := (List.range 4).map fun i => cxlFin (h + i)
  (ring.find? fun k => !s.edgeOut (hostSlot k.val)).getD (cxlFin h)

/-- An entry is put into a host die's request ring: request number, kind, the frame and handle it names; its vector is raised (R312, R313).
(DESIGN CHOICE: log entry 36.) -/
def State.askHost (s : State) (h : Fin 4) (number kind frame handle : Nat) : State :=
  let payload : Word := BitVec.ofNat 64 (frame % 2 ^ 32 * 2 ^ 32 + handle % 2 ^ 32)
  let ring := s.hostRings[h]
  let t := { s with hostRings := s.hostRings.set h.val { ring with count := ring.count + 1, entries := ring.entries ++ [(number, kind, payload)] } }
  let t := if ring.base = 0 then t
    else t.agentWrite (slice ring.base.toNat 51 6 * 64 + 64 * (ring.count % Config.hostRingEntries))
      ((List.range 64).map (Config.ringByte number kind payload))
  t.raise (532 + h.val)

/-- Frames for the host memory pool are asked for, unless they have been (R283, R313). -/
def State.wantFrames (s : State) : State :=
  let h := s.hostDie 0
  if (s.hostRings[h]).entries.any (·.2.1 == 0) then s
  else ({ s with nextId := s.nextId + 1 }).askHost h s.nextId 0 0 0

/-- The move waits for the host driver: a fetch of a storage handle, or a demotion to storage (R283, R284, R313). -/
def Move.needsHost (m : Move) : Bool :=
  match m.kind with
  | .promotion => teTier m.old == 4 && teFrame m.old != 0
  | .demotion => teTier m.final == 4

/-- Every translation cache of the panel drops an entry by its address (R279, R285). -/
def State.dropCached (s : State) (entry : Nat) : State :=
  { s with rows := s.rows.map fun r => (r.1, { r.2 with tcache := r.2.tcache.filter (·.addr != entry), walked := [] }) }

/-- One line of a move: bytes, form bit, poison and slot travel with it (R207, R284, R381). -/
def State.moveLine (s : State) (src dst : Nat) : State :=
  let s := s.recallLine src
  let k := physKey s.panelId.toNat (64 * src)
  let d := physKey s.panelId.toNat (64 * dst)
  let tag := Sparse.find s.sealed (k / 64)
  let s := s.keyWriteLine d (Memory.read s.mem k 64) (s.memCipher (k / 64)) (s.poison.contains (k / 64))
  match tag with
  | some t => { s with sealed := Sparse.put s.sealed (d / 64) t }
  | none => s

/-- A zero-filled frame, every line with the entry's form default, encrypted at rest under its tensor's slot (R276, R284). -/
def State.zeroFrame (s : State) (frame : Nat) (form : Bool) (v : View) : State :=
  (List.range 1024).foldl (fun s i =>
    let k := physKey s.panelId.toNat (65536 * frame + 64 * i)
    (s.keyWriteLine k (List.replicate 64 0) form false).sealLine (k / 64) (if v.slot < 64 then some v else none) true) s

/-- A promotion from storage: it has no old frame. -/
def Move.stored (m : Move) : Bool := m.kind == .promotion && teTier m.old == 4

/-- The final entry of a move: a demotion to storage holds the handle the driver answered with. -/
def Move.result (m : Move) : Word :=
  match m.answer with
  | some h => if teTier m.final = 4 then teMoved m.final 0 4 (teHome m.final) h.toNat else m.final
  | none => m.final

/-- Step 2: the lines move, or a zero-filled frame is made; what a host driver fetches or takes it has moved itself. -/
def State.moveData (s : State) (m : Move) : State :=
  if m.stored then (if teFrame m.old = 0 then s.zeroFrame (teFrame m.final) m.form m.view else s)
  else if teTier m.final = 4 then s
  else (List.range 1024).foldl (fun s i => s.moveLine (1024 * teFrame m.old + i) (1024 * teFrame m.final + i)) s

/-- The new frame's record: the entry that names it, and its generation word's address (R345). -/
def State.settleFrame (s : State) (m : Move) (unattr : Bool) : State :=
  let dst := teFrame m.final
  s.touchFrame dst (FrameUse.new dst) fun u =>
    { u with entry := some m.entry, genWord := m.genWord, age := 0, home := teHome m.final, hostBias := teBias m.final
             unattr := unattr, demoted := m.kind == .demotion }

/-- The value an entry has once its move has ended: the engine's, with the bytes software has written meanwhile over it (R286). -/
def Move.outcome (m : Move) : Word :=
  wordOfBytes ((List.range 8).map fun i => ((m.held.find? (·.1 == i)).map (·.2)).getD (((bytesOfWord m.result)[i]?).getD 0))

/-- Steps 2 to 5: data moved, the final entry with what software wrote over it, cached copies dropped, the old frame freed, or given to the host
driver from host memory (R283, R285, R286). The engine's frame is freed where the entry does not name it; one that software named comes into
use. -/
def State.endMove (s : State) (m : Move) : State :=
  let unattr := !m.stored && ((s.frameUse (teFrame m.old)).map (·.unattr)).getD false
  let s := s.moveData m
  let s := { s with moves := s.moves.filter (·.id != m.id) }
  let s := (s.physWriteWord m.entry m.outcome).dropCached m.entry
  let s := if m.stored then s else s.freeFrame (teFrame m.old)
  let s := if m.needsHost && !m.stored then s.giveHostFrame (teFrame m.old) else s
  if teTier m.final = 4 then (if m.held.isEmpty then s else s.placeFrame m.entry)
  else if m.held.isEmpty || s.names m.outcome (teFrame m.final) then s.settleFrame m unattr
  else (s.freeFrame (teFrame m.final)).placeFrame m.entry

/-- A line of a frame waits for a link or a recovery (R361, R363). -/
def State.frameWaits (s : State) (frame : Nat) : Bool :=
  ((s.juns[s.homeOf (1024 * frame)]).home.any fun e => e.line / 1024 == frame && s.lineWaits e.line none true)
  || s.pod.recovery.any fun p => p.1 / 1024 == frame

/-- A move can end: the host answer it needs has come, no operation still names its old frame, and no line of it waits (R265, R281, R285). -/
def State.moveReady (s : State) (m : Move) : Bool :=
  !(m.needsHost && m.answer.isNone) && (m.stored || (!s.frameNamed (teFrame m.old) && !s.frameWaits (teFrame m.old)))

/-! ## Promotion (R280, R284) -/

/-- The junctions a promotion may go to, by the entry's interleave and the descriptor's placement (R284). -/
def State.promoteTargets (s : State) (e : Word) (d : List Word) : List Nat :=
  match teInterleave e with
  | 0 => [teHome e]
  | 1 => junctionsOfDie (descDie d)
  | 2 => (List.range 10).map (10 * descRegion d + ·)
  | _ => (List.range 160).filter fun j => !(s.juns[junFin j]).excluded

/-- The member a tile index picks, passing over members out of service and those whose used count has reached its high mark. -/
def State.promoteTo (s : State) (l : List Nat) (idx : Nat) : Nat :=
  let ring := (l.drop (idx % l.length) ++ l.take (idx % l.length)).filter fun j => !(s.juns[junFin j]).excluded
  match ring.find? fun j => let m := (s.juns[junFin j]).marks; decide (m.used < m.high) with
  | some j => j
  | none => ring.headD 0

/-! ## Demotion (R282, R283) -/

/-- The frames an engine may demote: in tier 0 resident frames not pinned, below it frames that hold demoted data. -/
def State.victims (s : State) (u : TierUnit) : List FrameUse :=
  (s.unitUse u).filter fun f =>
    match f.entry with
    | none => false
    | some a =>
      !s.isMoving a && !s.pinned f.frame &&
      (match u with
        | .junction _ => teState (s.physWord a) == 1 && s.names (s.physWord a) f.frame
        | _ => f.demoted && teState (s.physWord a) == 0 && s.names (s.physWord a) f.frame)

/-- The victim: greatest age, ties to the lowest frame. -/
def pickVictim (l : List FrameUse) : Option FrameUse :=
  l.foldl (fun best f =>
    match best with
    | none => some f
    | some b => if f.age > b.age || (f.age = b.age && f.frame < b.frame) then some f else some b) none

/-- The siding dies in service (R376). -/
def State.sidingUnits (s : State) : List TierUnit :=
  ((List.finRange 32).filter fun d => !s.edgeOut (sidingSlot d.val)).map .siding

/-- The units of the tier below in service, the tier-2 ones only where expanders are attached. -/
def State.lowerUnits (s : State) : TierUnit → List TierUnit
  | .junction _ => s.sidingUnits
  | .siding _ =>
    let c := ((List.finRange 4).filter fun h => unitFrames (.cxl h) != 0 && !s.edgeOut (hostSlot h.val)).map TierUnit.cxl
    if c.isEmpty then [.host] else c
  | .cxl _ => [.host]
  | .host => []
def tierOf : TierUnit → Nat
  | .junction _ => 0 | .siding _ => 1 | .cxl _ => 2 | .host => 3

/-- The unit with the most free frames, ties to the lowest number. -/
def State.roomiest (s : State) (l : List TierUnit) : Option TierUnit :=
  l.foldl (fun best u =>
    match best with
    | none => some u
    | some b => if s.unitFree u > s.unitFree b then some u else some b) none

/-- A frame starts its move down to a tier's roomiest unit; a host pool with no free frame asks the driver for some. -/
def State.demoteTo (s : State) (o : Mover) (units : List TierUnit) : State :=
  match s.roomiest units with
  | none => s
  | some d =>
    match s.lowestFree d with
    | none => if d = .host then s.wantFrames else s
    | some g =>
      let e := s.physWord o.entry
      (s.touchFrame g (FrameUse.new g) id).startMove .demotion o (teMoved e 0 (tierOf d) (teHome e) g)

/-- One victim of a unit starts its move one tier down; from host memory the frame goes to the driver, which answers with a handle. -/
def State.demoteOne (s : State) (u : TierUnit) : State :=
  match pickVictim (s.victims u) with
  | none => s
  | some f =>
    let o : Mover := ⟨f.entry.getD 0, false, ⟨255, 0, 0, 0⟩, f.genWord⟩
    let e := s.physWord o.entry
    match s.lowerUnits u with
    | [] => (s.startMove .demotion o (teMoved e 0 4 (teHome e) 0)).askHost (s.hostDie 0) s.nextId 1 f.frame 0
    | units => s.demoteTo o units

/-- The engine demotes until the frames in use, less those already leaving, are at the low mark; `fuel` bounds the victims. -/
def State.demoteUnit (s : State) (u : TierUnit) : Nat → State
  | 0 => s
  | fuel + 1 =>
    let leaving := (s.moves.filter fun m => m.kind == .demotion && (s.unitUse u).any (·.frame == teFrame m.old)).length
    if (s.unitUse u).length - leaving ≤ (s.unitMarks u).low then s else (s.demoteOne u).demoteUnit u fuel

/-- The engine of a unit runs when its used count exceeds the high mark (R282). -/
def State.demote (s : State) (u : TierUnit) : State :=
  if (s.unitMarks u).used > (s.unitMarks u).high then s.demoteUnit u ((s.unitMarks u).used - (s.unitMarks u).low) else s

/-- A promotion of an absent entry of this panel is requested (R276, R280, R284): a frame of the target junction is taken; a target at its
high mark demotes first; a handle asks the host driver; handle 0 makes a zero-filled frame. A promotion under way is not requested again;
one that finds no free frame is requested again while a bank waits for it. -/
def State.promote (s : State) (entry idx : Nat) (d : List Word) (space tensor : Nat) : State :=
  let e := s.physWord entry
  if teState e != 0 || tePanel e != s.panelId.toNat || s.isMoving entry then s
  else
    let j := s.promoteTo (s.promoteTargets e d) idx
    let u : TierUnit := .junction (junFin j)
    let s := if (s.unitMarks u).used ≥ (s.unitMarks u).high then s.demoteUnit u ((s.unitMarks u).used - (s.unitMarks u).low) else s
    match s.lowestFree u with
    | none => s
    | some f =>
      let id := s.nextId
      let o : Mover := ⟨entry, teForm e, ⟨descSlot d, space, tensor, idx⟩, some (descBase d + 8 * descCount d + 8 * idx)⟩
      let s := (s.touchFrame f (FrameUse.new f) fun u => u).startMove .promotion o (teMoved e 1 0 j f)
      if teTier e = 4 && teFrame e != 0 then s.askHost (s.hostDie (j / 40)) id 2 f (teFrame e) else s

/-- A bank's tile faults ask for their promotions (R280). -/
def State.promoteFaults (s : State) (n : Nat) (x : Side) : State :=
  (s.bank n x).faults.foldl (fun s p => s.promote p.1 p.2.2 (s.descOf n x p.2.1) (s.bank n x).info.space.toNat p.2.1) s

/-- Every frame a bank faulted on is resident (R280). -/
def State.faultsResident (s : State) (n : Nat) (x : Side) : Bool :=
  (s.bank n x).faults.all fun a => teState (s.physWord a.1) == 1

/-- Tasks that resume look again whether what they wait for has come (R333). -/
def State.wakeTasks (s : State) : State :=
  s.tasks.foldl (fun (s : State) t => if t.parked then s else s.schedule s.time (.resumeTask t.id)) s

/-- The move of an id ends, once it can. -/
def State.completeMove (s : State) (id : Nat) : State :=
  match s.moves.find? (·.id == id) with
  | some m => if s.moveReady m then (s.endMove m).wakeTasks else s
  | none => s

/-- The oldest move that can end does. -/
def State.completeFirstMove (s : State) : State :=
  match s.moves.find? s.moveReady with
  | some m => (s.endMove m).wakeTasks
  | none => s

/-! ## Invalidation (R279) -/

/-- Whether a cached tile or descriptor is selected by xinv. -/
def xinvSelects (sel go : Word) (space tensor : Nat) (tile : Option Nat) : Bool :=
  let mode := slice sel.toNat 62 61
  let sp := slice sel.toNat 35 20
  let te := slice sel.toNat 19 0
  if mode = 0 then space == sp && tensor == te && (match tile with | some t => t == slice go.toNat 31 0 | none => true)
  else if mode = 1 then space == sp && tensor == te
  else if mode = 2 then space == sp
  else true

/-- The invalidation under way completes: the entries that were selected as it started leave every translation and descriptor cache, and
walks in flight that read them are served afresh. -/
def State.invalidate (s : State) : State :=
  match s.xinvJob with
  | none => s
  | some (sel, go) =>
    { s with
      xinvSel := s.xinvSel &&& ~~~ BitVec.twoPow 64 63
      xinvJob := none
      rows := s.rows.map fun r => (r.1, { r.2 with
        tcache := r.2.tcache.filter fun e => !xinvSelects sel go e.space e.tensor (some e.tile)
        dcache := r.2.dcache.filter fun e => !xinvSelects sel go e.space e.tensor none
        walked := r.2.walked.filter fun e => !xinvSelects sel go e.1.space e.1.tensor (some e.1.tile) }) }

end Sys2Proof.Machine
end

