-- ==== Sys2Proof/Machine/Records.lean ====
section
/-! DEFINITION. Reads and writes of agents outside the rows, and the two record rings: the timetable unit's event ring (R319, R320) and
the station's error ring (R367). -/

namespace Sys2Proof.Machine

/-! ## Addresses and rings of 64-byte records -/

/-- An address names mapped memory: not unmapped, not the control range (R34). -/
def mappedMemory (a : Nat) : Bool :=
  match rangeOf a with
  | .unmapped | .control => false
  | _ => true

def ringEnable (base : Word) : Bool := base.getLsbD 63
def ringBase (base : Word) : Nat := slice base.toNat 51 12 * 4096
def ringLgn (base : Word) : Nat := base.toNat % 32

/-- A write to a ring base register (R320, R367): an lgn out of range is refused; a change of base or lgn while enabled is ignored. -/
def ringBaseWrite (old new : Word) (lo hi : Nat) : Word :=
  let new := BitVec.ofNat 64 ((if ringEnable new then 2 ^ 63 else 0) + ringBase new + ringLgn new)
  if ringLgn new < lo || hi < ringLgn new then old
  else if ringEnable old && (ringBase old != ringBase new || ringLgn old != ringLgn new) then old
  else new

/-- Record number `k` of a ring is written to its entry. -/
def State.ringPut (s : State) (base : Word) (k : Nat) (bs : List Byte) : State :=
  s.agentWrite (ringBase base + 64 * (k % 2 ^ ringLgn base)) bs

/-- The records kept while a ring was disabled are written in order: the last of them is record `count` - 1. -/
def State.ringFlush (s : State) (base : Word) (count : Nat) (kept : List (List Byte)) : State :=
  (kept.zipIdx (count - kept.length)).foldl (fun s r => s.ringPut base r.2 r.1) s

/-! ## The event ring (R319, R320) -/

/-- An event record's fields. -/
structure EventRecord where
  time     : Nat
  sequence : Word
  source   : Nat
  result   : Nat
  reason   : Nat
  grade    : Nat
  target   : Nat
  met      : Nat
  demoted  : Nat
  tasks    : Nat
  queue    : Nat
  stamp    : Nat
  lowest   : Word
deriving DecidableEq, Repr

def EventRecord.bytes (r : EventRecord) : List Byte :=
  bytesOfNat r.time 8 ++ bytesOfWord r.sequence ++ [BitVec.ofNat 8 r.source, BitVec.ofNat 8 r.result, BitVec.ofNat 8 r.reason,
    BitVec.ofNat 8 r.grade] ++ bytesOfNat r.target 4 ++ bytesOfNat r.met 8 ++ bytesOfNat r.demoted 8 ++ bytesOfNat r.tasks 4
    ++ bytesOfNat r.queue 2 ++ bytesOfNat r.stamp 2 ++ bytesOfWord r.lowest ++ bytesOfNat 0 8

/-- An event record is posted; vector 528 is raised while the ring is enabled. -/
def State.postEvent (s : State) (r : EventRecord) : State :=
  let t := s.timing
  let k := t.evHead.toNat
  let s := { s with timing := { t with evHead := t.evHead + 1, evKept := capTo 64 (t.evKept ++ [r.bytes]) } }
  if ringEnable t.evBase then (s.ringPut t.evBase k r.bytes).raise 528 else s

/-- A write to ev.base: on the change of enable from 0 to 1 the kept records are written and vector 528 is raised once.
(DEDUCED: log entry 128.) -/
def State.writeEvBase (s : State) (v : Word) : State :=
  let old := s.timing.evBase
  let new := ringBaseWrite old v 6 12
  let s := { s with timing := { s.timing with evBase := new } }
  if !ringEnable old && ringEnable new then
    (s.ringFlush new s.timing.evHead.toNat s.timing.evKept).raise 528
  else s

/-! ## The error ring (R367) -/

/-- Kind of place, number and row of a place (R367 bytes 12-15). -/
def placeKind : ErrPlace → Nat
  | .die .. => 0 | .junction _ => 1 | .edge _ => 2
def placeNumber : ErrPlace → Nat
  | .die d _ _ => d.val | .junction j => j.val | .edge n => n.val
def placeRow : ErrPlace → Nat
  | .die _ r _ => r.val | _ => 0
def placeCore : ErrPlace → Nat
  | .die _ _ (some c) => c.val | _ => 0xFFFF

/-- The vector of a place: its region's, or 529 for edge dies and the station. -/
def placeVector : ErrPlace → Nat
  | .die d _ _ => 512 + d.val / 10 | .junction j => 512 + j.val / 10 | .edge _ => 529

/-- An error record's fields. -/
structure ErrorRecord where
  kind     : Nat
  code     : Nat
  injected : Bool
  cause    : Nat
  place    : ErrPlace
  address  : Nat
deriving DecidableEq, Repr

/-- The key under which corrected errors of one structure and place are counted. -/
def errorKey (code : Nat) (p : ErrPlace) : Nat := ((placeKind p * 256 + placeNumber p) * 64 + placeRow p) * 16 + code

def ErrorRecord.bytes (r : ErrorRecord) (time count : Nat) : List Byte :=
  bytesOfNat time 8 ++ [BitVec.ofNat 8 r.kind, BitVec.ofNat 8 r.code, if r.injected then 1 else 0, BitVec.ofNat 8 r.cause]
    ++ bytesOfNat (placeNumber r.place * 256 + placeKind r.place * 64 + placeRow r.place) 2 ++ bytesOfNat (placeCore r.place) 2
    ++ bytesOfNat r.address 8 ++ bytesOfNat count 8 ++ bytesOfNat 0 32

/-- The corrected-error count of a structure and place. -/
def Errors.countOf (e : Errors) (key : Nat) : Nat := ((e.per.find? (·.1 == key)).map (·.2.2)).getD 0

/-- A record is posted; its vector is raised while the ring is enabled. -/
def State.postError (s : State) (r : ErrorRecord) : State :=
  let e := s.errors
  let bs := r.bytes s.time (e.countOf (errorKey r.code r.place))
  let k := e.head.toNat
  let s := { s with errors := { e with head := e.head + 1, kept := capTo 64 (e.kept ++ [bs]) } }
  if ringEnable e.base then (s.ringPut e.base k bs).raise (placeVector r.place) else s

/-- The vector that a kept record names. -/
def recordVector (bs : List Byte) : Nat :=
  let p := natOfBytes ((bs.drop 12).take 2)
  if p / 64 % 4 = 2 then 529 else 512 + p / 256 / 10

/-- A write to ras.base (R367): the kept records are written in order and each vector they name is raised once. -/
def State.writeRasBase (s : State) (v : Word) : State :=
  let old := s.errors.base
  let new := ringBaseWrite old v 6 14
  let s := { s with errors := { s.errors with base := new } }
  if !ringEnable old && ringEnable new then
    let s := s.ringFlush new s.errors.head.toNat s.errors.kept
    (s.errors.kept.foldl (fun l r => if l.contains (recordVector r) then l else l ++ [recordVector r]) []).foldl State.raise s
  else s

/-- A corrected error: the counters go up; at most one record a millisecond for one structure and place. -/
def State.postCorrected (s : State) (r : ErrorRecord) : State :=
  let key := errorKey r.code r.place
  let e := s.errors
  let n := e.countOf key + 1
  let last := (e.last.find? (·.1 == key)).map (·.2.1)
  let e := { e with count := e.count + 1, per := (key, 0, n) :: e.per.filter (·.1 != key) }
  if last.any fun t => s.time < t + 1000000 then { s with errors := e }
  else { s with errors := { e with last := (key, s.time, 0) :: e.last.filter (·.1 != key) } }.postError r

/-- A consumption of an uncorrectable error in a core of a row posts a record of kind 2: the structure, and the physical address of the line
whose poison a load's entry held (R367). -/
def State.postConsumed (s : State) (n : Nat) (core : Fin 64) (what : Nat × Nat) : State :=
  s.postError ⟨2, what.1, false, 0, .die (dieFin n) ⟨n % 64, Nat.mod_lt _ (by decide)⟩ (some core), what.2⟩

end Sys2Proof.Machine
end

