-- ==== Sys2Proof/Machine/Issue.lean ====
section
/-! DEFINITION. Presenting a bundle for issue: the conditions in their order, freezes, lazy saves, consumed errors, segment ends, and
the commit; stops and resumptions of a bank (R67, R75-R81, R96, R154, R155, R220-R223, R227-R229, R233, R236, R240-R244). -/

namespace Sys2Proof.Machine

/-- A syllable of a bundle: its meaning and its encoding as decoded (R104). -/
structure Part where
  syl  : Syl
  word : BitVec 32

/-! ## What each syllable reads (R66) -/

/-- How many entries of each kind the syllables before a position pop. -/
def popsBefore (parts : List Part) : Nat × Nat := parts.foldl (fun a p => (a.1 + p.syl.pops.1, a.2 + p.syl.pops.2)) (0, 0)

/-- Whether the bundle's stores enter the segment store buffer: in segmented mode, unless the bundle ends its segment with itself and so
commits as it issues (R240-R242). -/
def Bank.bufferStores (b : Bank) (parts : List Part) : Bool :=
  b.segment.isSome && !parts.any fun p => p.syl.irrevocable || p.syl.ends

/-- The view of one syllable, with `before` the syllables of lower units and `after` the panel with their local-store writes made. -/
def State.issueOf (s : State) (n : Nat) (x : Side) (next : BitVec 15) (parts before : List Part) (y : Syl) (after : State) : Issue :=
  let r := s.row n
  let all := popsBefore parts
  { s := s, row := n, side := x, pc := (r.bank x).pc, next := next
    rd := fun c => { s.readFor n x y (popsBefore before) c with late := (after.row n).cores[c] }
    popS := all.1, popV := all.2, requests := parts.foldl (fun a p => a + p.syl.requests) 0
    buffers := (r.bank x).bufferStores parts }

/-- What a bundle's syllables write in the issue cycle into local stores, core by core in ascending order and within a core in ascending
unit order: the writing core, the target core and the runs of bytes (R28, R249). -/
def putsOf (is : List (Part × Issue)) : List (Fin 64 × Fin 64 × List (Nat × List Byte)) :=
  allCores.flatMap fun c => is.filterMap fun p => (p.1.syl.put p.2 c).map fun w => (c, w.1, w.2)

/-- Those writes are made, by a bank in its issue cycle. -/
def State.putAll (s : State) (n : Nat) (x : Side) (cycle : Nat) (is : List (Part × Issue)) : State :=
  (putsOf is).foldl (fun s w => s.modRow n (·.writeAt x w.1 w.2.1 cycle w.2.2)) s

/-- What stood in local stores before them, the last write first. -/
def State.putPrior (s : State) (n : Nat) (is : List (Part × Issue)) : List (Fin 64 × Nat × List Byte) :=
  ((putsOf is).flatMap fun w => w.2.2.map fun r => (w.2.1, r.1, Memory.read (s.row n).cores[w.2.1].ls r.1 r.2.length)).reverse

/-- The panel as it will be once the bank's buffered stores into local stores are committed: what an irrevocable bundle reads of them as
it issues, and so what its conditions are judged by (R242). -/
def State.bufferView (s : State) (n : Nat) (x : Side) : State :=
  if (s.bank n x).segment.isNone then s
  else allCores.foldl (fun t c => ((s.row n).cb x c).segBuf.foldl (fun (t : State) st =>
    match st.place with
    | .ls row core byte => t.modCore row core (·.lsWrite byte st.data)
    | .phys .. => t) t) s

/-- The panel as a CX syllable's reads at issue find it: the bundle's own atomics and arrivals on local store done, which comes before its
stores of the same cycle (R249, R250).
(DEDUCED: log entry 136.) -/
def State.unitsBelow (s : State) (n : Nat) (x : Side) (done : List (Part × Issue)) : State :=
  let t := done.foldl (fun t p => if p.1.syl.port then p.1.syl.effect p.2 t else t) s
  let t := ((t.pend.drop s.pend.length).filter fun q => q.due.isSome).foldl (fun t q => t.performClean q) t
  t.putAll n x (s.bank n x).cycle done

/-- Every syllable with its view, in ascending unit order: `done` the syllables of lower units with theirs. -/
def State.issuesFrom (s : State) (n : Nat) (x : Side) (next : BitVec 15) (parts : List Part) (done : List (Part × Issue)) :
    List Part → List (Part × Issue)
  | [] => []
  | p :: ps =>
    let i := s.issueOf n x next parts (done.map (·.1)) p.syl
      (if done.isEmpty || p.syl.unit != 6 then s.bufferView n x else (s.bufferView n x).unitsBelow n x done)
    (p, i) :: s.issuesFrom n x next parts (done ++ [(p, i)]) ps

/-- Every syllable of a bundle with its view. -/
def State.issues (s : State) (n : Nat) (x : Side) (next : BitVec 15) (parts : List Part) : List (Part × Issue) :=
  s.issuesFrom n x next parts [] parts

/-! ## Pops (R67, R180, R181) -/

/-- The entries a syllable pops in a core: those of its kind from the number already popped by earlier syllables on. -/
def poppedBy (cb : CoreBank) (before : Nat × Nat) (y : Syl) : List (Option Request) :=
  ((List.range y.pops.1).map fun i => (cb.queue false)[before.1 + i]?) ++ ((List.range y.pops.2).map fun i => (cb.queue true)[before.2 + i]?)

/-- The conditions of a syllable's pops: LDQ_EMPTY, data late, FORM_FAULT of an entry drawn from a ciphertext line. -/
def checkPops (i : Issue) (before : Nat × Nat) (y : Syl) : Verdict :=
  if !y.popsAny then .clear
  else
    let es (c : Fin 64) := poppedBy (i.s.row i.row |>.cb i.side c) before y
    Verdict.seq [
      fun _ => checkCores .ldqEmpty (fun c => (es c).any (·.isNone)) (fun _ => 0) (fun _ => 0),
      fun _ => if allCores.any (fun c => (es c).any fun e => e.any fun r => r.data.isNone) then .freeze .loadLate false id else .clear,
      fun _ => checkCores .formFault (fun c => (es c).any fun e => e.any (·.cipher))
        (fun c => (((es c).find? fun e => e.any (·.cipher)).bind (fun e => e.map (·.addr))).getD 0) (fun _ => 0)]

/-- The load-address queue has room for the bundle's requests once its pops have freed their entries (R180). -/
def checkRoom (i : Issue) (y : Syl) : Verdict :=
  if y.requests = 0 then .clear
  else if allCores.any (fun c => 16 < ((i.s.row i.row).cb i.side c).loads.length - (i.popS + i.popV) + i.requests)
    then .freeze .queueFull false id
  else .clear

/-- All conditions of one syllable of a bundle; `walking` says that another syllable's walk has not ended.
(DEDUCED: log entry 20.) -/
def partVerdict (i : Issue) (before : Nat × Nat) (y : Syl) (walking : Bool) : Verdict :=
  Verdict.seq [fun _ => checkPops i before y, fun _ => y.check i, fun _ => y.frames i walking, fun _ => checkRoom i y]

/-- Whether a syllable of the bundle besides that of a unit waits for a walk (R176). -/
def walksBeside (is : List (Part × Issue)) (unit : Fin 8) : Bool :=
  is.any fun p => p.1.syl.unit != unit && (p.1.syl.check p.2).isWalk

/-! ## Check mode (R81, R244) -/

/-- The registers a syllable reads: its sources, and those it names besides. -/
def Syl.locs (y : Syl) : List Loc :=
  ([y.d, y.a, y.b].foldr (fun x l =>
    match x with
    | .s r => if r.val = 0 ∨ r.val = 31 then l else .s r :: l
    | .v r => if r.val = 31 then l else .v r :: l
    | .none => l) []) ++ y.reads

/-- A register lies in the shadow of a result in flight in a core. -/
def inShadow (b : Bank) (cb : CoreBank) : Loc → Bool
  | .s r => cb.flights.any fun f => match f.dest with | .s q _ => q == r | _ => false
  | .v r => cb.flights.any fun f => match f.dest with | .v q _ _ => q == r | _ => false
  | .q r => cb.flights.any fun f => match f.dest with | .q q _ _ => q == r | _ => false
  | .k r => b.seq.any fun f => match f.dest with | .k q _ => q == r | _ => false
  | .nflags => b.seq.any fun f => match f.dest with | .nflags _ => true | _ => false
  | .chk => b.seq.any fun f => match f.dest with | .chk _ => true | _ => false
  | .deckle => b.seq.any fun f => match f.dest with | .deckle _ _ => true | _ => false
  | .trapvec => b.seq.any fun f => match f.dest with | .trapvec _ => true | _ => false
  | .istep => b.seq.any fun f => match f.dest with | .istep _ => true | _ => false
  | .barsel => b.seq.any fun f => match f.dest with | .barsel _ => true | _ => false
  | .barmask => b.seq.any fun f => match f.dest with | .barmask _ => true | _ => false
  | .tile _ | .reel _ | .fmt | .step _ => false

/-- Elements of a tile lie in the shadow of a tile result in flight (R161). -/
def tileShadow (cb : CoreBank) (t : TReg) (mask : BitVec 256) : Bool :=
  cb.flights.any fun f => match f.dest with | .tile u _ m => u == t && m &&& mask != 0 | _ => false

/-- Two results collide: same boundary, overlapping location (R78). -/
def collides (f g : Flight) : Bool :=
  f.land == g.land &&
  (match f.dest, g.dest with
    | .s a _, .s b _ => a == b
    | .v a _ m, .v b _ k => a == b && m &&& k != 0
    | .q a _ m, .q b _ k => a == b && m &&& k != 0
    | .tile a _ m, .tile b _ k => a == b && m &&& k != 0
    | _, _ => false)

/-- HAZARD_SHADOW of a syllable. -/
def checkShadow (i : Issue) (y : Syl) : Verdict :=
  let r := i.s.row i.row
  checkCores .hazardShadow (fun c =>
    let cb := r.cb i.side c
    y.locs.any (inShadow (r.bank i.side) cb) || (y.tileRead (i.rd c)).any fun t => tileShadow cb t.1 t.2) (fun _ => 0) (fun _ => 0)

/-- HAZARD_WAW of a syllable. -/
def checkWaw (i : Issue) (y : Syl) : Verdict :=
  let r := i.s.row i.row
  checkCores .hazardWaw (fun c => (y.fly (i.rd c)).any fun f => ((r.cb i.side c).flights.any (collides f))) (fun _ => 0) (fun _ => 0)

/-- The vectors and tiles among registers, as masks. -/
def vMask (ls : List Loc) : BitVec 32 := ls.foldl (fun m l => match l with | .v r => m ||| BitVec.twoPow 32 r.val | _ => m) 0
def tMask (ls : List Loc) : BitVec 8 := ls.foldl (fun m l => match l with | .tile t => m ||| BitVec.twoPow 8 t.val | _ => m) 0

/-- The registers live into the segment once a bundle has read what it reads (R244). -/
def Segment.read (g : Segment) (parts : List Part) : Segment :=
  let ls := parts.flatMap fun p => p.syl.locs
  { g with liveV := g.liveV ||| (vMask ls &&& ~~~ g.wroteV), liveT := g.liveT ||| (tMask ls &&& ~~~ g.wroteT) }
def Segment.write (g : Segment) (parts : List Part) : Segment :=
  let ls := parts.flatMap fun p => p.syl.writes
  { g with wroteV := g.wroteV ||| vMask ls, wroteT := g.wroteT ||| tMask ls }

/-- SEG_LIVE of a syllable: it writes a register live into the segment.
(DEDUCED: log entry 21.) -/
def checkLive (b : Bank) (parts : List Part) (y : Syl) : Verdict :=
  match b.segment with
  | none => .clear
  | some g =>
    let g := g.read parts
    checkRow .segLive (vMask y.writes &&& g.liveV != 0 || tMask y.writes &&& g.liveT != 0)

/-! ## The order of the conditions (R67) -/

/-- A trap of a syllable carries its unit and encoding (R231). -/
def TrapInfo.at (t : TrapInfo) (p : Part) : TrapInfo := { t with unit := p.syl.unit, encoding := p.word }

/-- Verdicts of a bundle in the order of evaluation, each with its syllable. -/
def State.verdicts (s : State) (n : Nat) (x : Side) (next : BitVec 15) (parts : List Part) : List (Part × Verdict) :=
  let b := s.bank n x
  let is := s.issues n x next parts
  (is.map fun p => (p.1, checkRow .hazardII (p.1.syl.interval.isSome && b.cycle < b.mmaFree)))
  ++ (if b.chk then (is.map fun p => (p.1, checkShadow p.2 p.1.syl)) ++ (is.map fun p => (p.1, checkWaw p.2 p.1.syl))
        ++ (parts.map fun p => (p, checkLive b parts p.syl)) else [])
  ++ (parts.zipIdx.zip is).map fun p => (p.1.1, partVerdict p.2.2 (popsBefore (parts.take p.1.2)) p.1.1.syl (walksBeside is p.1.1.syl.unit))

/-- The first trap in order. -/
def firstTrap : List (Part × Verdict) → Option TrapInfo
  | [] => none
  | (p, .trap t) :: _ => some (t.at p)
  | _ :: vs => firstTrap vs

/-- The first freeze, with whether any unmet freeze condition is one that only the bank's matrix engine ends (R167), and what every
frozen condition does in the cycle. -/
def firstFreeze : List (Part × Verdict) → Option (Cause × Bool × List (State → State))
  | [] => none
  | (_, .freeze c e f) :: vs =>
    match firstFreeze vs with
    | some r => some (c, e || r.2.1, f :: r.2.2)
    | none => some (c, e, [f])
  | _ :: vs => firstFreeze vs

/-- The requests a bundle makes once nothing else holds it back, with the first one's cause. -/
def firstAsk : List (Part × Verdict) → Option (Cause × List (State → State))
  | [] => none
  | (_, .ask c f) :: vs =>
    match firstAsk vs with
    | some r => some (c, f :: r.2)
    | none => some (c, [f])
  | _ :: vs => firstAsk vs

/-- The bundle at hand has made a request or has arrived at its barrier: it has been presented before (R236). -/
def Bank.hasAsked (b : Bank) : Bool := b.asked || b.asking.isSome || (b.atBar.any fun p => p.1 == b.pc)

/-- The first posted error that a syllable of the bundle makes due (R236); a bundle that waits on a request it has made has been past
this point.
(DEDUCED: log entry 32.) -/
def State.postedDue (s : State) (n : Nat) (x : Side) (parts : List Part) : Option (Posted × Part) :=
  let b := s.bank n x
  if b.hasAsked then none
  else b.posted.findSome? fun e => (parts.find? fun p => p.syl.reports b e).map fun p => (e, p)

/-- The trap of a posted error: word 3 holds engine and operation number (R231). -/
def Posted.trapInfo (e : Posted) : TrapInfo :=
  { (TrapInfo.cores e.trap e.mask e.address (match e.engine with | some (g, k) => BitVec.ofNat 64 (k * 256 + g.val) | none => 0)) with posted := true }

/-! ## Consumed uncorrectable errors (R243) -/

/-- What a syllable consumes in a core: 1 what a rewind can undo (a poisoned entry or line, an uncorrectable s, q, k or control register),
2 an uncorrectable vector or tile register. `popped` are the entries it pops. -/
def consumesIn (b : Bank) (c : Core) (x : Side) (core : Fin 64) (y : Syl) (i : Issue) (popped : List (Option Request)) : Nat :=
  let cb := c.of x
  let vec := (y.locs.any fun l => match l with
      | .v r => cb.badV.getLsbD r.val
      | _ => false)
    || y.touch.any fun t => y.locs.contains (.tile t) && c.badTile b x t
  let soft := popped.any (fun e => e.any (·.poison))
    || y.locs.any (fun l => match l with
      | .s r => cb.badS.getLsbD r.val
      | .q r => cb.badQ.getLsbD r.val
      | .k r => b.badK.getLsbD r.val
      | .v _ | .tile _ | .reel _ => false
      | _ => b.badC)
  let line := (y.lsRead i core).any fun t =>
    (if y.unit = 6 then (i.rd t.1).late else (i.rd t.1).whole).anyPoison t.2.1 t.2.2
    || ((i.rd t.1).cb.segBuf).any fun st => st.poison && (Place.ls i.row t.1 t.2.1).meets t.2.2 st.place st.data.length
  if vec then 2 else if soft || line then 1 else 0

/-- The syllables of a bundle that consume an error in a core, each with what it consumes (R243): a residue check of the core's datapath
that is to reject the bundle's data counts for its first syllable. -/
def State.consumersIn (s : State) (n : Nat) (x : Side) (is : List (Part × Issue)) (core : Fin 64) : List (Part × Issue × Nat) :=
  let r := s.row n
  (is.zipIdx.map fun p =>
    let y := p.1.1.syl
    let e := consumesIn (r.bank x) r.cores[core] x core y p.1.2 (poppedBy (r.cb x core) (popsBefore ((is.take p.2).map (·.1))) y)
    (p.1.1, p.1.2, if e = 0 && p.2 = 0 && (r.cb x core).residue then 1 else e)).filter (·.2.2 != 0)

/-- What each core of the row consumes: the worst of its syllables. -/
def State.consumes (s : State) (n : Nat) (x : Side) (is : List (Part × Issue)) (core : Fin 64) : Nat :=
  (s.consumersIn n x is core).foldl (fun m p => max m p.2.2) 0

/-- The structure of R365 that what a syllable consumes in a core stood in, and the physical address of the line a load's entry came from: 2 a
vector, predicate or tile register, 11 a load-data or buffered entry, 3 another register, 1 a local-store line, 0 a residue check (R367). -/
def consumedWhat (b : Bank) (c : Core) (x : Side) (core : Fin 64) (y : Syl) (i : Issue) (popped : List (Option Request)) : Nat × Nat :=
  let cb := c.of x
  let wide := (y.locs.any fun l => match l with
      | .v r => cb.badV.getLsbD r.val
      | .q r => cb.badQ.getLsbD r.val
      | _ => false)
    || y.touch.any fun t => y.locs.contains (.tile t) && c.badTile b x t
  let line := (y.lsRead i core).any fun t => (if y.unit = 6 then (i.rd t.1).late else (i.rd t.1).whole).anyPoison t.2.1 t.2.2
  if wide then (2, 0)
  else
    match popped.find? fun e => e.any (·.poison) with
    | some e => (11, (e.map (·.line)).getD 0)
    | none =>
      if line then (1, 0)
      else if consumesIn b c x core y i popped = 0 then (0, 0)
      else if (y.lsRead i core).any (fun t => ((i.rd t.1).cb.segBuf).any fun st =>
          st.poison && (Place.ls i.row t.1 t.2.1).meets t.2.2 st.place st.data.length) then (11, 0)
      else (3, 0)

/-- The structure and address of what a core consumes first (R367). -/
def State.consumed (s : State) (n : Nat) (x : Side) (is : List (Part × Issue)) (core : Fin 64) : Nat × Nat :=
  let r := s.row n
  match (s.consumersIn n x is core).head? with
  | some p =>
    let before := popsBefore ((is.map (·.1)).takeWhile fun q => q.syl.unit.val < p.1.syl.unit.val)
    consumedWhat (r.bank x) r.cores[core] x core p.1.syl p.2.1 (poppedBy (r.cb x core) before p.1.syl)
  | none => (0, 0)

/-- The address of what a syllable consumes in a core: the entry's, or the poisoned line's first byte that it reads, as a window or
quad-window address (R231). -/
def consumedAddress (b : Bank) (core : Fin 64) (y : Syl) (i : Issue) (popped : List (Option Request)) : Word :=
  match popped.find? fun e => e.any (·.poison) with
  | some e => (e.map (·.addr)).getD 0
  | none =>
    ((y.lsRead i core).findSome? fun t =>
      ((linesOf t.2.1 t.2.2).find? fun l => (i.rd t.1).whole.linePoison l).map fun l =>
        BitVec.ofNat 64 (max t.2.1 (l * 64) - b.winBase + (if t.1 = core then 0 else t.1.val % 4 * 0xC000))).getD 0

/-- The trap of a bundle that consumes an uncorrectable error: reported for the lowest consuming core's first consuming syllable (R231,
R233).
(DEDUCED: log entry 100.) -/
def State.consumedTrap (s : State) (n : Nat) (x : Side) (is : List (Part × Issue)) (mask : BitVec 64) : TrapInfo :=
  let b := s.bank n x
  match (firstCore fun c => mask.getLsbD c.val) with
  | none => TrapInfo.row .ueConsumed
  | some core =>
    let t (u : Fin 8) (a : Word) (w : BitVec 32) : TrapInfo :=
      { TrapInfo.cores .ueConsumed mask a 0 with unit := u, encoding := w, imprecise := b.segment.isNone }
    match (s.consumersIn n x is core).head? with
    | none => t 7 0 0
    | some p =>
      let before := popsBefore ((is.map (·.1)).takeWhile fun q => q.syl.unit.val < p.1.syl.unit.val)
      t p.1.syl.unit (consumedAddress b core p.1.syl p.2.1 (poppedBy ((s.row n).cb x core) before p.1.syl)) p.1.word

/-! ## Segments (R240-R243) -/

/-- No register result of the bank is in flight, and its queues are empty but for what the bundle at hand pops.
(DEDUCED: log entry 33.) -/
def State.drained (s : State) (n : Nat) (x : Side) (pops : Nat) : Bool :=
  let b := s.bank n x
  b.seq.isEmpty && b.votes.isEmpty && allCores.all fun c =>
    let cb := (s.row n).cb x c
    cb.flights.isEmpty && cb.latches.isEmpty && cb.loads.length ≤ pops

/-- Whether some core of the bank has buffered stores. -/
def State.anyBuffered (s : State) (n : Nat) (x : Side) : Bool := allCores.any fun c => !((s.row n).cb x c).segBuf.isEmpty

/-- Whether committed stores of the bank into local store are still to perform. -/
def State.commitOpen (s : State) (n : Nat) (x : Side) : Bool :=
  s.pend.any fun q => q.row == n && q.side == x && q.inOrder &&
    (match q.op with
      | .store (.ls ..) _ => true
      | _ => false)

/-- The committed stores that may perform do, in their order; `fuel` bounds how many. -/
def State.performCommitted (s : State) (n : Nat) (x : Side) : Nat → State
  | 0 => s
  | fuel + 1 =>
    match s.pend.find? (fun q => q.row == n && q.side == x && q.inOrder && s.enabled q) with
    | some q => (s.perform q).performCommitted n x fuel
    | none => s

/-- The stores of the segment store buffers are issued, as of the bundles before this one, core by core in buffer order (R114, R240, R253,
R264).
(DEDUCED: log entry 101.) -/
def State.submitBuffered (s : State) (n : Nat) (x : Side) : State :=
  if !s.anyBuffered n x then s
  else
    let cycle := (s.bank n x).cycle - 1
    let s := allCores.foldl (fun s c =>
      ((s.row n).cb x c).segBuf.foldl (fun (s : State) st =>
        let t := s.countWrites n x [st.place]
        { t with nextId := t.nextId + 1
                 pend := t.pend ++ [⟨t.nextId, n, x, c, cycle, none, .store st.place st.data, st.poison, true⟩] }) s) s
    s.modRow n (·.mapBanks x fun _ b => { b with segBuf := [] })

/-- The segment store buffers are committed: those of their stores that may perform do (R240, R264). -/
def State.commitStores (s : State) (n : Nat) (x : Side) : State :=
  if !s.anyBuffered n x then s else (s.submitBuffered n x).performCommitted n x (64 * 65)

/-- The writes to other panels that committing the bank's buffers would count. -/
def State.bufferedOff (s : State) (n : Nat) (x : Side) : Nat :=
  s.offWrites (allCores.flatMap fun c => ((s.row n).cb x c).segBuf.map (·.place))

/-- This many writes more would take the acknowledgement counter past 65,535 (R253). -/
def State.acksOver (s : State) (n : Nat) (x : Side) (k : Nat) : Bool := k != 0 && decide (65535 < s.acksDue n x + k)

/-- A segment end is complete up to its checkpoint: drained, committed, its stores into local store performed (R240). -/
def State.segmentEnded (s : State) (n : Nat) (x : Side) (pops : Nat) : Bool :=
  s.drained n x pops && !s.anyBuffered n x && !s.commitOpen n x

/-- One frozen cycle of a segment's end: what is in flight drains; then the buffers are committed, once the acknowledgement counter has
room for their writes (R240, R253). -/
def State.endCycle (s : State) (n : Nat) (x : Side) (pops : Nat) : State :=
  if (s.row n).holder != x then s
  else if !s.drained n x pops then s.drainCycle n x
  else if s.acksOver n x (s.bufferedOff n x) then s
  else s.commitStores n x

/-- The scalars and predicates of a core as they will be once what is in flight has landed. -/
def CoreBank.settled (b : CoreBank) : Vector Word 32 × Vector Pred 8 :=
  b.flights.foldl (fun r f =>
    match f.dest with
    | .s d v => (r.1.set d.val v, r.2)
    | .q d v m => (r.1, r.2.set d.val (mergeBits r.2[d] v m))
    | _ => r) (b.s, b.q)

/-- What is in flight as a checkpoint is taken and is not of the segment: it still lands after a rewind, but for the values of scalars and
predicates, which the checkpoint holds settled. -/
def CoreBank.kept (b : CoreBank) : List Flight :=
  b.flights.map fun f => match f.dest with
    | .s _ _ | .q _ _ _ => { f with dest := .none }
    | _ => f

/-- The checkpoint of the bank's sequencer part, with what is in flight for k settled (R240).
(DEDUCED: log entry 24.) -/
def Bank.checkpoint (b : Bank) : Checkpoint :=
  let b' := b.seq.foldl (fun b f => b.landSeq f.dest) b
  { pc := b.pc
    k := b.votes.foldl (fun k v => k.set v.reg.val v.value) b'.k
    frames := b.frames, calls := b.calls, steps := b.steps
    seq := b.seq.filter fun f => match f.dest with
      | .k _ _ => false
      | _ => true
    fmtNext := b.fmtNext
    handler := b.handler, savedCtl := b.savedCtl }

/-- The segment entry is taken: the bank is in segmented mode from here on (R240). -/
def State.takeCheckpoint (s : State) (n : Nat) (x : Side) : State :=
  let s := s.modBank n x fun b => { b with segment := some ⟨b.checkpoint, 0, 0, 0, 0, 0⟩ }
  s.modRow n (·.mapBanks x fun _ b => { b with ckS := b.settled.1, ckQ := b.settled.2, ckF := b.kept })

/-- A rewind (R243): buffers and the results issued in the segment are dropped, queues emptied, the checkpoint restored, and the row frozen
for 16 cycles. %fmt, %deckle and %chk are restored by nothing (R42, R152).
(DESIGN CHOICE: log entry 102.) -/
def State.rewind (s : State) (n : Nat) (x : Side) (g : Segment) : State :=
  let m := (s.bank n x).cycle
  let s := s.modRow n (·.mapBanks x fun _ b =>
    { b with segBuf := [], flights := b.ckF.filter (fun f => decide (m < f.land)), loads := [], s := b.ckS, q := b.ckQ
             badS := 0, badQ := 0, residue := false })
  s.modBank n x fun b =>
    { b with pc := g.entry.pc, k := g.entry.k, frames := g.entry.frames, calls := g.entry.calls, steps := g.entry.steps
             seq := g.entry.seq.filter (fun f => decide (m < f.land)), fmtNext := g.entry.fmtNext.filter (fun p => decide (m < p.1))
             votes := [], nopLeft := 0, heldLeft := 0, voteHeld := false, waitLeft := 16, badK := 0, badC := false
             frozen := none, frozenFor := 0, asked := false, asking := none, go := false, answer := none, request := none, retouch := false
             handler := g.entry.handler, savedCtl := g.entry.savedCtl
             segment := some { g with rewinds := g.rewinds + 1, wroteV := 0, wroteT := 0, liveV := 0, liveT := 0 } }

/-! ## Stopping and resuming (R172, R227-R230) -/

/-- A latch in its place: in landing order, and at one boundary in ascending unit (R228). -/
def insertLatch (l : Latch) : List Latch → List Latch
  | [] => [l]
  | a :: rest =>
    if l.offset < a.offset || (l.offset = a.offset && l.result.unit.val < a.result.unit.val) then l :: a :: rest else a :: insertLatch l rest

/-- The results in flight go into the snapshot latches (R228). -/
def CoreBank.capture (b : CoreBank) (cycle : Nat) : CoreBank :=
  { b with flights := []
           latches := b.flights.zipIdx.foldl (fun l f => insertLatch ⟨f.1.land - cycle, b.latches.length + f.2, f.1⟩ l) b.latches }

/-- Latches in the order of issue: an element in its place. -/
def insertIssued (l : Latch) : List Latch → List Latch
  | [] => [l]
  | a :: rest => if l.order < a.order then l :: a :: rest else a :: insertIssued l rest
/-- The latched results fly again, in the order they were issued, and count as issued before everything issued later (R229). -/
def CoreBank.release (b : CoreBank) (cycle : Nat) : CoreBank :=
  { b with latches := []
           flights := ((b.latches.foldl (fun k l => insertIssued l k) []).map fun l => { l.result with land := cycle + l.offset }) ++ b.flights }

def State.captureBank (s : State) (n : Nat) (x : Side) : State :=
  s.modRow n fun r => r.mapBanks x fun _ b => b.capture (r.bank x).cycle

/-- The bank takes the row again: its latched results fly again (R225, R229). -/
def State.releaseBank (s : State) (n : Nat) (x : Side) : State :=
  s.modRow n fun r => r.mapBanks x fun _ b => b.release (r.bank x).cycle

/-- The tile of a step not yet begun is busy again (R172). -/
def State.busyAgain (s : State) (n : Nat) (x : Side) : State :=
  ((s.bank n x).matOps.map (·.tile)).foldl (fun s t => s.modRow n (·.mapCores fun _ c => { c with busy := setBit8 c.busy t true })) s

/-- A stopped bank resumes (R172, R229): latched results fly again, tiles with steps left are busy again, and 8 cycles pass before the
first issue, before which the bank touches those tiles. -/
def State.resumeBank (s : State) (n : Nat) (x : Side) : State :=
  ((s.releaseBank n x).busyAgain n x).modBank n x fun b => { b with phase := .run, waitLeft := 8, faults := [], retouch := true }

/-- What a trapping bundle's acq has taken is freed again, and its rel, which performs only as it issues, releases nothing: no word changes
(R67, R192, R193). -/
def State.withdrawLocks (s : State) (n : Nat) (x : Side) : State :=
  let mine (q : Pending) : Bool := q.row == n && q.side == x && (q.op.isLock || q.op.atIssue)
  let s := (s.pend.filter mine).foldl (fun s q =>
    match q.op with
    | .lock _ _ ts => ts.foldl (fun s t => if t.2.2 then s.writePlace t.2.1 (bytesOfWord 0) else s) s
    | _ => s) s
  { s with pend := s.pend.filter fun q => !mine q }

/-- The bank's request to its governor is withdrawn and a permit it holds is returned. -/
def State.dropPermit (s : State) (n : Nat) (x : Side) : State :=
  (s.modBank n x fun b => { b with permit := .none }).modRegion (regionOf n) fun g =>
    { g with requests := g.requests.filter fun q => !(q.row == n && q.side == x) }

/-- The row's arrival at the open rendezvous of its launch is taken back. -/
def State.leaveRendezvous (s : State) (n launch : Nat) : State :=
  { s with launches := s.launches.map fun l =>
      if l.id = launch then
        { l with rendezvous := l.rendezvous.bind fun p =>
            if p.2.filter (· != n) = [] then none else some (p.1, p.2.filter (· != n)) }
      else l }

/-- A launch or rerun that a bundle has had accepted and that has not issued is taken back: it has placed nothing yet (R67, R217). -/
def State.dropRequest (s : State) (n : Nat) (x : Side) : State :=
  { s with launches := s.launches.filter (·.asker != some (n, x))
           agenda := s.agenda.filter (·.2 != .answerSpawn n x) }

/-- No syllable of a bundle that traps takes effect: what it asked for while it was frozen is withdrawn (R67).
(DEDUCED: log entry 103.) -/
def State.withdraw (s : State) (n : Nat) (x : Side) : State :=
  let b := s.bank n x
  let s := s.withdrawLocks n x
  let s := match b.asking with
    | some .permit => s.dropPermit n x
    | some .rendezvous => if b.go then s else s.leaveRendezvous n b.info.launch
    | some .hold =>
      if (s.bank n (otherSide x)).phase = .stopped .hold then s.resumeBank n (otherSide x) else s
    | some .answer => s.dropRequest n x
    | none => s
  match b.atBar with
  | some p => s.modBank n x fun b => { b with atBar := none, arrivals := b.arrivals.set p.2.1.val (b.arrivals[p.2.1] - 1) }
  | none => s

/-- A park or stabled stop withdraws a waiting request and returns a held permit; the class stays noted, for the bank asks for it again
as it resumes (R327). -/
def State.withdrawPermit (s : State) (n : Nat) (x : Side) : State :=
  let c : Option (Fin 8) := match (s.bank n x).permit with
    | .held c => some c
    | .waiting c _ => some c
    | .none => none
  match c with
  | some c =>
    (s.modBank n x fun b => { b with permit := .waiting c s.time }).modRegion (regionOf n) fun g =>
      { g with requests := g.requests.filter fun q => !(q.row == n && q.side == x) }
  | none => s

/-- Whether a stop moves the bank to the siding (R230). -/
def StopKind.toSiding : StopKind → Bool
  | .park | .stabled => true
  | .preempt | .tileFault | .hold => false

/-- A bank stops (R227): results captured, begun matrix steps landed and their tile no longer busy, the kind noted. -/
def State.stopBank (s : State) (n : Nat) (x : Side) (k : StopKind) : State :=
  let s := (s.captureBank n x).stopEngine n x
  let s := if k.toSiding then s.withdrawPermit n x else s
  s.modBank n x fun b => { b with phase := .stopped k, stopReq := none, frozen := none, frozenFor := 0 }

/-- A save the other bank's missing save area refuses (R31, R154). -/
def Row.nosave (r : Row) (x : Side) (t : TReg) : Bool :=
  (r.bank (otherSide x)).tsave = 0xFFFFFFFF && allCores.any fun c => (r.cores[c]).saveDue x t

/-! ## Issue cycles -/

/-- The boundary at the end of an issue cycle of the bank: what is due lands, and the matrix engine's cycle passes. A held cycle does not
count toward a bank switch (R96, R126). -/
def State.passCycle (s : State) (n : Nat) (x : Side) (held : Bool) : State :=
  let s := s.modBank n x fun b => { b with cycle := b.cycle + 1, since := if held then b.since else b.since + 1 }
  (s.landAll n x (s.bank n x).cycle).matrixPass n x

/-- What an issue cycle of the bank does in local stores before its bundle writes: matrix steps that are due copy their entries, and the
ports perform what falls in the cycle; each reads the old bytes (R164, R250). -/
def State.startCycle (s : State) (n : Nat) (x : Side) : State :=
  (s.beginDue n x).performDue n x (s.bank n x).cycle s.pend.length

/-- An issue cycle in which no bundle takes effect. -/
def State.idleCycle (s : State) (n : Nat) (x : Side) (held : Bool) : State :=
  ((s.startCycle n x).passCycle n x held).modRow n (·.stretch (s.row n) x [])

/-- An empty issue cycle: a nop's, a held one, or one before a bundle a vote holds (R79, R96, R126). -/
def State.emptyCycle (s : State) (n : Nat) (x : Side) (vote : Bool) : State :=
  let held := vote || (s.bank n x).heldLeft != 0
  let s := s.modBank n x fun b =>
    { b with nopLeft := b.nopLeft - 1, heldLeft := b.heldLeft - 1, frozen := none, frozenFor := 0, voteHeld := false }
  let s := s.idleCycle n x held
  match (s.bank n x).verdict with
  | some (t, next, cycle) => if (s.bank n x).heldLeft = 0 then s.enterTrap n x t (s.bank n x).pc next cycle else s
  | none => s

/-- A register under a pending vote is read or written (R96). -/
def Bank.voteHolds (b : Bank) (parts : List Part) : Bool :=
  !b.votes.isEmpty && parts.any fun p => (p.syl.locs ++ p.syl.writes).any fun l =>
    match l with
    | .k r => b.votes.any (·.reg == r)
    | _ => false

/-- A cycle that a vote, or an error of the skew line, holds a bundle for: the boundary after it lies in the held window while the bundle is
held still (R96, R225). -/
def State.voteCycle (s : State) (n : Nat) (x : Side) (parts : List Part) : State :=
  (s.emptyCycle n x true).modBank n x fun b => { b with voteHeld := b.voteHolds parts || b.late.isSome }

/-- A cycle in which the bank has no issue cycle: what its ports are to perform now performs, and the rest comes one cycle nearer
(R250). (DEDUCED: log entry 131.) -/
def State.portsPass (s : State) (n : Nat) (x : Side) : State :=
  let s := s.performDue n x (s.bank n x).cycle s.pend.length
  { s with pend := s.pend.map fun q => if q.row == n && q.side == x then { q with due := q.due.map (· - 1) } else q }

/-- Work that goes on while a row is frozen or idle: the local-store ports, the oldest operation that may perform, a walk, a move. -/
def State.serve (s : State) (n : Nat) : State :=
  (((s.portsPass n (s.row n).holder).performFirst).walkNext n).completeFirstMove

/-- A frozen cycle (R222): no issue cycle passes; the bundle's requests are made; the matrix engine runs when the freeze is one that only
it can end. A tile fault stops the bank here (R280). -/
def State.frozenCycle (s : State) (n : Nat) (x : Side) (c : Cause) (engine : Bool) (requests : List (State → State)) : State :=
  let s := s.modBank n x fun b => { b with frozen := some c, frozenFor := b.frozenFor + 1 }
  let s := requests.foldl (fun s f => f s) s
  let s := if engine then s.matrixTick n x else s
  if (s.bank n x).stopReq = some .tileFault then
    (s.modRow n fun r => { r with walked := [] }).promoteFaults n x |>.stopBank n x .tileFault
  else s.serve n

/-- A trapped bundle uses its issue cycle; under skew a guarded one's trap waits for the verdict (R67, R221, R233). -/
def State.trapBundle (s : State) (n : Nat) (x : Side) (t : TrapInfo) (next : BitVec 15) (guarded : Bool) : State :=
  let b := s.bank n x
  let s := (s.modRow n fun r => { r with walked := [] }).withdraw n x
  if guarded && b.info.skew.val != 0 then
    (s.modBank n x fun b => { b with verdict := some (t, next, b.cycle), heldLeft := 63 * b.info.skew.val }).idleCycle n x false
  else (s.enterTrap n x t b.pc next b.cycle).idleCycle n x false

/-! ## An uncorrectable error consumed under skew (R220, R233) -/

/-- The issue cycle of the sequencer's in whose real cycle a core executes a bundle. -/
def Bank.reached (b : Bank) (cycle : Nat) (c : Fin 64) : Nat := cycle + c.val * b.info.skew.val

/-- Outside a segment and under skew, a bundle that is not guarded and in which a core consumes an error issues; the trap is taken in the
real cycle in which the lowest such core executes it. Of two such consumptions the one found first is kept. -/
def State.noteLate (s : State) (n : Nat) (x : Side) (t : TrapInfo) (core : Fin 64) (what : Nat × Nat) (next : BitVec 15) : State :=
  s.modBank n x fun b =>
    let e : LateError := ⟨b.cycle, b.reached b.cycle core, core, what.1, what.2, t, next, ⟨b.frames, b.calls, b.steps, b.pc, next⟩⟩
    if b.late.any (·.due ≤ e.due) then b else { b with late := some e }

/-- A core's part as the skew line has it. -/
def Core.unwind (c : Core) (x : Side) (k : LineCore) (was is : Nat) : Core :=
  let c := c.mod x fun b =>
    { b with s := k.s, v := k.v, q := k.q, reel := k.reel, nflags := k.nflags, macc := k.macc, mops := k.mops
             flights := k.flights.map fun f => { f with land := f.land - was + is } }
  { c with tiles := tableOfFn fun t : Fin 8 => if k.owner[t] == some x && c.owner[t] == some x then k.tiles[t] else c.tiles[t] }

/-- The trap of such a consumption: each core keeps what it executed in earlier real cycles and nothing later, the bank goes on from the
consuming bundle's issue cycle, and the trap is taken at that bundle (R233).
(DEDUCED: log entry 17.) -/
def State.trapLate (s : State) (n : Nat) (x : Side) (e : LateError) : State :=
  let r := s.row n
  let b := r.bank x
  let line := r.line x
  let own (c : Fin 64) : Nat := e.due - c.val * b.info.skew.val
  let back (c : Fin 64) : Option LineEntry := (line.find? fun l => own c ≤ l.cycle)
  let undo := line.reverse.flatMap fun l => l.prior.filter fun w => own w.1 ≤ l.cycle
  let s := undo.foldl (fun s w => s.modCore n w.1 (·.lsWriteRuns [(w.2.1, w.2.2)])) s
  let s := s.modRow n (·.mapCores fun c k =>
    match back c with
    | some l => k.unwind x l.cores[c] l.cycle e.cycle
    | none => k.mod x fun p => { p with flights := p.flights.map fun f => { f with land := f.land - b.cycle + e.cycle } })
  let gone := b.cycle - e.cycle
  let s := s.modRow n fun r => (r.setLine x []).modBank x fun b =>
    { b with cycle := e.cycle, mmaFree := b.mmaFree - gone, pc := e.saved.pc, nopLeft := 0, late := none
             frames := if b.handler then b.frames else e.saved.frames
             calls := if b.handler then b.calls else e.saved.calls
             steps := if b.handler then b.steps else e.saved.steps
             seq := b.seq.map fun f => { f with land := f.land - gone }
             votes := b.votes.map fun v => { v with ready := v.ready - gone }
             fmtNext := b.fmtNext.map fun p => (p.1 - gone, p.2) }
  (s.postConsumed n e.core (e.code, e.line)).trapBundle n x e.trap e.next false

/-! ## The plan of a bundle -/

/-- What presenting a bundle comes to. -/
inductive Plan where
  /-- The bundle waits in empty issue cycles: a vote on a register it reads or writes is pending (R96), or an error in the skew line is to
  be found before its verdict (R221, R233). -/
  | hold
  /-- An error consumed in the skew line is found in this cycle (R233). -/
  | late (e : LateError)
  /-- A posted error is due (R236). -/
  | posted (e : Posted) (p : Part)
  | trap (t : TrapInfo)
  | freeze (c : Cause) (engine : Bool) (requests : List (State → State))
  /-- Nothing is left but what the bundle has to ask for: it asks. -/
  | ask (c : Cause) (requests : List (State → State))
  /-- A resumed bank touches the tiles of its matrix steps, with this many saves and restores (R172). -/
  | retouch (tiles : List TReg) (count : Nat)
  /-- This many lazy saves and restores are due (R154, R155): they take place, and the bundle issues after their 16 cycles each. -/
  | save (count : Nat)
  /-- Some core consumes an uncorrectable error: rewind of this segment (R243). -/
  | rewind (g : Segment)
  | consume (t : TrapInfo)
  /-- In segmented mode the segment ends first, with pops of its own left in the queues: a frozen cycle of that end (R240-R242). -/
  | drain (pops : Nat)
  /-- The segment has ended: an irrevocable bundle issues and the checkpoint is taken after it (R242). -/
  | endSegment
  /-- The segment has ended for want of room: the checkpoint is taken, and the bundle issues into the next segment (R241). -/
  | nextSegment
  /-- The bundle issues; some core is to consume an error in it as the skew line brings it there (R220, R233). -/
  | issueLate (t : TrapInfo) (core : Fin 64)
  | issue

/-- Whether a plan is to issue. -/
def Plan.isIssue : Plan → Bool
  | .issue | .endSegment | .nextSegment | .issueLate _ _ => true
  | _ => false

/-- The tiles the bundle touches. -/
def touched (parts : List Part) : List TReg := parts.filterMap (·.syl.touch)

/-- How many saves and restores touches of tiles need: each once for the row (R155). -/
def State.savesFor (s : State) (n : Nat) (x : Side) (tiles : List TReg) : Nat :=
  let r := s.row n
  tiles.foldl (fun k t =>
    k + (if allCores.any (fun c => (r.cores[c]).saveDue x t) then 1 else 0)
      + (if allCores.any (fun c => (r.cores[c]).restoreDue x t) then 1 else 0)) 0

/-- How many saves and restores the bundle's touches need. -/
def State.savesDue (s : State) (n : Nat) (x : Side) (parts : List Part) : Nat := s.savesFor n x (touched parts)

/-- Whether the bundle's stores would be more than 64 in some core's buffer (R241). -/
def State.overfills (s : State) (n : Nat) (x : Side) (parts : List Part) : Bool :=
  let k := parts.foldl (fun a p => a + p.syl.stores) 0
  k != 0 && (s.bank n x).bufferStores parts && allCores.any fun c => 64 < ((s.row n).cb x c).segBuf.length + k

/-- What a segment end comes to before the bundle issues: it is irrevocable, or overfills the buffer; none where it does neither. -/
def State.segmentPlan (s : State) (n : Nat) (x : Side) (parts : List Part) : Option Plan :=
  let k := popsBefore parts
  if (s.bank n x).segment.isNone then none
  else if parts.any (·.syl.irrevocable) then
    some (if s.segmentEnded n x (k.1 + k.2) then .endSegment else .drain (k.1 + k.2))
  else if s.overfills n x parts then some (if s.segmentEnded n x (k.1 + k.2) then .nextSegment else .drain (k.1 + k.2))
  else none

/-- What the skew line's error makes of a bundle: found now, or to be found before a guarded bundle's verdict or the block's end. -/
def Bank.latePlan (b : Bank) (parts : List Part) : Option Plan :=
  match b.late with
  | none => none
  | some e =>
    if e.due ≤ b.cycle then some (.late e)
    else if parts.any fun p => p.syl.isGuarded || p.syl.ends then some .hold else none

/-- What the touch of the matrix steps' tiles makes of a resumed bank's first bundle (R172, R173). -/
def State.retouchPlan (s : State) (n : Nat) (x : Side) : Option Plan :=
  let b := s.bank n x
  if !b.retouch then none
  else
    let r := s.row n
    let tiles := (b.matOps.map (·.tile)).filter fun t => allCores.any fun c => (r.cores[c]).owner[t] != some x
    if tiles.isEmpty then none
    else if tiles.any (r.bank (otherSide x)).busies then some (.freeze .tileBusy false [])
    else if tiles.any (r.nosave x) then some (.trap (TrapInfo.row .tileNosave))
    else some (.retouch tiles (s.savesFor n x tiles))

/-- What consumed uncorrectable errors make of a bundle (R233, R243). -/
def State.consumePlan (s : State) (n : Nat) (x : Side) (parts : List Part) (next : BitVec 15) : Option Plan :=
  let b := s.bank n x
  let is := s.issues n x next parts
  let eats := s.consumes n x is
  match firstCore fun c => eats c != 0 with
  | none => none
  | some core =>
    let mask := coreMask fun c => eats c != 0
    match b.segment with
    | some g =>
      if g.rewinds < 2 && allCores.all (fun c => eats c != 2) then some (.rewind g) else some (.consume (s.consumedTrap n x is mask))
    | none =>
      if b.info.skew.val = 0 || parts.any (·.syl.isGuarded) then some (.consume (s.consumedTrap n x is mask))
      else some (.issueLate (s.consumedTrap n x is (BitVec.twoPow 64 core.val)) core)

/-- The plan of presenting a bundle whose conditions have neither trapped nor frozen it: consumed errors, the segment's end, what it has to
ask for, the lazy saves immediately before it issues (R154, R242, R243).
(DEDUCED: log entry 104.) -/
def State.clearPlan (s : State) (n : Nat) (x : Side) (parts : List Part) (next : BitVec 15) (vs : List (Part × Verdict)) : Plan :=
  let eaten := s.consumePlan n x parts next
  match (match eaten with | some (.issueLate _ _) => none | p => p) with
  | some p => p
  | none =>
    let ending := s.segmentPlan n x parts
    match ending with
    | some (.drain k) => .drain k
    | _ =>
      match firstAsk vs with
      | some (c, fs) => .ask c fs
      | none =>
        let saves := s.savesDue n x parts
        if saves != 0 then .save saves
        else (ending.orElse fun _ => eaten).getD .issue

/-- The writes of a bundle to frames of other panels (R253). -/
def State.remoteWrites (s : State) (is : List (Part × Issue)) : Nat :=
  s.offWrites (is.flatMap fun p => allCores.flatMap fun c => p.1.syl.remote p.2 c)

/-- The writes to frames of other panels that a bundle issues, with those of the buffers it commits as it issues (R114, R253). -/
def State.writesDue (s : State) (n : Nat) (x : Side) (is : List (Part × Issue)) : Nat :=
  s.remoteWrites is + (if is.any (·.1.syl.ends) then s.bufferedOff n x else 0)

/-- The plan of presenting a bundle (R67, R96, R154, R236, R242, R243, R253). -/
def State.plan (s : State) (n : Nat) (x : Side) (parts : List Part) (next : BitVec 15) : Plan :=
  let b := s.bank n x
  if (s.row n).stalled x then .freeze .reelEmpty false []
  else match b.latePlan parts with
  | some p => p
  | none =>
    if b.voteHolds parts then .hold
    else match s.postedDue n x parts with
    | some (e, p) => .posted e p
    | none =>
      match s.retouchPlan n x with
      | some p => p
      | none =>
        let vs := s.verdicts n x next parts
        match firstTrap vs with
        | some t => .trap t
        | none =>
          match firstFreeze vs with
          | some (c, e, fs) => .freeze c e fs
          | none =>
            if s.acksOver n x (s.writesDue n x (s.issues n x next parts)) then .freeze .drain false []
            else s.clearPlan n x parts next vs

/-- The pops of a bundle are taken from a core's queues (R66). -/
def CoreBank.dropPops (b : CoreBank) (k : Nat × Nat) : CoreBank :=
  let gone := ((b.queue false).take k.1 ++ (b.queue true).take k.2).map (·.id)
  { b with loads := b.loads.filter fun r => !(gone.contains r.id) }

/-- The bundle's results enter flight and its pops leave the queues, in every core. -/
def State.enterResults (s : State) (n : Nat) (x : Side) (is : List (Part × Issue)) : State :=
  let k := popsBefore (is.map (·.1))
  s.modRow n fun r =>
    { (r.mapBanks x fun c b =>
        let b := if k.1 + k.2 = 0 then b else b.dropPops k
        { b with flights := b.flights ++ is.flatMap fun p => p.1.syl.fly (p.2.rd c) }) with walked := [] }

/-- The bank takes tiles, with the lazy saves and restores that this needs (R154). -/
def State.takeTiles (s : State) (n : Nat) (x : Side) (tiles : List TReg) : State :=
  tiles.foldl (fun s t => s.modRow n (·.takeTile x t)) s

/-- The bundle issues whole (R67): tiles taken, results in flight, pc and loops moved on, the syllables' other effects in ascending unit
order, what the cycle does in local stores, the bundle's writes to them, and then its issue cycle passes. A guarded bundle is followed by
63 x skew held cycles (R221).
(DEDUCED: log entry 16.) -/
def State.commit (s : State) (n : Nat) (x : Side) (parts : List Part) (next : BitVec 15) : State :=
  let is := s.issues n x next parts
  let guarded := parts.any (·.syl.isGuarded)
  let t := (s.takeTiles n x (touched parts)).enterResults n x is
  let t := t.modBank n x fun b =>
    { (b.passBundle next) with
        frozen := none, frozenFor := 0, asked := false, asking := none, go := false, answer := none, request := none
        voteHeld := false, retouch := false
        segment := b.segment.map fun g => (g.read parts).write parts
        heldLeft := if guarded then 63 * b.info.skew.val else 0 }
  let t := is.foldl (fun t p => p.1.syl.effect p.2 t) t
  let t := (t.startCycle n x).putAll n x (s.bank n x).cycle is
  (t.passCycle n x false).modRow n (·.stretch (s.row n) x (s.putPrior n is))

/-- The first of the cycles of so many saves and restores, during which the bank is frozen and the row keeps it (R155, R225).
(DEDUCED: log entry 135.) -/
def State.saveCycle (s : State) (n : Nat) (x : Side) (k : Nat) : State :=
  (s.modBank n x fun b => { b with frozen := some .tileSave, frozenFor := b.frozenFor + 1, waitLeft := 16 * k - 1 }).serve n

/-- The plan is carried out. A posted error is reported with a guarded bundle's held cycles (R233).
(DEDUCED: log entry 105.) -/
def State.carryOut (s : State) (n : Nat) (x : Side) (parts : List Part) (next : BitVec 15) (p : Plan) : State :=
  let guarded := parts.any (·.syl.isGuarded)
  match p with
  | .hold => s.voteCycle n x parts
  | .late e => s.trapLate n x e
  | .posted e q => (s.modBank n x fun b => { b with posted := b.posted.erase e }).trapBundle n x (e.trapInfo.at q) next guarded
  | .trap t => s.trapBundle n x t next guarded
  | .freeze c e fs => s.frozenCycle n x c e fs
  | .ask c fs => s.frozenCycle n x c false fs
  | .retouch ts k =>
    let s := ts.foldl (fun s t => s.modRow n fun r =>
      (r.takeTile x t).mapCores fun _ c => { c with busy := setBit8 c.busy t true }) s
    s.saveCycle n x k
  | .save k => (s.takeTiles n x (touched parts)).saveCycle n x k
  | .rewind g =>
    let is := s.issues n x next parts
    let core := (firstCore fun c => s.consumes n x is c != 0).getD 0
    ((s.postConsumed n core (s.consumed n x is core)).withdraw n x).rewind n x g
  | .consume t =>
    let core := (firstCore fun c => t.mask.getLsbD c.val).getD 0
    let what := s.consumed n x (s.issues n x next parts) core
    let s := s.modRow n (·.mapBanks x fun _ b => { b with residue := false })
    (s.postConsumed n core what).trapBundle n x t next guarded
  | .drain k => s.frozenCycle n x .drain false [fun s => s.endCycle n x k]
  | .endSegment => (s.commit n x parts next).takeCheckpoint n x
  | .nextSegment => (s.takeCheckpoint n x).commit n x parts next
  | .issueLate t core =>
    ((s.noteLate n x t core (s.consumed n x (s.issues n x next parts) core) next).modRow n (·.mapBanks x fun _ b => { b with residue := false })).commit n x parts next
  | .issue => s.commit n x parts next

/-- A bundle is presented for issue in a cycle of its bank. -/
def State.present (s : State) (n : Nat) (x : Side) (parts : List Part) (next : BitVec 15) : State :=
  s.carryOut n x parts next (s.plan n x parts next)

/-- A bank presents a bundle in this cycle: it runs, the row is not switching, and no empty, held or waiting cycle is to come. -/
def State.presents (s : State) (n : Nat) (x : Side) : Bool :=
  let b := s.bank n x
  b.phase == .run && (s.row n).switch == 0 && b.nopLeft == 0 && b.heldLeft == 0 && b.waitLeft == 0 && b.verdict.isNone && b.stopReq.isNone

/-- A syllable the bank has no right to hold traps PRIV_OP at decode (R64, R214). -/
def privTrap (p : Part) : TrapInfo := (TrapInfo.row .privOp).at p

/-- The bank that holds the current row presents a bundle of one syllable: what exec does with a syllable. Its word is the
encoding with E = 1. A bank that presents nothing in this cycle leaves the state as it is.
(DEDUCED: log entry 94.) -/
def presentOne (s : State) (y : Syl) (i : Instr) : State :=
  let x := (s.row s.cur).holder
  let p : Part := ⟨y, (encodeSyl true i).getD 0⟩
  let b := s.bank s.cur x
  if !s.presents s.cur x then s
  else if y.permitted b then s.present s.cur x [p] (b.pc + 1)
  else s.trapBundle s.cur x (privTrap p) (b.pc + 1) false

end Sys2Proof.Machine
end

