-- ==== Sys2Proof/Machine/Vector.lean ====
section
/-! DEFINITION. The vector instructions of VA and VB (R127-R150): each one's syllable, and what exec does with it. -/

namespace Sys2Proof.Machine

/-! ## Forms: spans, active elements, merged results (R127, R128) -/

/-- Whether a predicate enables a byte. -/
def Rd.enabled (r : Rd) (q : QReg) (byte : Nat) : Bool := (r.cb.qget q).getLsbD byte

/-- Element `i`, `w` bits wide, of a source in a span. -/
def spanElement (u : Twin) (wd : Width) (w : Nat) (x : Vec) (i : Nat) : Nat := vecAt x (spanLo u wd + i * w / 8) w

/-- The bytes that `n` elements `w` bits wide from a byte on are written at: each under its own predicate bit, so the enabled bytes of a
partly enabled element too (R128).
(DEDUCED: log entry 41.) -/
def Rd.enabledMask (r : Rd) (q : QReg) (lo n w : Nat) : Pred := r.cb.qget q &&& byteMask lo (n * w / 8)

/-- A vector result of `n` elements `w` bits wide: each element's value and flags, written to the enabled bytes, its flags raised
where its lowest byte is enabled (R128).
(DEDUCED: log entry 41.) -/
def Rd.vector (r : Rd) (u : Twin) (wd : Width) (q : QReg) (n w l : Nat) (d : VDst) (f : Nat → Nat × Flags) : Flight :=
  let lo := spanLo u wd
  let es := (List.range n).map f
  ⟨r.bank.cycle + l, unitV u, .v (d.castLE (by decide)) (vecOf lo w (es.map (·.1))) (r.enabledMask q lo n w),
   es.zipIdx.foldl (fun g e => if r.enabled q (lo + e.2 * w / 8) then g ||| e.1.2 else g) 0⟩

/-- The write set of a vector destination. -/
def writeV (d : VDst) : List Loc := [.v (d.castLE (by decide))]

/-- A predicated form of two vector sources over elements `w` bits wide. -/
def vectorRR (u : Twin) (d : VDst) (a b : VReg) (q : QReg) (wd : Width) (w l : Nat) (f : Nat → Nat → Nat × Flags) : Syl :=
  { unit := unitV u, a := .v a, b := .v b, reads := readQ q, writes := writeV d, width := widthBits wd
    fly := fun r =>
      [r.vector u wd q (widthBits wd / w) w l d fun i => f (spanElement u wd w r.av i) (spanElement u wd w r.bv i)] }

/-- A predicated form of one vector source. -/
def vectorR (u : Twin) (d : VDst) (a : VReg) (q : QReg) (wd : Width) (w l : Nat) (f : Nat → Nat × Flags) : Syl :=
  { unit := unitV u, a := .v a, reads := readQ q, writes := writeV d, width := widthBits wd
    fly := fun r => [r.vector u wd q (widthBits wd / w) w l d fun i => f (spanElement u wd w r.av i)] }

/-- A form of two sources that reads its destination as the addend too (R134). -/
def vectorRRD (u : Twin) (d : VDst) (a b : VReg) (q : QReg) (wd : Width) (w l : Nat) (f : Nat → Nat → Nat → Nat × Flags) : Syl :=
  { unit := unitV u, d := .v (d.castLE (by decide)), a := .v a, b := .v b, reads := readQ q, writes := writeV d, width := widthBits wd
    fly := fun r =>
      [r.vector u wd q (widthBits wd / w) w l d fun i =>
        f (spanElement u wd w r.av i) (spanElement u wd w r.bv i) (spanElement u wd w r.dv i)] }

/-- A result without flags. -/
def quiet (x : Nat) : Nat × Flags := (x, 0)

/-- An integer form over the element type's width, which raises no flag (R133). -/
def vectorInt (u : Twin) (d : VDst) (a b : VReg) (q : QReg) (wd : Width) (t : EType) (f : Nat → Nat → Nat → Nat) : Syl :=
  vectorRR u d a b q wd (eBits t) 2 fun x y => quiet (f (eBits t) x y)
/-- A logic form: per byte (R133). -/
def vectorLogic (u : Twin) (d : VDst) (a b : VReg) (q : QReg) (wd : Width) (f : Nat → Nat → Nat) : Syl :=
  vectorRR u d a b q wd 8 2 fun x y => quiet (f x y)

/-! ## Integer arithmetic, logic and shifts (R133) -/

def sylVadd (u : Twin) (d : VDst) (a b : VReg) (q : QReg) (w : Width) (t : EType) : Syl :=
  vectorInt u d a b q w t fun w x y => wrap ((x : Int) + y) w
def sylVsub (u : Twin) (d : VDst) (a b : VReg) (q : QReg) (w : Width) (t : EType) : Syl :=
  vectorInt u d a b q w t fun w x y => wrap ((x : Int) - y) w
def sylVmul (u : Twin) (d : VDst) (a b : VReg) (q : QReg) (w : Width) (t : EType) : Syl :=
  vectorInt u d a b q w t fun w x y => wrap (signext x w * signext y w) w
def sylVmulh (u : Twin) (d : VDst) (a b : VReg) (q : QReg) (w : Width) (t : EType) : Syl :=
  vectorInt u d a b q w t fun w x y => wrap ((signext x w * signext y w) / 2 ^ w) w
def sylVmin (u : Twin) (d : VDst) (a b : VReg) (q : QReg) (w : Width) (t : EType) : Syl :=
  vectorInt u d a b q w t fun w x y => if signext x w ≤ signext y w then x else y
def sylVmax (u : Twin) (d : VDst) (a b : VReg) (q : QReg) (w : Width) (t : EType) : Syl :=
  vectorInt u d a b q w t fun w x y => if signext y w ≤ signext x w then x else y
def sylVabs (u : Twin) (d : VDst) (a : VReg) (q : QReg) (w : Width) (t : EType) : Syl :=
  vectorR u d a q w (eBits t) 2 fun x => quiet (wrap ((signext x (eBits t)).natAbs : Int) (eBits t))
def sylVneg (u : Twin) (d : VDst) (a : VReg) (q : QReg) (w : Width) (t : EType) : Syl :=
  vectorR u d a q w (eBits t) 2 fun x => quiet (wrap (-signext x (eBits t)) (eBits t))
def sylVand (u : Twin) (d : VDst) (a b : VReg) (q : QReg) (w : Width) : Syl := vectorLogic u d a b q w fun x y => x &&& y
def sylVor (u : Twin) (d : VDst) (a b : VReg) (q : QReg) (w : Width) : Syl := vectorLogic u d a b q w fun x y => x ||| y
def sylVxor (u : Twin) (d : VDst) (a b : VReg) (q : QReg) (w : Width) : Syl := vectorLogic u d a b q w fun x y => x ^^^ y
def sylVandn (u : Twin) (d : VDst) (a b : VReg) (q : QReg) (w : Width) : Syl :=
  vectorLogic u d a b q w fun x y => x &&& (255 - y)
def sylVshl (u : Twin) (d : VDst) (a b : VReg) (q : QReg) (w : Width) (t : EType) : Syl :=
  vectorInt u d a b q w t fun w x y => x * 2 ^ (y % w) % 2 ^ w
def sylVshr (u : Twin) (d : VDst) (a b : VReg) (q : QReg) (w : Width) (t : EType) : Syl :=
  vectorInt u d a b q w t fun w x y => x / 2 ^ (y % w)
def sylVsar (u : Twin) (d : VDst) (a b : VReg) (q : QReg) (w : Width) (t : EType) : Syl :=
  vectorInt u d a b q w t fun w x y => wrap (signext x w / 2 ^ (y % w)) w

/-- The clamp of vadds and vsubs, which raises sat. -/
def saturate (w : Nat) (x : Int) : Nat × Flags := (wrap (satsigned x w).1 w, Flags.when (satsigned x w).2 Flags.sat)

def sylVadds (u : Twin) (d : VDst) (a b : VReg) (q : QReg) (w : Width) (t : EType) : Syl :=
  vectorRR u d a b q w (eBits t) 2 fun x y => saturate (eBits t) (signext x (eBits t) + signext y (eBits t))
def sylVsubs (u : Twin) (d : VDst) (a b : VReg) (q : QReg) (w : Width) (t : EType) : Syl :=
  vectorRR u d a b q w (eBits t) 2 fun x y => saturate (eBits t) (signext x (eBits t) - signext y (eBits t))

/-! ## Floating point (R134, R135) -/

def sylVfadd (u : Twin) (d : VDst) (a b : VReg) (q : QReg) (w : Width) (f : FType) : Syl :=
  vectorRR u d a b q w (fmtOf f).width 4 (fAdd (fmtOf f) false)
def sylVfsub (u : Twin) (d : VDst) (a b : VReg) (q : QReg) (w : Width) (f : FType) : Syl :=
  vectorRR u d a b q w (fmtOf f).width 4 (fAdd (fmtOf f) true)
def sylVfmul (u : Twin) (d : VDst) (a b : VReg) (q : QReg) (w : Width) (f : FType) : Syl :=
  vectorRR u d a b q w (fmtOf f).width 4 (fMul (fmtOf f))
def sylVfma (u : Twin) (d : VDst) (a b : VReg) (q : QReg) (w : Width) (f : FType) : Syl :=
  vectorRRD u d a b q w (fmtOf f).width 4 (fMulAdd (fmtOf f) false)
def sylVfms (u : Twin) (d : VDst) (a b : VReg) (q : QReg) (w : Width) (f : FType) : Syl :=
  vectorRRD u d a b q w (fmtOf f).width 4 (fMulAdd (fmtOf f) true)
def sylVfmin (u : Twin) (d : VDst) (a b : VReg) (q : QReg) (w : Width) (f : FType) : Syl :=
  vectorRR u d a b q w (fmtOf f).width 4 (fMinMax (fmtOf f) false)
def sylVfmax (u : Twin) (d : VDst) (a b : VReg) (q : QReg) (w : Width) (f : FType) : Syl :=
  vectorRR u d a b q w (fmtOf f).width 4 (fMinMax (fmtOf f) true)
def sylVfabs (u : Twin) (d : VDst) (a : VReg) (q : QReg) (w : Width) (f : FType) : Syl :=
  vectorR u d a q w (fmtOf f).width 4 (fAbs (fmtOf f))
def sylVfneg (u : Twin) (d : VDst) (a : VReg) (q : QReg) (w : Width) (f : FType) : Syl :=
  vectorR u d a q w (fmtOf f).width 4 (fNeg (fmtOf f))
def sylVexp2 (u : Twin) (d : VDst) (a : VReg) (q : QReg) (w : Width) (f : FType) : Syl :=
  vectorR u d a q w (fmtOf f).width 8 (fExp2 (fmtOf f))
def sylVlog2 (u : Twin) (d : VDst) (a : VReg) (q : QReg) (w : Width) (f : FType) : Syl :=
  vectorR u d a q w (fmtOf f).width 8 (fLog2 (fmtOf f))
def sylVrcp (u : Twin) (d : VDst) (a : VReg) (q : QReg) (w : Width) (f : FType) : Syl :=
  vectorR u d a q w (fmtOf f).width 8 (fRcp (fmtOf f))
def sylVrsqrt (u : Twin) (d : VDst) (a : VReg) (q : QReg) (w : Width) (f : FType) : Syl :=
  vectorR u d a q w (fmtOf f).width 8 (fRsqrt (fmtOf f))

/-! ## Compares and predicates (R136-R139) -/

/-- A predicate made of one outcome an element of `k` bytes, from byte `lo` on. -/
def predOf (lo k : Nat) (xs : List Bool) : Pred :=
  BitVec.ofNat 128 (xs.foldr (fun x acc => (if x then 2 ^ k - 1 else 0) + 2 ^ k * acc) 0 * 2 ^ lo)

/-- A compare: every bit of an element takes its outcome, and every element raises its flags (R136, R137). -/
def vectorCmp (u : Twin) (d : QReg) (a b : VReg) (wd : Width) (w l : Nat) (f : Nat → Nat → Bool × Flags) : Syl :=
  { unit := unitV u, a := .v a, b := .v b, writes := [.q d], width := widthBits wd
    fly := fun r =>
      let es := (List.range (widthBits wd / w)).map fun i => f (spanElement u wd w r.av i) (spanElement u wd w r.bv i)
      [⟨r.bank.cycle + l, unitV u,
        .q d (predOf (spanLo u wd) (w / 8) (es.map (·.1))) (byteMask (spanLo u wd) (widthBits wd / 8)),
        es.foldl (fun g e => g ||| e.2) 0⟩] }

/-- The condition of vcmp (R136). -/
def vcmpHolds (c : VCond) (w x y : Nat) : Bool :=
  match c with
  | .eq => x == y
  | .ne => x != y
  | .lt => signext x w < signext y w
  | .le => signext x w ≤ signext y w
  | .ltn => x < y
  | .len => x ≤ y

def sylVcmp (u : Twin) (d : QReg) (a b : VReg) (c : VCond) (w : Width) (t : EType) : Syl :=
  vectorCmp u d a b w (eBits t) 2 fun x y => (vcmpHolds c (eBits t) x y, 0)
def sylVfcmp (u : Twin) (d : QReg) (a b : VReg) (c : FCond) (w : Width) (f : FType) : Syl :=
  vectorCmp u d a b w (fmtOf f).width 4 fun x y => fCompare (fmtOf f) c x y

/-- A predicate syllable: bitwise over the bits of the span (R138). -/
def predicateForm (u : Twin) (d : QReg) (qs : List QReg) (wd : Width) (f : CoreBank → Pred) : Syl :=
  { unit := unitV u, reads := qs.flatMap readQ, writes := [.q d], width := widthBits wd
    fly := fun r => [⟨r.bank.cycle + 2, unitV u, .q d (f r.cb) (byteMask (spanLo u wd) (widthBits wd / 8)), 0⟩] }

def sylQand (u : Twin) (d a b : QReg) (w : Width) : Syl := predicateForm u d [a, b] w fun c => c.qget a &&& c.qget b
def sylQor (u : Twin) (d a b : QReg) (w : Width) : Syl := predicateForm u d [a, b] w fun c => c.qget a ||| c.qget b
def sylQxor (u : Twin) (d a b : QReg) (w : Width) : Syl := predicateForm u d [a, b] w fun c => c.qget a ^^^ c.qget b
def sylQnot (u : Twin) (d a : QReg) (w : Width) : Syl := predicateForm u d [a] w fun c => ~~~ c.qget a
def sylQcnt (u : Twin) (d : SDst) (a : QReg) (w : Width) : Syl :=
  { unit := unitV u, reads := readQ a, writes := writeS d, width := widthBits w
    fly := fun r =>
      let n := (List.range (widthBits w / 8)).foldl (fun k i => if r.enabled a (spanLo u w + i) then k + 1 else k) 0
      [r.scalar (unitV u) 2 d (BitVec.ofNat 64 n)] }

/-- vsel: the selector chooses each byte of the span, and every byte is written (R139). -/
def sylVsel (u : Twin) (d : VDst) (a b : VReg) (q : QReg) (w : Width) : Syl :=
  { unit := unitV u, a := .v a, b := .v b, reads := readQ q, writes := writeV d, width := widthBits w
    fly := fun r =>
      [r.vector u w 0 (widthBits w / 8) 8 2 d fun i =>
        quiet (if r.enabled q (spanLo u w + i) then spanElement u w 8 r.av i else spanElement u w 8 r.bv i)] }

/-! ## Conversions (R140, R141) -/

/-- vcvt: elements are placed by the wider of the two widths, and written over the narrow prefix of the span. -/
def sylVcvt (u : Twin) (d : VDst) (a : VReg) (c : Fin 32) (q : QReg) (w : Width) (m : RMode) : Syl :=
  let ws := (cvtSpec c).1
  let wd := (cvtSpec c).2.1
  { unit := unitV u, a := .v a, reads := readQ q, writes := writeV d, width := widthBits w
    fly := fun r =>
      [r.vector u w q (widthBits w / max ws wd) wd 4 d fun i => (cvtSpec c).2.2 m (spanElement u w ws r.av i)] }

/-! ## Broadcast, extract, permute (R142-R144) -/

def sylVbcast (u : Twin) (d : VDst) (a : SReg) (q : QReg) (w : Width) (t : EType) : Syl :=
  { unit := unitV u, a := .s a, reads := readQ q, writes := writeV d, width := widthBits w
    fly := fun r => [r.vector u w q (widthBits w / eBits t) (eBits t) 2 d fun _ => quiet (r.a.toNat % 2 ^ eBits t)] }
def sylVext (u : Twin) (d : SDst) (a : VReg) (b : SReg) (w : Width) (t : EType) : Syl :=
  { unit := unitV u, a := .v a, b := .s b, writes := writeS d, width := widthBits w
    fly := fun r =>
      let x := spanElement u w (eBits t) r.av (r.b.toNat % (widthBits w / eBits t))
      [r.scalar (unitV u) 2 d (BitVec.ofInt 64 (signext x (eBits t)))] }
def sylVperm (u : Twin) (d : VDst) (a b : VReg) (q : QReg) (w : Width) (t : EType) : Syl :=
  { unit := unitV u, a := .v a, b := .v b, reads := readQ q, writes := writeV d, width := widthBits w
    fly := fun r =>
      let n := widthBits w / eBits t
      [r.vector u w q n (eBits t) 2 d fun i =>
        quiet (spanElement u w (eBits t) r.av (spanElement u w (eBits t) r.bv i % n))] }

/-! ## Reductions and scans (R145-R147) -/

/-- The element width of a reduction. -/
def redBits : RedOp → Nat
  | .add t | .min t | .max t => eBits t
  | .fadd f | .fmin f | .fmax f => (fmtOf f).width
/-- Its latency: 4 for integer operations, 8 for floating ones (R76). -/
def redLatency : RedOp → Nat
  | .add _ | .min _ | .max _ => 4
  | .fadd _ | .fmin _ | .fmax _ => 8
/-- A node's value and flags; the left operand is the lower element. -/
def redNode : RedOp → Nat → Nat → Nat × Flags
  | .add t, x, y => quiet ((x + y) % 2 ^ eBits t)
  | .min t, x, y => quiet (if signext x (eBits t) ≤ signext y (eBits t) then x else y)
  | .max t, x, y => quiet (if signext y (eBits t) ≤ signext x (eBits t) then x else y)
  | .fadd f, x, y => fAdd (fmtOf f) false x y
  | .fmin f, x, y => fMinMax (fmtOf f) false x y
  | .fmax f, x, y => fMinMax (fmtOf f) true x y
/-- The result when no element is active. -/
def redIdentity : RedOp → Nat
  | .add _ => 0
  | .min t => 2 ^ (eBits t - 1) - 1
  | .max t => 2 ^ (eBits t - 1)
  | .fadd _ => 0
  | .fmin f => (fmtOf f).infinity false
  | .fmax f => (fmtOf f).infinity true

/-- A node over present and absent values (R145). A value that meets no other passes on unchanged, a NaN with its payload and no flag.
(DEDUCED: log entry 145.) -/
def redJoin (o : RedOp) (x y : Option Nat × Flags) : Option Nat × Flags :=
  match x.1, y.1 with
  | some a, some b => let r := redNode o a b; (some r.1, x.2 ||| y.2 ||| r.2)
  | some a, none => (some a, x.2 ||| y.2)
  | none, b => (b, x.2 ||| y.2)

/-- One level of the tree. -/
def redLevel (o : RedOp) : List (Option Nat × Flags) → List (Option Nat × Flags)
  | x :: y :: rest => redJoin o x y :: redLevel o rest
  | xs => xs
/-- The balanced tree, `k` levels (R146). -/
def redTree (o : RedOp) : Nat → List (Option Nat × Flags) → List (Option Nat × Flags)
  | 0, xs => xs
  | k + 1, xs => redTree o k (redLevel o xs)

/-- One stage of the scan, at distance `k` (R147): its values, each node's own flags gathered apart, the nodes at the positions of inactive
elements among them (R58, R128, R145).
(DEDUCED: log entry 144.) -/
def scanStage (o : RedOp) (k : Nat) (st : List (Option Nat) × Flags) : List (Option Nat) × Flags :=
  let ys := st.1.zipIdx.map fun p =>
    if p.2 < k then (p.1, (0 : Flags)) else redJoin o ((st.1[p.2 - k]?).getD none, 0) (p.1, 0)
  (ys.map (·.1), ys.foldl (fun g y => g ||| y.2) st.2)
/-- The stages from distance `k` on. -/
def scanFrom (o : RedOp) : Nat → Nat → List (Option Nat) × Flags → List (Option Nat) × Flags
  | 0, _, st => st
  | j + 1, k, st => scanFrom o j (2 * k) (scanStage o k st)

/-- The elements of a span, absent where inactive. -/
def Rd.present (r : Rd) (u : Twin) (wd : Width) (q : QReg) (w : Nat) : List (Option Nat) :=
  (List.range (widthBits wd / w)).map fun i =>
    if r.enabled q (spanLo u wd + i * w / 8) then some (spanElement u wd w r.av i) else none

def sylVred (u : Twin) (d : VDst) (a : VReg) (o : RedOp) (q : QReg) (w : Width) : Syl :=
  { unit := unitV u, a := .v a, reads := readQ q, writes := writeV d, width := widthBits w
    fly := fun r =>
      let n := widthBits w / redBits o
      let t := (redTree o 7 ((r.present u w q (redBits o)).map fun x => (x, 0))).head?.getD (none, 0)
      let x := t.1.getD (redIdentity o)
      [⟨r.bank.cycle + redLatency o, unitV u,
        .v (d.castLE (by decide)) (vecOf (spanLo u w) (redBits o) (List.replicate n x)) (r.enabledMask q (spanLo u w) n (redBits o)), t.2⟩] }

def sylVscan (u : Twin) (d : VDst) (a : VReg) (o : RedOp) (q : QReg) (w : Width) : Syl :=
  { unit := unitV u, a := .v a, reads := readQ q, writes := writeV d, width := widthBits w
    fly := fun r =>
      let n := widthBits w / redBits o
      let t := scanFrom o (Nat.log2 n) 1 (r.present u w q (redBits o), 0)
      [⟨r.bank.cycle + redLatency o, unitV u,
        .v (d.castLE (by decide)) (vecOf (spanLo u w) (redBits o) (t.1.map (·.getD (redIdentity o)))) (r.enabledMask q (spanLo u w) n (redBits o)), t.2⟩] }

/-! ## Q4X (R148, R149) -/

/-- An int8 element clamped to -7 ... 7, and whether the clamp changed it. -/
def packNibble (x : Nat) : Nat × Bool :=
  let v := signext x 8
  let c := if v < -7 then -7 else if 7 < v then 7 else v
  (wrap c 4, c != v)

def sylVpack (u : Twin) (d : VDst) (a : VReg) (q : QReg) (w : Width) : Syl :=
  { unit := unitV u, a := .v a, reads := readQ q, writes := writeV d, width := widthBits w
    fly := fun r =>
      [r.vector u w q (widthBits w / 16) 8 2 d fun m =>
        let x := packNibble (spanElement u w 8 r.av (2 * m))
        let y := packNibble (spanElement u w 8 r.av (2 * m + 1))
        (x.1 + 16 * y.1, Flags.when (x.2 || y.2) Flags.sat)] }

/-- The encoding of an exactly representable value. -/
def Fmt.encodeExact (f : Fmt) : Num → Nat
  | .fin neg m e => (f.round .rne false neg m e false).1
  | .inf neg => f.infinity neg
  | .nan _ => f.nan

/-- vunpack: ec is raised for a byte 0x88 either of whose elements is active, so each active element of such a byte raises it. -/
def sylVunpack (u : Twin) (d : VDst) (a : VReg) (b : SReg) (q : QReg) (w : Width) (f : FType) : Syl :=
  { unit := unitV u, a := .v a, b := .s b, reads := readQ q, writes := writeV d, width := widthBits w
    fly := fun r =>
      [r.vector u w q (widthBits w / (fmtOf f).width) (fmtOf f).width 2 d fun i =>
        let p := q4xPair (vecAt r.av (spanLo u w + i / 2) 8) (r.b.toNat % 16)
        ((fmtOf f).encodeExact (if i % 2 = 0 then p.1 else p.2.1), Flags.when p.2.2 Flags.ec)] }

/-! ## Compare and trap (R150) -/

/-- The condition of vchk on one int32 element. -/
def vchkPasses (c : ChkOp) (x y : Nat) : Bool :=
  match c with
  | .eq => x == y
  | .ne => x != y
  | .lt => signext x 32 < signext y 32

def sylVchk (u : Twin) (a b : VReg) (q : QReg) (w : Width) (c : ChkOp) : Syl :=
  { unit := unitV u, a := .v a, b := .v b, reads := readQ q, width := widthBits w, guarded := true
    check := fun i =>
      checkCores .chkFail (fun core =>
        let r := i.rd core
        (List.range (widthBits w / 32)).any fun k =>
          r.enabled q (spanLo u w + 4 * k) && !vchkPasses c (spanElement u w 32 r.av k) (spanElement u w 32 r.bv k))
        (fun _ => 0) (fun _ => 0) }

/-! ## What exec does with each of them: its bank presents the bundle of that one syllable -/

/-- VADD presented by the bank that holds the current row (R67, R133). -/
def execVadd (u : Twin) (d : VDst) (a : VReg) (b : VReg) (q : QReg) (w : Width) (t : EType) (s : State) : Host.Outcome State Fault Refusal :=
  .next (presentOne s (sylVadd u d a b q w t) (.vadd u d a b q w t))

/-- VSUB presented by the bank that holds the current row (R67, R133). -/
def execVsub (u : Twin) (d : VDst) (a : VReg) (b : VReg) (q : QReg) (w : Width) (t : EType) (s : State) : Host.Outcome State Fault Refusal :=
  .next (presentOne s (sylVsub u d a b q w t) (.vsub u d a b q w t))

/-- VMUL presented by the bank that holds the current row (R67, R133). -/
def execVmul (u : Twin) (d : VDst) (a : VReg) (b : VReg) (q : QReg) (w : Width) (t : EType) (s : State) : Host.Outcome State Fault Refusal :=
  .next (presentOne s (sylVmul u d a b q w t) (.vmul u d a b q w t))

/-- VMULH presented by the bank that holds the current row (R67, R133). -/
def execVmulh (u : Twin) (d : VDst) (a : VReg) (b : VReg) (q : QReg) (w : Width) (t : EType) (s : State) : Host.Outcome State Fault Refusal :=
  .next (presentOne s (sylVmulh u d a b q w t) (.vmulh u d a b q w t))

/-- VMIN presented by the bank that holds the current row (R67, R133). -/
def execVmin (u : Twin) (d : VDst) (a : VReg) (b : VReg) (q : QReg) (w : Width) (t : EType) (s : State) : Host.Outcome State Fault Refusal :=
  .next (presentOne s (sylVmin u d a b q w t) (.vmin u d a b q w t))

/-- VMAX presented by the bank that holds the current row (R67, R133). -/
def execVmax (u : Twin) (d : VDst) (a : VReg) (b : VReg) (q : QReg) (w : Width) (t : EType) (s : State) : Host.Outcome State Fault Refusal :=
  .next (presentOne s (sylVmax u d a b q w t) (.vmax u d a b q w t))

/-- VABS presented by the bank that holds the current row (R67, R133). -/
def execVabs (u : Twin) (d : VDst) (a : VReg) (q : QReg) (w : Width) (t : EType) (s : State) : Host.Outcome State Fault Refusal :=
  .next (presentOne s (sylVabs u d a q w t) (.vabs u d a q w t))

/-- VNEG presented by the bank that holds the current row (R67, R133). -/
def execVneg (u : Twin) (d : VDst) (a : VReg) (q : QReg) (w : Width) (t : EType) (s : State) : Host.Outcome State Fault Refusal :=
  .next (presentOne s (sylVneg u d a q w t) (.vneg u d a q w t))

/-- VAND presented by the bank that holds the current row (R67, R133). -/
def execVand (u : Twin) (d : VDst) (a : VReg) (b : VReg) (q : QReg) (w : Width) (s : State) : Host.Outcome State Fault Refusal :=
  .next (presentOne s (sylVand u d a b q w) (.vand u d a b q w))

/-- VOR presented by the bank that holds the current row (R67, R133). -/
def execVor (u : Twin) (d : VDst) (a : VReg) (b : VReg) (q : QReg) (w : Width) (s : State) : Host.Outcome State Fault Refusal :=
  .next (presentOne s (sylVor u d a b q w) (.vor u d a b q w))

/-- VXOR presented by the bank that holds the current row (R67, R133). -/
def execVxor (u : Twin) (d : VDst) (a : VReg) (b : VReg) (q : QReg) (w : Width) (s : State) : Host.Outcome State Fault Refusal :=
  .next (presentOne s (sylVxor u d a b q w) (.vxor u d a b q w))

/-- VANDN presented by the bank that holds the current row (R67, R133). -/
def execVandn (u : Twin) (d : VDst) (a : VReg) (b : VReg) (q : QReg) (w : Width) (s : State) : Host.Outcome State Fault Refusal :=
  .next (presentOne s (sylVandn u d a b q w) (.vandn u d a b q w))

/-- VSHL presented by the bank that holds the current row (R67, R133). -/
def execVshl (u : Twin) (d : VDst) (a : VReg) (b : VReg) (q : QReg) (w : Width) (t : EType) (s : State) : Host.Outcome State Fault Refusal :=
  .next (presentOne s (sylVshl u d a b q w t) (.vshl u d a b q w t))

/-- VSHR presented by the bank that holds the current row (R67, R133). -/
def execVshr (u : Twin) (d : VDst) (a : VReg) (b : VReg) (q : QReg) (w : Width) (t : EType) (s : State) : Host.Outcome State Fault Refusal :=
  .next (presentOne s (sylVshr u d a b q w t) (.vshr u d a b q w t))

/-- VSAR presented by the bank that holds the current row (R67, R133). -/
def execVsar (u : Twin) (d : VDst) (a : VReg) (b : VReg) (q : QReg) (w : Width) (t : EType) (s : State) : Host.Outcome State Fault Refusal :=
  .next (presentOne s (sylVsar u d a b q w t) (.vsar u d a b q w t))

/-- VADDS presented by the bank that holds the current row (R67, R133). -/
def execVadds (u : Twin) (d : VDst) (a : VReg) (b : VReg) (q : QReg) (w : Width) (t : EType) (s : State) : Host.Outcome State Fault Refusal :=
  .next (presentOne s (sylVadds u d a b q w t) (.vadds u d a b q w t))

/-- VSUBS presented by the bank that holds the current row (R67, R133). -/
def execVsubs (u : Twin) (d : VDst) (a : VReg) (b : VReg) (q : QReg) (w : Width) (t : EType) (s : State) : Host.Outcome State Fault Refusal :=
  .next (presentOne s (sylVsubs u d a b q w t) (.vsubs u d a b q w t))

/-- VFADD presented by the bank that holds the current row (R67, R134). -/
def execVfadd (u : Twin) (d : VDst) (a : VReg) (b : VReg) (q : QReg) (w : Width) (f : FType) (s : State) : Host.Outcome State Fault Refusal :=
  .next (presentOne s (sylVfadd u d a b q w f) (.vfadd u d a b q w f))

/-- VFSUB presented by the bank that holds the current row (R67, R134). -/
def execVfsub (u : Twin) (d : VDst) (a : VReg) (b : VReg) (q : QReg) (w : Width) (f : FType) (s : State) : Host.Outcome State Fault Refusal :=
  .next (presentOne s (sylVfsub u d a b q w f) (.vfsub u d a b q w f))

/-- VFMUL presented by the bank that holds the current row (R67, R134). -/
def execVfmul (u : Twin) (d : VDst) (a : VReg) (b : VReg) (q : QReg) (w : Width) (f : FType) (s : State) : Host.Outcome State Fault Refusal :=
  .next (presentOne s (sylVfmul u d a b q w f) (.vfmul u d a b q w f))

/-- VFMA presented by the bank that holds the current row (R67, R134). -/
def execVfma (u : Twin) (d : VDst) (a : VReg) (b : VReg) (q : QReg) (w : Width) (f : FType) (s : State) : Host.Outcome State Fault Refusal :=
  .next (presentOne s (sylVfma u d a b q w f) (.vfma u d a b q w f))

/-- VFMS presented by the bank that holds the current row (R67, R134). -/
def execVfms (u : Twin) (d : VDst) (a : VReg) (b : VReg) (q : QReg) (w : Width) (f : FType) (s : State) : Host.Outcome State Fault Refusal :=
  .next (presentOne s (sylVfms u d a b q w f) (.vfms u d a b q w f))

/-- VFMIN presented by the bank that holds the current row (R67, R52). -/
def execVfmin (u : Twin) (d : VDst) (a : VReg) (b : VReg) (q : QReg) (w : Width) (f : FType) (s : State) : Host.Outcome State Fault Refusal :=
  .next (presentOne s (sylVfmin u d a b q w f) (.vfmin u d a b q w f))

/-- VFMAX presented by the bank that holds the current row (R67, R52). -/
def execVfmax (u : Twin) (d : VDst) (a : VReg) (b : VReg) (q : QReg) (w : Width) (f : FType) (s : State) : Host.Outcome State Fault Refusal :=
  .next (presentOne s (sylVfmax u d a b q w f) (.vfmax u d a b q w f))

/-- VFABS presented by the bank that holds the current row (R67, R134). -/
def execVfabs (u : Twin) (d : VDst) (a : VReg) (q : QReg) (w : Width) (f : FType) (s : State) : Host.Outcome State Fault Refusal :=
  .next (presentOne s (sylVfabs u d a q w f) (.vfabs u d a q w f))

/-- VFNEG presented by the bank that holds the current row (R67, R134). -/
def execVfneg (u : Twin) (d : VDst) (a : VReg) (q : QReg) (w : Width) (f : FType) (s : State) : Host.Outcome State Fault Refusal :=
  .next (presentOne s (sylVfneg u d a q w f) (.vfneg u d a q w f))

/-- VEXP2 presented by the bank that holds the current row (R67, R53). -/
def execVexp2 (u : Twin) (d : VDst) (a : VReg) (q : QReg) (w : Width) (f : FType) (s : State) : Host.Outcome State Fault Refusal :=
  .next (presentOne s (sylVexp2 u d a q w f) (.vexp2 u d a q w f))

/-- VLOG2 presented by the bank that holds the current row (R67, R53). -/
def execVlog2 (u : Twin) (d : VDst) (a : VReg) (q : QReg) (w : Width) (f : FType) (s : State) : Host.Outcome State Fault Refusal :=
  .next (presentOne s (sylVlog2 u d a q w f) (.vlog2 u d a q w f))

/-- VRCP presented by the bank that holds the current row (R67, R53). -/
def execVrcp (u : Twin) (d : VDst) (a : VReg) (q : QReg) (w : Width) (f : FType) (s : State) : Host.Outcome State Fault Refusal :=
  .next (presentOne s (sylVrcp u d a q w f) (.vrcp u d a q w f))

/-- VRSQRT presented by the bank that holds the current row (R67, R53). -/
def execVrsqrt (u : Twin) (d : VDst) (a : VReg) (q : QReg) (w : Width) (f : FType) (s : State) : Host.Outcome State Fault Refusal :=
  .next (presentOne s (sylVrsqrt u d a q w f) (.vrsqrt u d a q w f))

/-- VCMP presented by the bank that holds the current row (R67, R136). -/
def execVcmp (u : Twin) (d : QReg) (a : VReg) (b : VReg) (c : VCond) (w : Width) (t : EType) (s : State) : Host.Outcome State Fault Refusal :=
  .next (presentOne s (sylVcmp u d a b c w t) (.vcmp u d a b c w t))

/-- VFCMP presented by the bank that holds the current row (R67, R137). -/
def execVfcmp (u : Twin) (d : QReg) (a : VReg) (b : VReg) (c : FCond) (w : Width) (f : FType) (s : State) : Host.Outcome State Fault Refusal :=
  .next (presentOne s (sylVfcmp u d a b c w f) (.vfcmp u d a b c w f))

/-- QAND presented by the bank that holds the current row (R67, R138). -/
def execQand (u : Twin) (d : QReg) (a : QReg) (b : QReg) (w : Width) (s : State) : Host.Outcome State Fault Refusal :=
  .next (presentOne s (sylQand u d a b w) (.qand u d a b w))

/-- QOR presented by the bank that holds the current row (R67, R138). -/
def execQor (u : Twin) (d : QReg) (a : QReg) (b : QReg) (w : Width) (s : State) : Host.Outcome State Fault Refusal :=
  .next (presentOne s (sylQor u d a b w) (.qor u d a b w))

/-- QXOR presented by the bank that holds the current row (R67, R138). -/
def execQxor (u : Twin) (d : QReg) (a : QReg) (b : QReg) (w : Width) (s : State) : Host.Outcome State Fault Refusal :=
  .next (presentOne s (sylQxor u d a b w) (.qxor u d a b w))

/-- QNOT presented by the bank that holds the current row (R67, R138). -/
def execQnot (u : Twin) (d : QReg) (a : QReg) (w : Width) (s : State) : Host.Outcome State Fault Refusal :=
  .next (presentOne s (sylQnot u d a w) (.qnot u d a w))

/-- QCNT presented by the bank that holds the current row (R67, R138). -/
def execQcnt (u : Twin) (d : SDst) (a : QReg) (w : Width) (s : State) : Host.Outcome State Fault Refusal :=
  .next (presentOne s (sylQcnt u d a w) (.qcnt u d a w))

/-- VSEL presented by the bank that holds the current row (R67, R139). -/
def execVsel (u : Twin) (d : VDst) (a : VReg) (b : VReg) (q : QReg) (w : Width) (s : State) : Host.Outcome State Fault Refusal :=
  .next (presentOne s (sylVsel u d a b q w) (.vsel u d a b q w))

/-- VCVT presented by the bank that holds the current row (R67, R140). -/
def execVcvt (u : Twin) (d : VDst) (a : VReg) (c : Fin 32) (q : QReg) (w : Width) (m : RMode) (s : State) : Host.Outcome State Fault Refusal :=
  .next (presentOne s (sylVcvt u d a c q w m) (.vcvt u d a c q w m))

/-- VBCAST presented by the bank that holds the current row (R67, R142). -/
def execVbcast (u : Twin) (d : VDst) (a : SReg) (q : QReg) (w : Width) (t : EType) (s : State) : Host.Outcome State Fault Refusal :=
  .next (presentOne s (sylVbcast u d a q w t) (.vbcast u d a q w t))

/-- VEXT presented by the bank that holds the current row (R67, R143). -/
def execVext (u : Twin) (d : SDst) (a : VReg) (b : SReg) (w : Width) (t : EType) (s : State) : Host.Outcome State Fault Refusal :=
  .next (presentOne s (sylVext u d a b w t) (.vext u d a b w t))

/-- VPERM presented by the bank that holds the current row (R67, R144). -/
def execVperm (u : Twin) (d : VDst) (a : VReg) (b : VReg) (q : QReg) (w : Width) (t : EType) (s : State) : Host.Outcome State Fault Refusal :=
  .next (presentOne s (sylVperm u d a b q w t) (.vperm u d a b q w t))

/-- VRED presented by the bank that holds the current row (R67, R146). -/
def execVred (u : Twin) (d : VDst) (a : VReg) (o : RedOp) (q : QReg) (w : Width) (s : State) : Host.Outcome State Fault Refusal :=
  .next (presentOne s (sylVred u d a o q w) (.vred u d a o q w))

/-- VSCAN presented by the bank that holds the current row (R67, R147). -/
def execVscan (u : Twin) (d : VDst) (a : VReg) (o : RedOp) (q : QReg) (w : Width) (s : State) : Host.Outcome State Fault Refusal :=
  .next (presentOne s (sylVscan u d a o q w) (.vscan u d a o q w))

/-- VPACK presented by the bank that holds the current row (R67, R148). -/
def execVpack (u : Twin) (d : VDst) (a : VReg) (q : QReg) (w : Width) (s : State) : Host.Outcome State Fault Refusal :=
  .next (presentOne s (sylVpack u d a q w) (.vpack u d a q w))

/-- VUNPACK presented by the bank that holds the current row (R67, R149). -/
def execVunpack (u : Twin) (d : VDst) (a : VReg) (b : SReg) (q : QReg) (w : Width) (f : FType) (s : State) : Host.Outcome State Fault Refusal :=
  .next (presentOne s (sylVunpack u d a b q w f) (.vunpack u d a b q w f))

/-- VCHK presented by the bank that holds the current row (R67, R150). -/
def execVchk (u : Twin) (a : VReg) (b : VReg) (q : QReg) (w : Width) (c : ChkOp) (s : State) : Host.Outcome State Fault Refusal :=
  .next (presentOne s (sylVchk u a b q w c) (.vchk u a b q w c))

end Sys2Proof.Machine
end

