-- ==== Sys2Proof/Machine/Matrix.lean ====
section
/-! DEFINITION. The matrix and tile instructions of MX (R157-R173): each one's syllable, and what exec does with it. -/

namespace Sys2Proof.Machine

/-! ## Checks every MX syllable shares (R80, R153, R154, R173, R382) -/

/-- TILE_UNCONF: the tile's type in the issuing bank's %deckle is 0 (R153). -/
def checkTile (i : Issue) (t : TReg) : Verdict := checkRow .tileUnconf (shapeType (deckleOf i.bank.deckle t) == 0)

/-- A busy tile freezes (R80, R173); the bank's own engine runs on when the result is its own (R167).
(DEDUCED: log entry 42. DEDUCED: log entry 43.) -/
def checkBusy (i : Issue) (t : TReg) : Verdict :=
  if allCores.any (fun c => (i.s.row i.row).cores[c].busy.getLsbD t.val)
    then .freeze .tileBusy (i.bank.matOps.any (·.tile == t)) id
    else .clear

/-- What a touch waits for once its own checks pass: the tile not busy, and then a save area for a save that falls due (R154). -/
def checkTouch (i : Issue) (t : TReg) : Verdict :=
  Verdict.seq [fun _ => checkBusy i t, fun _ => checkRow .tileNosave ((i.s.row i.row).nosave i.side t)]

/-- A tile's contents once the bank has taken it (R154). -/
def Rd.tile (r : Rd) (t : TReg) : Tile :=
  if r.whole.owner[t] == some r.side then r.whole.tiles[t] else r.whole.restored r.bank r.side t

/-- The shape the bank's %deckle gives a tile: rows, columns. -/
def Bank.shape (b : Bank) (t : TReg) : Nat × Nat := (shapeRows (deckleOf b.deckle t), shapeCols (deckleOf b.deckle t))

/-- The tile is written: its dirty bit in every core (R154). -/
def State.dirtyTile (s : State) (n : Nat) (t : TReg) : State :=
  s.modRow n (·.mapCores fun _ c => { c with dirty := setBit8 c.dirty t true })

/-- Errors of the matrix engine are reported at any MX syllable (R382). -/
def reportsMatrix (_ : Bank) (e : Posted) : Bool := e.engine.any fun p => p.1 == 4

/-! ## The mma family (R164-R171) -/

/-- FMT_ILLEGAL: the formats are not of one class, the class does not match the tile's type, or .sat with a floating class (R43, R166). -/
def fmtIllegal (b : Bank) (t : TReg) (sat : Bool) : Bool :=
  match fmtClass b.fmt with
  | none => true
  | some .integer => shapeType (deckleOf b.deckle t) != 2
  | some _ => sat || shapeType (deckleOf b.deckle t) != 1

/-- A reel with no entry in some core freezes the bundle (R166). -/
def checkEntries (i : Issue) (a b : Reel) : Verdict :=
  if allCores.any (fun c => reelCount (i.rd c).cb.reel[a] = 0 || reelCount (i.rd c).cb.reel[b] = 0)
    then .freeze .reelEmpty false id else .clear

/-- An mma of some steps: it takes a number, copies its accumulator, and its engine operation begins in this cycle. -/
def mmaForm (d : TReg) (a b : Reel) (ka kb zero sat : Bool) (steps : Nat) : Syl :=
  { unit := 5, writes := [.tile d], reads := if zero then [] else [.tile d]
    irrevocable := true, interval := some (16 * steps), touch := some d, reports := reportsMatrix
    tileRead := fun r => if zero then none else some (d, shapeMask (r.bank.shape d).1 (r.bank.shape d).2)
    check := fun i => Verdict.seq [
      fun _ => checkTile i d, fun _ => checkReel i a, fun _ => checkReel i b,
      fun _ => checkRow .fmtIllegal (fmtIllegal i.bank d sat),
      fun _ => checkTouch i d, fun _ => checkEntries i a b]
    effect := fun i s =>
      let r := s.takeNumber i.row i.side 4
      let o : MatrixOp :=
        { number := r.1, tile := d, shape := deckleOf i.bank.deckle d, fmt := i.bank.fmt, reelA := a, reelB := b, keepA := ka, keepB := kb
          zero := zero, sat := sat, steps := steps, at0 := i.bank.matTime, next := 0, landed := 0, ended := false }
      let s := r.2.modRow i.row (·.mapCores fun _ c =>
        { (c.mod i.side fun k => { k with macc := k.macc ++ [(r.1, c.tiles[d])] }) with
            busy := setBit8 c.busy d true, dirty := setBit8 c.dirty d true })
      s.modBank i.row i.side fun k =>
        { k with matOps := k.matOps ++ [o], mxstep := 0, mmaFree := i.cycle + 16 * steps } }

def sylMma (d : TReg) (a b : Reel) (kb ka : Bool) : Syl := mmaForm d a b ka kb false false 1
def sylMmaZ (d : TReg) (a b : Reel) (kb ka : Bool) : Syl := mmaForm d a b ka kb true false 1
def sylMmaSat (d : TReg) (a b : Reel) (kb ka : Bool) : Syl := mmaForm d a b ka kb false true 1
def sylMmaN (d : TReg) (kb ka : Bool) (a : Reel) (z : Bool) (b : Reel) (n : Fin 256) : Syl := mmaForm d a b ka kb z false (n.val + 1)

/-! ## Configuring and clearing (R159, R160) -/

/-- The type codes of %deckle (R152). -/
def tileTypeCode : TType → Nat
  | .none => 0
  | .f32 => 1
  | .i32 => 2

def sylTcfg (d : TReg) (t : TType) (c r : Fin 16) : Syl :=
  { unit := 5, writes := [.deckle], reports := reportsMatrix
    check := fun i => checkBusy i d
    effect := fun i s => s.flySeq i.row i.side 1 (.deckle d (BitVec.ofNat 10 (tileTypeCode t * 256 + c.val * 16 + r.val))) }

/-- A result that writes elements of a tile, and its dirty bit (R161). -/
def Rd.tileResult (r : Rd) (l : Nat) (d : TReg) (x : Tile) (mask : BitVec 256) : Flight := ⟨r.bank.cycle + l, 5, .tile d x mask, 0⟩

def sylTzero (d : TReg) : Syl :=
  { unit := 5, writes := [.tile d], touch := some d, reports := reportsMatrix
    check := fun i => Verdict.seq [fun _ => checkTile i d, fun _ => checkTouch i d]
    fly := fun r => [r.tileResult 2 d 0 (BitVec.allOnes 256)]
    effect := fun i s => s.dirtyTile i.row d }

/-! ## Slice moves (R162) -/

/-- The first vector byte of a slice move. -/
def halfByte (hi : Bool) : Nat := if hi then 64 else 0

/-- Where element `e` of a slice lies in the tile, as 16 i + j: along a row, or down a column. -/
def slicePlace (column : Bool) (idx e : Nat) : Nat := if column then 16 * e + idx else 16 * idx + e

/-- How many elements of a slice lie inside the shape, and how many slices there are. -/
def sliceBounds (column : Bool) (shape : Nat × Nat) : Nat × Nat := if column then shape else (shape.2, shape.1)

/-- The checks of a slice move: TILE_UNCONF, TILE_RANGE, then what a touch waits for. -/
def checkSlice (i : Issue) (t : TReg) (column : Bool) (idx : Fin 16) : Verdict :=
  Verdict.seq [
    fun _ => checkTile i t,
    fun _ => checkRow .tileRange (decide ((sliceBounds column (i.bank.shape t)).2 ≤ idx.val)),
    fun _ => checkTouch i t]

/-- trow.w and tcol.w: the active elements inside the shape are written. -/
def sliceWrite (column : Bool) (d : TReg) (a : VReg) (idx : Fin 16) (q : QReg) (hi : Bool) : Syl :=
  { unit := 5, a := .v a, reads := readQ q, writes := [.tile d], touch := some d, reports := reportsMatrix
    check := fun i => checkSlice i d column idx
    fly := fun r =>
      let h := halfByte hi
      let on := (List.range (sliceBounds column (r.bank.shape d)).1).filter fun e => r.enabled q (h + 4 * e)
      let mask := BitVec.ofNat 256 (on.foldl (fun m e => m + 2 ^ slicePlace column idx.val e) 0)
      [r.tileResult 2 d
        (BitVec.ofNat 8192 (on.foldl (fun x e => x + vecAt r.av (h + 4 * e) 32 * 2 ^ (32 * slicePlace column idx.val e)) 0)) mask]
    effect := fun i s => s.dirtyTile i.row d }

/-- The elements of a slice that a slice move reads from the tile: those inside the shape with a byte enabled (R128, R161, R162). -/
def Rd.sliceReads (r : Rd) (column : Bool) (t : TReg) (q : QReg) (hi : Bool) : List Nat :=
  (List.range (sliceBounds column (r.bank.shape t)).1).filter fun e => (List.range 4).any fun k => r.enabled q (halfByte hi + 4 * e + k)

/-- trow.r and tcol.r: elements take the tile's element, or 0 past the shape, in their enabled bytes. -/
def sliceRead (column : Bool) (d : VDst) (t : TReg) (idx : Fin 16) (q : QReg) (hi : Bool) : Syl :=
  { unit := 5, reads := .tile t :: readQ q, writes := writeV d, touch := some t, reports := reportsMatrix
    tileRead := fun r => some (t, BitVec.ofNat 256
      ((r.sliceReads column t q hi).foldl (fun m e => m + 2 ^ slicePlace column idx.val e) 0))
    check := fun i => checkSlice i t column idx
    fly := fun r =>
      let h := halfByte hi
      let n := (sliceBounds column (r.bank.shape t)).1
      let x := (r.tile t).toNat
      let es := (List.range 16).map fun e => if e < n then x / 2 ^ (32 * slicePlace column idx.val e) % 2 ^ 32 else 0
      [⟨r.bank.cycle + 2, 5, .v (d.castLE (by decide)) (vecOf h 32 es) (r.enabledMask q h 16 32), 0⟩] }

def sylTrowW (d : TReg) (a : VReg) (i : Fin 16) (q : QReg) (hi : Bool) : Syl := sliceWrite false d a i q hi
def sylTrowR (d : VDst) (a : TReg) (i : Fin 16) (q : QReg) (hi : Bool) : Syl := sliceRead false d a i q hi
def sylTcolW (d : TReg) (a : VReg) (i : Fin 16) (q : QReg) (hi : Bool) : Syl := sliceWrite true d a i q hi
def sylTcolR (d : VDst) (a : TReg) (i : Fin 16) (q : QReg) (hi : Bool) : Syl := sliceRead true d a i q hi

/-! ## Tile load and store (R163) -/

/-- The window address of row `i` of a tile load or store: base and stride with bits 1:0 taken as 0. -/
def Rd.tileRow (r : Rd) (i : Nat) : Nat := r.a.toNat / 4 * 4 + i * (r.b.toNat / 4 * 4)

/-- The local-store runs a tile load or store moves: each row's first byte number and length. -/
def Rd.tileRuns (r : Rd) (t : TReg) : List (Nat × Nat) :=
  (List.range (r.bank.shape t).1).map fun i => (r.bank.winBase + r.tileRow i, 4 * (r.bank.shape t).2)

/-- The first window address of a row's bytes that lies outside the window, if one does.
(DEDUCED: log entry 45.) -/
def Rd.tileOutside (r : Rd) (t : TReg) : Option Nat :=
  (List.range (r.bank.shape t).1).findSome? fun i =>
    if r.bank.inWindow (r.tileRow i) (4 * (r.bank.shape t).2) then none else some (max (r.tileRow i) r.bank.winSize)

/-- The first ciphertext line of the runs that a read meets, or that a write does not write whole (R382), as a window address. -/
def Rd.tileCipher (r : Rd) (t : TReg) (writing : Bool) : Option Nat :=
  (r.tileRuns t).findSome? fun p =>
    ((linesOf p.1 p.2).find? fun l => r.whole.lineCipher l && !(writing && runsCover (r.tileRuns t) l)).map fun l =>
      max p.1 (l * 64) - r.bank.winBase

/-- LS_RANGE, then FORM_FAULT, of a tile load or store. -/
def checkTileLs (i : Issue) (t : TReg) (writing : Bool) : Verdict :=
  Verdict.seq [
    fun _ => checkCores .lsRange (fun c => ((i.rd c).tileOutside t).isSome)
      (fun c => BitVec.ofNat 64 (((i.rd c).tileOutside t).getD 0)) (fun _ => 0),
    fun _ => checkCores .formFault (fun c => ((i.rd c).tileCipher t writing).isSome)
      (fun c => BitVec.ofNat 64 (((i.rd c).tileCipher t writing).getD 0)) (fun _ => 0)]

def sylTld (d : TReg) (a b : SReg) : Syl :=
  { unit := 5, a := .s a, b := .s b, writes := [.tile d], guarded := true, irrevocable := true, touch := some d, reports := reportsMatrix
    lsRead := fun i c => ((i.rd c).tileRuns d).map fun p => (c, p.1, p.2)
    check := fun i => Verdict.seq [fun _ => checkTile i d, fun _ => checkTileLs i d false, fun _ => checkTouch i d]
    fly := fun r =>
      let x := (r.tileRuns d).zipIdx.foldl (fun x p => x + natOfBytes (Memory.read r.whole.ls p.1.1 p.1.2) * 2 ^ (512 * p.2)) 0
      [r.tileResult 4 d (BitVec.ofNat 8192 x) (shapeMask (r.bank.shape d).1 (r.bank.shape d).2)]
    effect := fun i s => s.dirtyTile i.row d }

def sylTst (d : TReg) (a b : SReg) : Syl :=
  { unit := 5, a := .s a, b := .s b, reads := [.tile d], guarded := true, irrevocable := true, touch := some d, reports := reportsMatrix
    tileRead := fun r => some (d, shapeMask (r.bank.shape d).1 (r.bank.shape d).2)
    check := fun i => Verdict.seq [fun _ => checkTile i d, fun _ => checkTileLs i d true, fun _ => checkTouch i d]
    put := fun i c =>
      let r := i.rd c
      some (c, (r.tileRuns d).zipIdx.map fun p => (p.1.1, bytesOfNat ((r.tile d).toNat / 2 ^ (512 * p.2)) p.1.2)) }

/-! ## What exec does with each of them: its bank presents the bundle of that one syllable -/

/-- MMA presented by the bank that holds the current row (R67, R165). -/
def execMma (d : TReg) (a : Reel) (b : Reel) (kb : Bool) (ka : Bool) (s : State) : Host.Outcome State Fault Refusal :=
  .next (presentOne s (sylMma d a b kb ka) (.mma d a b kb ka))

/-- MMA_Z presented by the bank that holds the current row (R67, R165). -/
def execMmaZ (d : TReg) (a : Reel) (b : Reel) (kb : Bool) (ka : Bool) (s : State) : Host.Outcome State Fault Refusal :=
  .next (presentOne s (sylMmaZ d a b kb ka) (.mmaZ d a b kb ka))

/-- MMA_SAT presented by the bank that holds the current row (R67, R165). -/
def execMmaSat (d : TReg) (a : Reel) (b : Reel) (kb : Bool) (ka : Bool) (s : State) : Host.Outcome State Fault Refusal :=
  .next (presentOne s (sylMmaSat d a b kb ka) (.mmaSat d a b kb ka))

/-- MMA_N presented by the bank that holds the current row (R67, R164). -/
def execMmaN (d : TReg) (kb : Bool) (ka : Bool) (a : Reel) (z : Bool) (b : Reel) (n : Fin 256) (s : State) : Host.Outcome State Fault Refusal :=
  .next (presentOne s (sylMmaN d kb ka a z b n) (.mmaN d kb ka a z b n))

/-- TCFG presented by the bank that holds the current row (R67, R159). -/
def execTcfg (d : TReg) (t : TType) (c : Fin 16) (r : Fin 16) (s : State) : Host.Outcome State Fault Refusal :=
  .next (presentOne s (sylTcfg d t c r) (.tcfg d t c r))

/-- TZERO presented by the bank that holds the current row (R67, R160). -/
def execTzero (d : TReg) (s : State) : Host.Outcome State Fault Refusal :=
  .next (presentOne s (sylTzero d) (.tzero d))

/-- TROW_W presented by the bank that holds the current row (R67, R162). -/
def execTrowW (d : TReg) (a : VReg) (i : Fin 16) (q : QReg) (hi : Bool) (s : State) : Host.Outcome State Fault Refusal :=
  .next (presentOne s (sylTrowW d a i q hi) (.trowW d a i q hi))

/-- TROW_R presented by the bank that holds the current row (R67, R162). -/
def execTrowR (d : VDst) (a : TReg) (i : Fin 16) (q : QReg) (hi : Bool) (s : State) : Host.Outcome State Fault Refusal :=
  .next (presentOne s (sylTrowR d a i q hi) (.trowR d a i q hi))

/-- TCOL_W presented by the bank that holds the current row (R67, R162). -/
def execTcolW (d : TReg) (a : VReg) (i : Fin 16) (q : QReg) (hi : Bool) (s : State) : Host.Outcome State Fault Refusal :=
  .next (presentOne s (sylTcolW d a i q hi) (.tcolW d a i q hi))

/-- TCOL_R presented by the bank that holds the current row (R67, R162). -/
def execTcolR (d : VDst) (a : TReg) (i : Fin 16) (q : QReg) (hi : Bool) (s : State) : Host.Outcome State Fault Refusal :=
  .next (presentOne s (sylTcolR d a i q hi) (.tcolR d a i q hi))

/-- TLD presented by the bank that holds the current row (R67, R163). -/
def execTld (d : TReg) (a : SReg) (b : SReg) (s : State) : Host.Outcome State Fault Refusal :=
  .next (presentOne s (sylTld d a b) (.tld d a b))

/-- TST presented by the bank that holds the current row (R67, R163). -/
def execTst (d : TReg) (a : SReg) (b : SReg) (s : State) : Host.Outcome State Fault Refusal :=
  .next (presentOne s (sylTst d a b) (.tst d a b))

end Sys2Proof.Machine
end

