-- ==== Sys2Proof/Machine/Access.lean ====
section
/-! DEFINITION. The address, memory and synchronisation instructions of AG (R174-R196): each one's syllable, and what exec does with
it. -/

namespace Sys2Proof.Machine

/-! ## Addresses (R175, R177, R179, R183) -/

/-- The size of an access: 8 bytes for .s, 128 for .v. -/
def accessSize (v : Bool) : Nat := if v then 128 else 8

/-- The core and local-store byte a local (or quad-window) address reaches (R30, R32). -/
def Rd.localSpot (r : Rd) (quad : Bool) (a : Word) : Fin 64 × Nat :=
  if quad then
    match quadTarget r.core a.toNat with
    | some p => (p.1, r.bank.winBase + p.2)
    | none => (r.core, 0)
  else (r.core, r.bank.winBase + a.toNat)

/-- Whether an access lies in the window, or in one slot of the quad window and that core's window. -/
def Rd.localIn (r : Rd) (quad : Bool) (a : Word) (n : Nat) : Bool :=
  if quad then r.bank.inQuad a.toNat n else r.bank.inWindow a.toNat n

/-- A core of the reading core's row. -/
def Rd.mate (r : Rd) (c : Fin 64) : Core := (r.state.row r.row).cores[c]

/-- LS_ALIGN, LS_RANGE, and, where it is asked for, FORM_FAULT of a ciphertext line, for the cores that act (R176, R382). -/
def checkLocal (i : Issue) (quad : Bool) (acts : Fin 64 → Bool) (addr : Rd → Word) (n : Nat) (plain : Bool) : Verdict :=
  let a (c : Fin 64) : Word := addr (i.rd c)
  Verdict.seq [
    fun _ => checkCores .lsAlign (fun c => acts c && (a c).toNat % n != 0) a (fun _ => 0),
    fun _ => checkCores .lsRange (fun c => acts c && !(i.rd c).localIn quad (a c) n) a (fun _ => 0),
    fun _ => checkCores .formFault (fun c => plain && acts c &&
      (let p := (i.rd c).localSpot quad (a c); ((i.rd c).mate p.1).anyCipher p.2 n)) a (fun _ => 0)]

/-- Whether a scope's objects lie in local store, and whether they are reached through the quad window (R177). -/
def scopeLocal (sc : Scope) : Bool := scopeRank sc ≤ 2
def scopeQuad (sc : Scope) : Bool := sc == .quad

/-- The access to `n` bytes of the flat tensor an atomic or sync operation of row scope or wider makes: permission to write, or for
waitp to read (R177, R278).
(DEDUCED: log entry 46.) -/
def flatAcc (a : Word) (n : Nat) (write : Bool) : Acc := ⟨0, a, n, n, !write, write⟩

/-- The checks of an atomic's or sync operation's location, for the cores that act: up to the walks, and from the frames on. -/
def checkScoped (i : Issue) (sc : Scope) (acts : Fin 64 → Bool) (n : Nat) (write : Bool) : Verdict :=
  if scopeLocal sc then checkLocal i (scopeQuad sc) acts (·.a) n write
  else checkReach i fun c => if acts c then [flatAcc (i.rd c).a n write] else []
def scopedFrames (i : Issue) (walking : Bool) (sc : Scope) (acts : Fin 64 → Bool) (n : Nat) (write : Bool) : Verdict :=
  if scopeLocal sc then .clear
  else checkFrames i walking fun c => if acts c then [flatAcc (i.rd c).a n write] else []

/-- What follows in the order of a sync operation's conditions waits, with the frames, for the walks of the bundle. -/
def afterFrames (sc : Scope) (walking : Bool) (v : Verdict) : Verdict := if walking && !scopeLocal sc then .clear else v

/-- The place of an atomic's or sync operation's location. -/
def Rd.scopedPlace (r : Rd) (sc : Scope) (n : Nat) : Place :=
  if scopeLocal sc then let p := r.localSpot (scopeQuad sc) r.a; .ls r.row p.1 p.2
  else r.state.placeOf r.row r.side (flatAcc r.a n true)

/-- When a port in local store performs an operation: core scope in its issue cycle, quad scope 3 cycles later (R250). -/
def portDelay (sc : Scope) : Option Nat := if scopeLocal sc then some (if scopeQuad sc then 3 else 0) else none

/-! ## Local store and quad window (R179, R241, R382) -/

/-- Bytes of a local store with buffered stores laid over them. -/
def lsOverlay (core : Fin 64) (a : Nat) (bs : List Byte) (stores : List BufferedStore) : List Byte :=
  bs.zipIdx.map fun p => stores.foldl (fun b st =>
    match st.place with
    | .ls _ c k => if c = core ∧ k ≤ a + p.2 then (st.data[a + p.2 - k]?).getD b else b
    | .phys .. => b) p.1

/-- The buffered stores a local read sees: the core's own, and for a quad-window read those of its quad (R241).
(DEDUCED: log entry 51.) -/
def Rd.visible (r : Rd) (quad : Bool) : List BufferedStore :=
  if quad then (List.finRange 64).flatMap fun c => if c.val / 4 = r.core.val / 4 then ((r.mate c).of r.side).segBuf else []
  else r.cb.segBuf

/-- The store of a core as the reader finds it on its own time base (R179, R196, R220).
(DEDUCED: log entry 16.) -/
def Rd.reached (r : Rd) (t : Fin 64) : Core := (r.state.row r.row).storeAt r.side r.core t r.bank.cycle

/-- What a local load reads, as a number. -/
def Rd.localRead (r : Rd) (quad : Bool) (a : Word) (n : Nat) : Nat :=
  let p := r.localSpot quad a
  natOfBytes (lsOverlay p.1 p.2 (Memory.read (r.reached p.1).ls p.2 n) (r.visible quad))

/-- The address of a local form. -/
def Rd.localAddr (r : Rd) (off : BitVec 12) : Word := r.a + off.signExtend 64

/-- A local load of `n` bytes: its checks, its read in the issue cycle, its latency. -/
def localLoad (quad : Bool) (n : Nat) (a : SReg) (off : BitVec 12) (writes : List Loc) (result : Rd → Nat → Flight) : Syl :=
  { unit := 2, a := .s a, writes := writes, guarded := true
    lsRead := fun i c => let p := (i.rd c).localSpot quad ((i.rd c).localAddr off); [(p.1, p.2, n)]
    check := fun i => checkLocal i quad (fun _ => true) (·.localAddr off) n true
    fly := fun r => [result r (r.localRead quad (r.localAddr off) n)] }

/-- A local store of `n` bytes: written in the issue cycle in ascending core order (R28), or into the segment store buffer. It does not wait
for an atomic or arrival of its core that the quad's port is yet to perform on its bytes (R248, R250).
(DESIGN CHOICE: log entry 141.) -/
def localStore (quad : Bool) (n : Nat) (d : Src) (a : SReg) (off : BitVec 12) (data : Rd → Nat) : Syl :=
  { unit := 2, d := d, a := .s a, guarded := true, stores := 1
    check := fun i => checkLocal i quad (fun _ => true) (·.localAddr off) n (decide (n < 64))
    put := fun i c =>
      let r := i.rd c
      let p := r.localSpot quad (r.localAddr off)
      if i.buffers then none else some (p.1, [(p.2, bytesOfNat (data r) n)])
    effect := fun i s =>
      if i.buffers then
        s.modRow i.row (·.mapBanks i.side fun c b =>
          let r := i.rd c
          let p := r.localSpot quad (r.localAddr off)
          { b with segBuf := b.segBuf ++ [⟨.ls i.row p.1 p.2, bytesOfNat (data r) n, false⟩] })
      else s }

/-- A loaded word, or vector, of a latency. -/
def loadedS (d : SDst) (l : Nat) (r : Rd) (x : Nat) : Flight := r.scalar 2 l d (BitVec.ofNat 64 x)
def loadedV (d : VDst) (l : Nat) (r : Rd) (x : Nat) : Flight :=
  ⟨r.bank.cycle + l, 2, .v (d.castLE (by decide)) (BitVec.ofNat 1024 x) (BitVec.allOnes 128), 0⟩

def sylLdLS (d : SDst) (a : SReg) (off : BitVec 12) : Syl := localLoad false 8 a off (writeS d) (loadedS d 3)
def sylLdLV (d : VDst) (a : SReg) (off : BitVec 12) : Syl := localLoad false 128 a off (writeV d) (loadedV d 3)
def sylStLS (d a : SReg) (off : BitVec 12) : Syl := localStore false 8 (.s d) a off fun r => r.d.toNat
def sylStLV (d : VReg) (a : SReg) (off : BitVec 12) : Syl := localStore false 128 (.v d) a off fun r => r.dv.toNat
def sylLdQS (d : SDst) (a : SReg) (off : BitVec 12) : Syl := localLoad true 8 a off (writeS d) (loadedS d 6)
def sylLdQV (d : VDst) (a : SReg) (off : BitVec 12) : Syl := localLoad true 128 a off (writeV d) (loadedV d 6)
def sylStQS (d a : SReg) (off : BitVec 12) : Syl := localStore true 8 (.s d) a off fun r => r.d.toNat
def sylStQV (d : VReg) (a : SReg) (off : BitVec 12) : Syl := localStore true 128 (.v d) a off fun r => r.dv.toNat

/-! ## Decoupled loads and global stores (R180-R184) -/

/-- A request placed in a core's load-address queue. -/
def CoreBank.request (b : CoreBank) (id : Nat) (vector : Bool) (addr : Word) : CoreBank :=
  { b with loads := b.loads ++ [⟨id, vector, none, false, false, addr, 0⟩] }

/-- A global load: each core places its request, which sees the core's own buffered stores (R180, R241). -/
def globalLoad (a b : Src) (v : Bool) (acc : Rd → Acc) : Syl :=
  { unit := 2, a := a, b := b, guarded := true, requests := 1
    check := fun i => checkReach i fun c => [acc (i.rd c)]
    frames := fun i w => checkFrames i w fun c => [acc (i.rd c)]
    effect := fun i s =>
      let s := allCores.foldl (fun (s : State) c =>
        let r := i.rd c
        let k := acc r
        let p := i.s.placeOf i.row i.side k
        let f := s.fresh
        (f.2.modCoreBank i.row i.side c (·.request f.1 v k.address)).submit i.row i.side c
          (.load f.1 p k.len (r.cb.segBuf.filter fun st => p.meets k.len st.place st.data.length))) s
      s.recordAccs i.row i.side (allCores.map fun c => acc (i.rd c)) }

/-- A global store: each core's write is sent, or enters the segment store buffer; the tile is recorded at issue (R184, R241, R341). -/
def globalStore (d a b : Src) (acc : Rd → Acc) (data : Rd → List Byte) : Syl :=
  { unit := 2, d := d, a := a, b := b, guarded := true, stores := 1
    check := fun i => checkReach i fun c => [acc (i.rd c)]
    frames := fun i w => checkFrames i w fun c => [acc (i.rd c)]
    remote := fun i c => if i.buffers then [] else [i.s.placeOf i.row i.side (acc (i.rd c))]
    effect := fun i s =>
      let s := allCores.foldl (fun (s : State) c =>
        let p := i.s.placeOf i.row i.side (acc (i.rd c))
        let bs := data (i.rd c)
        if i.buffers then
          s.modCoreBank i.row i.side c fun k => { k with segBuf := k.segBuf ++ [⟨p, bs, false⟩] }
        else (s.countWrites i.row i.side [p]).submit i.row i.side c (.store p bs)) s
      s.recordAccs i.row i.side (allCores.map fun c => acc (i.rd c)) }

/-- The access of ldt, stt, discard and pref: the tensor in A, the coordinate in B (R182). -/
def tensorAcc (n : Nat) (write : Bool) (r : Rd) : Acc := ⟨r.a, r.b, n, n, !write, write⟩
/-- The access of ldg and stg: tensor 0 at A plus the offset (R183). -/
def flatOffAcc (n : Nat) (off : BitVec 11) (write : Bool) (r : Rd) : Acc := ⟨0, r.a + off.signExtend 64, n, n, !write, write⟩

/-- The D source of a store, and its bytes. -/
def storeSrc (v : Bool) (d : Fin 32) : Src := if v then .v d else .s d
def storeBytes (v : Bool) (r : Rd) : List Byte := if v then bytesOfNat r.dv.toNat 128 else bytesOfWord r.d

def sylLdt (a b : SReg) (v : Bool) : Syl := globalLoad (.s a) (.s b) v (tensorAcc (accessSize v) false)
def sylStt (d : Fin 32) (a b : SReg) (v : Bool) : Syl :=
  globalStore (storeSrc v d) (.s a) (.s b) (tensorAcc (accessSize v) true) (storeBytes v)
def sylLdg (a : SReg) (v : Bool) (off : BitVec 11) : Syl := globalLoad (.s a) .none v (flatOffAcc (accessSize v) off false)
def sylStg (d : Fin 32) (a : SReg) (v : Bool) (off : BitVec 11) : Syl :=
  globalStore (storeSrc v d) (.s a) .none (flatOffAcc (accessSize v) off true) (storeBytes v)

/-! ## The tag table (R185) -/

/-- The key a tag syllable names. -/
def Rd.key (r : Rd) : BitVec 48 := r.a.setWidth 48

/-- A tag table changed entry by entry. -/
def mapTags (v : Vector TagEntry 64) (f : TagEntry → TagEntry) : Vector TagEntry 64 := tab fun k => f v[k]
/-- The table with the entry that holds a key invalid. -/
def dropKey (v : Vector TagEntry 64) (key : BitVec 48) : Vector TagEntry 64 :=
  mapTags v fun e => if e.valid && e.key == key then { e with valid := false } else e
/-- The slot of the valid entry that holds a key, else 0xFF. -/
def findKey (v : Vector TagEntry 64) (key : BitVec 48) : Byte :=
  ((v.toList.find? fun e => e.valid && e.key == key).map (·.slot)).getD 0xFF

/-- A tag table changed in each core whose predicate bit 0 is on. -/
def tagChange (i : Issue) (s : State) (q : QReg) (f : Rd → Vector TagEntry 64 → Vector TagEntry 64) : State :=
  s.modRow i.row (·.mapBanks i.side fun c b => if (i.rd c).on q then { b with tags := f (i.rd c) b.tags } else b)

def sylTagq (d : SDst) (a : SReg) (q : QReg) : Syl :=
  { unit := 2, a := .s a, reads := readQ q, writes := writeS d, guarded := true
    fly := fun r => if r.on q then [r.scalar 2 3 d ((findKey r.cb.tags r.key).setWidth 64)] else [] }
def sylTagset (a b : SReg) (q : QReg) : Syl :=
  { unit := 2, a := .s a, b := .s b, reads := readQ q, guarded := true, irrevocable := true
    check := fun i => checkCores .tagSlot
      (fun c => (i.rd c).on q && i.bank.winSize / 256 ≤ (i.rd c).b.toNat % 256) (fun _ => 0) (fun _ => 0)
    effect := fun i s => tagChange i s q fun r v =>
      (dropKey v r.key).set (r.b.toNat / 256 % 64) ⟨true, r.key, r.b.setWidth 8⟩ (Nat.mod_lt _ (by decide)) }
def sylTagclr (a : SReg) (q : QReg) : Syl :=
  { unit := 2, a := .s a, reads := readQ q, guarded := true, irrevocable := true
    effect := fun i s => tagChange i s q fun r v => dropKey v r.key }
def sylTagclrAll (q : QReg) : Syl :=
  { unit := 2, reads := readQ q, guarded := true, irrevocable := true
    effect := fun i s => tagChange i s q fun _ v => mapTags v fun e => { e with valid := false } }

/-! ## Atomics (R186, R187) -/

/-- The bytes of an atomic's location. -/
def atomSize (t : AType) : Nat := if t = .i64 then 8 else 4

/-- One atomic of every core, taken in ascending core order at its execution point. -/
def atomForm (op : Fin 8) (d : Src) (a b : SReg) (sc : Scope) (ret : Bool) (t : AType) : Syl :=
  { unit := 2, d := d, a := .s a, b := .s b, guarded := true, irrevocable := true, requests := if ret then 1 else 0
    check := fun i => checkScoped i sc (fun _ => true) (atomSize t) true
    frames := fun i w => scopedFrames i w sc (fun _ => true) (atomSize t) true
    remote := fun i c => [(i.rd c).scopedPlace sc (atomSize t)]
    effect := fun i s =>
      let f := s.fresh
      let s := if ret then f.2.modRow i.row (·.mapBanks i.side fun c b => b.request f.1 false (i.rd c).a) else f.2
      let ts := allCores.map fun c => (c, (i.rd c).scopedPlace sc (atomSize t), (i.rd c).b, (i.rd c).d)
      let s := (s.countWrites i.row i.side (ts.map (·.2.1))).submitDue i.row i.side 0 (portDelay sc) (.atom op t sc ret f.1 ts)
      if scopeLocal sc then s
      else s.recordAccs i.row i.side (allCores.map fun c => { flatAcc (i.rd c).a (atomSize t) true with read := true })
    port := scopeLocal sc }

def sylAtomAdd (a b : SReg) (sc : Scope) (ret : Bool) (t : AType) : Syl := atomForm 0 .none a b sc ret t
def sylAtomMin (a b : SReg) (sc : Scope) (ret : Bool) (t : AType) : Syl := atomForm 1 .none a b sc ret t
def sylAtomMax (a b : SReg) (sc : Scope) (ret : Bool) (t : AType) : Syl := atomForm 2 .none a b sc ret t
def sylAtomAnd (a b : SReg) (sc : Scope) (ret : Bool) (t : AType) : Syl := atomForm 3 .none a b sc ret t
def sylAtomOr (a b : SReg) (sc : Scope) (ret : Bool) (t : AType) : Syl := atomForm 4 .none a b sc ret t
def sylAtomXor (a b : SReg) (sc : Scope) (ret : Bool) (t : AType) : Syl := atomForm 5 .none a b sc ret t
def sylAtomSwap (a b : SReg) (sc : Scope) (ret : Bool) (t : AType) : Syl := atomForm 6 .none a b sc ret t
def sylAtomCas (d a b : SReg) (sc : Scope) (ret : Bool) (t : AType) : Syl := atomForm 7 (.s d) a b sc ret t

/-! ## Phase objects (R188-R190) -/

/-- The cores that take part: all, or core 0 for the row. -/
def actsFor (row : Bool) (c : Fin 64) : Bool := !row || c.val == 0

/-- The flags a core contributes: s[B][5:0] AND its %nflags at issue. -/
def Rd.arriveMask (r : Rd) : Flags := r.b.setWidth 6 &&& r.cb.nflags

/-- Errors posted to the bank are due whatever their kind (R178, R208). -/
def reportsAll (_ : Bank) (_ : Posted) : Bool := true

def sylArrive (a b : SReg) (sc : Scope) (row : Bool) : Syl :=
  { unit := 2, a := .s a, b := .s b, reads := [.nflags], guarded := true, irrevocable := true
    check := fun i => checkScoped i sc (actsFor row) 64 true
    frames := fun i w => scopedFrames i w sc (actsFor row) 64 true
    remote := fun i c => if actsFor row c then [(i.rd c).scopedPlace sc 64] else []
    effect := fun i s =>
      let all := allCores.foldl (fun (m : Flags) c => m ||| (i.rd c).arriveMask) 0
      let ts := (allCores.filter (actsFor row)).map fun c =>
        (c, (i.rd c).scopedPlace sc 64, if row then all else (i.rd c).arriveMask)
      s.submitDue i.row i.side 0 (portDelay sc) (.arrive sc row ts)
    port := scopeLocal sc }

/-- The phase object a core's waitp reads. -/
def Rd.phaseObject (r : Rd) (sc : Scope) : List Byte := r.state.readPlace (r.scopedPlace sc 64) 64

/-- The die whose cache a read at a scope's execution point goes through; none for one at the home junction (R177). -/
def asker (sc : Scope) (row : Nat) : Option Nat := if scopeAtHome sc then none else some (dieOf row)

/-- waitp: what a core's own earlier operations do to the object comes before its read (R184, R248), and a line in recovery or behind a
sleeping link is waited for (R361, R363). An object in a ciphertext or a poisoned line is read as it stands.
(DEDUCED: log entry 140.) -/
def sylWaitp (d : SDst) (a b : SReg) (sc : Scope) : Syl :=
  { unit := 2, a := .s a, b := .s b, writes := writeS d, guarded := true, reports := reportsAll
    lsRead := fun i c =>
      if scopeLocal sc then let p := (i.rd c).localSpot (scopeQuad sc) (i.rd c).a; [(p.1, p.2, 64)] else []
    check := fun i => checkScoped i sc (fun _ => true) 64 false
    frames := fun i w => Verdict.seq [
      fun _ => scopedFrames i w sc (fun _ => true) 64 false,
      fun _ => afterFrames sc w (Verdict.seq [
        fun _ => if allCores.any (fun c => let p := (i.rd c).scopedPlace sc 64
            i.s.ownPending i.row i.side c p 64 || i.s.placeWaits p 64 (asker sc i.row) (scopeAtHome sc)) then .freeze .phase false id else .clear,
        fun _ => checkCores .syncMalformed (fun c => phaseBad ((i.rd c).phaseObject sc)) (fun c => (i.rd c).a) (fun _ => 0),
        fun _ => if allCores.any (fun c => phaseParity ((i.rd c).phaseObject sc) == (i.rd c).b.getLsbD 0)
          then .freeze .phase false id else .clear])]
    fly := fun r => [r.scalar 2 3 d (BitVec.ofNat 64 (phaseLast (r.phaseObject sc)))]
    effect := fun i s =>
      if scopeLocal sc then s
      else allCores.foldl (fun (s : State) c =>
        let p := (i.rd c).scopedPlace sc 64
        if scopeAtHome sc then s.homeRead p 64 else s.cacheRead (dieOf i.row) p 64) s }

/-! ## Locks (R191-R193) -/

/-- The owner tag of a bank, without mode and core (R191). -/
def ownerBase (panel : BitVec 13) (row : Nat) (x : Side) : Nat :=
  panel.toNat * 2 ^ 32 + row * 256 + (if x = .b then 128 else 0)

/-- A core's owner tag, or with `row` the row's. -/
def ownerTag (panel : BitVec 13) (row : Nat) (x : Side) (byRow : Bool) (c : Fin 64) : Word :=
  BitVec.ofNat 64 (ownerBase panel row x + (if byRow then 2 * 2 ^ 62 else 2 ^ 62 + c.val))

/-- Whether a lock word holds some tag of a bank. -/
def heldBy (panel : BitVec 13) (row : Nat) (x : Side) (w : Word) : Bool :=
  (w.toNat / 2 ^ 62 == 1 || w.toNat / 2 ^ 62 == 2) && w.toNat % 2 ^ 45 / 128 == ownerBase panel row x / 128

/-- The bank's acquisition is still to perform. -/
def State.lockPending (s : State) (n : Nat) (x : Side) : Bool := s.pend.any fun q => q.row == n && q.side == x && q.op.isLock

/-- The request of an acq or rel is made, with the cycles its port takes (R250). -/
def State.askLock (s : State) (n : Nat) (x : Side) (sc : Scope) (op : PendOp) : State :=
  (s.submitDue n x 0 (portDelay sc) op).modBank n x fun b => { b with asked := true }

/-- The freeze of acq: once nothing else holds the bundle back the request is made, and the bundle waits until it has performed (R67, R192,
R242).
(DEDUCED: log entry 53.) -/
def awaitLock (i : Issue) (sc : Scope) (op : PendOp) : Verdict :=
  if i.bank.asked then (if i.s.lockPending i.row i.side then .freeze .lock false id else .clear)
  else .ask .lock fun s => s.askLock i.row i.side sc op

/-- The bank's release, if it has asked for one, may perform: it is complete, its port's cycles have gone by, and nothing holds it back
(R193, R250). -/
def State.releaseReady (s : State) (n : Nat) (x : Side) : Bool :=
  s.pend.any fun q => q.row == n && q.side == x && q.op.atIssue && q.due.all (· ≤ (s.bank n x).cycle) && s.unheld q

/-- The freeze of rel: once nothing else holds the bundle back the request is made, and the bundle waits until it may perform, which it does
as the bundle issues: a bundle that traps first has released nothing (R67, R193).
(DEDUCED: log entry 53.) -/
def awaitRelease (i : Issue) (sc : Scope) (op : PendOp) : Verdict :=
  if i.bank.asked then (if i.s.releaseReady i.row i.side then .clear else .freeze .lock false id)
  else .ask .lock fun s => s.askLock i.row i.side sc op

/-- The bank's release performs. -/
def State.release (s : State) (n : Nat) (x : Side) : State :=
  match s.pend.find? fun q => q.row == n && q.side == x && q.op.atIssue with
  | some q => s.perform q
  | none => s

/-- Before acq or rel reads a word, what the core's own earlier operations do to it has been done (R184, R248). -/
def checkOwnWord (i : Issue) (acts : Fin 64 → Bool) (place : Fin 64 → Place) : Verdict :=
  if !i.bank.asked && allCores.any (fun c => acts c && i.s.ownPending i.row i.side c (place c) 8) then .freeze .lock false id else .clear

def sylAcq (a : SReg) (sc : Scope) (row : Bool) : Syl :=
  { unit := 2, a := .s a, guarded := true, irrevocable := true
    check := fun i => checkScoped i sc (actsFor row) 8 true
    frames := fun i w =>
      let acts := actsFor row
      let place (c : Fin 64) : Place := (i.rd c).scopedPlace sc 8
      Verdict.seq [
        fun _ => scopedFrames i w sc acts 8 true,
        fun _ => afterFrames sc w (Verdict.seq [
          fun _ => checkOwnWord i acts place,
          fun _ => if i.bank.asked then .clear
            else checkCores .lockSelf (fun c => acts c &&
              (heldBy i.s.panelId i.row i.side (i.s.placeWord (place c))
                || allCores.any fun k => acts k && k != c && (place c).meets 8 (place k) 8))
              (fun c => (i.rd c).a) (fun _ => 0),
          fun _ => awaitLock i sc (.lock sc (ownerTag i.s.panelId i.row i.side row 0)
            ((allCores.filter acts).map fun c => (c, place c, false)))])] }

def sylRel (a : SReg) (sc : Scope) (row : Bool) : Syl :=
  { unit := 2, a := .s a, guarded := true, irrevocable := true, reports := reportsAll
    check := fun i => checkScoped i sc (actsFor row) 8 true
    remote := fun i c => if actsFor row c && !i.bank.asked then [(i.rd c).scopedPlace sc 8] else []
    frames := fun i w =>
      let acts := actsFor row
      let place (c : Fin 64) : Place := (i.rd c).scopedPlace sc 8
      Verdict.seq [
        fun _ => scopedFrames i w sc acts 8 true,
        fun _ => afterFrames sc w (Verdict.seq [
          fun _ => checkOwnWord i acts place,
          fun _ => checkCores .lockNotHeld
            (fun c => acts c && i.s.placeWord (place c) != ownerTag i.s.panelId i.row i.side row c)
            (fun c => (i.rd c).a) (fun _ => 0),
          fun _ => awaitRelease i sc (.unlock sc row ((allCores.filter acts).map fun c => (c, place c)))])]
    effect := fun i s => s.release i.row i.side }

/-! ## Discard, prefetch, reel filling (R194-R196) -/

def sylDiscard (a b : SReg) (n : Fin 11) : Syl :=
  let len := 64 * 2 ^ n.val
  { unit := 2, a := .s a, b := .s b, guarded := true, irrevocable := true
    check := fun i => checkReach i fun c => [tensorAcc len true (i.rd c)]
    frames := fun i w => checkFrames i w fun c => [tensorAcc len true (i.rd c)]
    remote := fun i c => List.replicate (2 ^ n.val) (i.s.placeOf i.row i.side (tensorAcc len true (i.rd c)))
    effect := fun i s =>
      let s := allCores.foldl (fun (s : State) c =>
        let p := i.s.placeOf i.row i.side (tensorAcc len true (i.rd c))
        (s.countWrites i.row i.side (List.replicate (2 ^ n.val) p)).submit i.row i.side c (.discard p (2 ^ n.val))) s
      s.recordAccs i.row i.side (allCores.map fun c => tensorAcc len true (i.rd c)) }

/-- pref: a hint that changes no value; when every check passes with no walk, the die cache fetches the lines. -/
def sylPref (a b : SReg) (w : Bool) (n : Fin 11) : Syl :=
  let len := 64 * 2 ^ n.val
  { unit := 2, a := .s a, b := .s b
    effect := fun i s =>
      match checkTensor i fun c => [tensorAcc len w (i.rd c)] with
      | .clear =>
        allCores.foldl (fun (s : State) c =>
          if i.s.moving i.row i.side (tensorAcc len w (i.rd c))
            || s.placeWaits (i.s.placeOf i.row i.side (tensorAcc len w (i.rd c))) len (some (dieOf i.row)) w then s
          else
            match i.s.placeOf i.row i.side (tensorAcc len w (i.rd c)) with
            | .phys panel addr x y z t slot =>
              if w && panel == s.panelId.toNat then
                (panelLines addr len).foldl (fun s l => s.ownLine (dieOf i.row) l (slotTag slot)) s
              else s.cacheRead (dieOf i.row) (.phys panel addr x y z t slot) len
            | .ls .. => s) s
      | _ => s }

/-- Whether an mma already issued will pop a reel: the engine alone can end a wait on it (R167). -/
def Bank.willPop (b : Bank) (r : Reel) : Bool :=
  b.matOps.any fun o => !o.ended && o.next < o.steps && ((o.reelA == r && !o.keepA) || (o.reelB == r && !o.keepB))

/-- A reel that holds 2^lgn entries in some core freezes. -/
def checkFull (i : Issue) (d : Reel) : Verdict :=
  if allCores.any (fun c => let x := (i.rd c).cb.reel[d]; reelCount x = 2 ^ reelLgn x)
    then .freeze .reelFull (i.bank.willPop d) id else .clear

def sylVpush (d : Reel) (a : VReg) (p : Fin 4) : Syl :=
  { unit := 2, a := .v a, writes := if p.val = 3 then [.reel d] else [], irrevocable := true
    check := fun i => Verdict.seq [
      fun _ => checkReel i d,
      fun _ => checkRow .reelBusy (allCores.any fun c => (i.rd c).cb.reserved.any (·.reel == d)),
      fun _ => checkFull i d]
    put := fun i c =>
      let r := i.rd c
      let x := r.cb.reel[d]
      some (c, [(i.bank.winBase + reelEntry x (reelTail x) + 128 * p.val, bytesOfNat r.av.toNat 128)])
    effect := fun i s =>
      if p.val = 3 then
        s.modRow i.row (·.mapBanks i.side fun _ b => { b with reel := b.reel.set d.val (reelPush b.reel[d]) })
      else s }

/-! ## What exec does with each of them: its bank presents the bundle of that one syllable -/

/-- LD_L_S presented by the bank that holds the current row (R67, R179). -/
def execLdLS (d : SDst) (a : SReg) (off : BitVec 12) (s : State) : Host.Outcome State Fault Refusal :=
  .next (presentOne s (sylLdLS d a off) (.ldLS d a off))

/-- LD_L_V presented by the bank that holds the current row (R67, R179). -/
def execLdLV (d : VDst) (a : SReg) (off : BitVec 12) (s : State) : Host.Outcome State Fault Refusal :=
  .next (presentOne s (sylLdLV d a off) (.ldLV d a off))

/-- ST_L_S presented by the bank that holds the current row (R67, R179). -/
def execStLS (d : SReg) (a : SReg) (off : BitVec 12) (s : State) : Host.Outcome State Fault Refusal :=
  .next (presentOne s (sylStLS d a off) (.stLS d a off))

/-- ST_L_V presented by the bank that holds the current row (R67, R179). -/
def execStLV (d : VReg) (a : SReg) (off : BitVec 12) (s : State) : Host.Outcome State Fault Refusal :=
  .next (presentOne s (sylStLV d a off) (.stLV d a off))

/-- LD_Q_S presented by the bank that holds the current row (R67, R179). -/
def execLdQS (d : SDst) (a : SReg) (off : BitVec 12) (s : State) : Host.Outcome State Fault Refusal :=
  .next (presentOne s (sylLdQS d a off) (.ldQS d a off))

/-- LD_Q_V presented by the bank that holds the current row (R67, R179). -/
def execLdQV (d : VDst) (a : SReg) (off : BitVec 12) (s : State) : Host.Outcome State Fault Refusal :=
  .next (presentOne s (sylLdQV d a off) (.ldQV d a off))

/-- ST_Q_S presented by the bank that holds the current row (R67, R179). -/
def execStQS (d : SReg) (a : SReg) (off : BitVec 12) (s : State) : Host.Outcome State Fault Refusal :=
  .next (presentOne s (sylStQS d a off) (.stQS d a off))

/-- ST_Q_V presented by the bank that holds the current row (R67, R179). -/
def execStQV (d : VReg) (a : SReg) (off : BitVec 12) (s : State) : Host.Outcome State Fault Refusal :=
  .next (presentOne s (sylStQV d a off) (.stQV d a off))

/-- LDT presented by the bank that holds the current row (R67, R182). -/
def execLdt (a : SReg) (b : SReg) (v : Bool) (s : State) : Host.Outcome State Fault Refusal :=
  .next (presentOne s (sylLdt a b v) (.ldt a b v))

/-- STT presented by the bank that holds the current row (R67, R182). -/
def execStt (d : Fin 32) (a : SReg) (b : SReg) (v : Bool) (s : State) : Host.Outcome State Fault Refusal :=
  .next (presentOne s (sylStt d a b v) (.stt d a b v))

/-- LDG presented by the bank that holds the current row (R67, R183). -/
def execLdg (a : SReg) (v : Bool) (off : BitVec 11) (s : State) : Host.Outcome State Fault Refusal :=
  .next (presentOne s (sylLdg a v off) (.ldg a v off))

/-- STG presented by the bank that holds the current row (R67, R183). -/
def execStg (d : Fin 32) (a : SReg) (v : Bool) (off : BitVec 11) (s : State) : Host.Outcome State Fault Refusal :=
  .next (presentOne s (sylStg d a v off) (.stg d a v off))

/-- TAGQ presented by the bank that holds the current row (R67, R185). -/
def execTagq (d : SDst) (a : SReg) (q : QReg) (s : State) : Host.Outcome State Fault Refusal :=
  .next (presentOne s (sylTagq d a q) (.tagq d a q))

/-- TAGSET presented by the bank that holds the current row (R67, R185). -/
def execTagset (a : SReg) (b : SReg) (q : QReg) (s : State) : Host.Outcome State Fault Refusal :=
  .next (presentOne s (sylTagset a b q) (.tagset a b q))

/-- TAGCLR presented by the bank that holds the current row (R67, R185). -/
def execTagclr (a : SReg) (q : QReg) (s : State) : Host.Outcome State Fault Refusal :=
  .next (presentOne s (sylTagclr a q) (.tagclr a q))

/-- TAGCLR_ALL presented by the bank that holds the current row (R67, R185). -/
def execTagclrAll (q : QReg) (s : State) : Host.Outcome State Fault Refusal :=
  .next (presentOne s (sylTagclrAll q) (.tagclrAll q))

/-- ATOM_ADD presented by the bank that holds the current row (R67, R186). -/
def execAtomAdd (a : SReg) (b : SReg) (sc : Scope) (ret : Bool) (t : AType) (s : State) : Host.Outcome State Fault Refusal :=
  .next (presentOne s (sylAtomAdd a b sc ret t) (.atomAdd a b sc ret t))

/-- ATOM_MIN presented by the bank that holds the current row (R67, R186). -/
def execAtomMin (a : SReg) (b : SReg) (sc : Scope) (ret : Bool) (t : AType) (s : State) : Host.Outcome State Fault Refusal :=
  .next (presentOne s (sylAtomMin a b sc ret t) (.atomMin a b sc ret t))

/-- ATOM_MAX presented by the bank that holds the current row (R67, R186). -/
def execAtomMax (a : SReg) (b : SReg) (sc : Scope) (ret : Bool) (t : AType) (s : State) : Host.Outcome State Fault Refusal :=
  .next (presentOne s (sylAtomMax a b sc ret t) (.atomMax a b sc ret t))

/-- ATOM_AND presented by the bank that holds the current row (R67, R186). -/
def execAtomAnd (a : SReg) (b : SReg) (sc : Scope) (ret : Bool) (t : AType) (s : State) : Host.Outcome State Fault Refusal :=
  .next (presentOne s (sylAtomAnd a b sc ret t) (.atomAnd a b sc ret t))

/-- ATOM_OR presented by the bank that holds the current row (R67, R186). -/
def execAtomOr (a : SReg) (b : SReg) (sc : Scope) (ret : Bool) (t : AType) (s : State) : Host.Outcome State Fault Refusal :=
  .next (presentOne s (sylAtomOr a b sc ret t) (.atomOr a b sc ret t))

/-- ATOM_XOR presented by the bank that holds the current row (R67, R186). -/
def execAtomXor (a : SReg) (b : SReg) (sc : Scope) (ret : Bool) (t : AType) (s : State) : Host.Outcome State Fault Refusal :=
  .next (presentOne s (sylAtomXor a b sc ret t) (.atomXor a b sc ret t))

/-- ATOM_SWAP presented by the bank that holds the current row (R67, R186). -/
def execAtomSwap (a : SReg) (b : SReg) (sc : Scope) (ret : Bool) (t : AType) (s : State) : Host.Outcome State Fault Refusal :=
  .next (presentOne s (sylAtomSwap a b sc ret t) (.atomSwap a b sc ret t))

/-- ATOM_CAS presented by the bank that holds the current row (R67, R186). -/
def execAtomCas (d : SReg) (a : SReg) (b : SReg) (sc : Scope) (ret : Bool) (t : AType) (s : State) : Host.Outcome State Fault Refusal :=
  .next (presentOne s (sylAtomCas d a b sc ret t) (.atomCas d a b sc ret t))

/-- ARRIVE presented by the bank that holds the current row (R67, R189). -/
def execArrive (a : SReg) (b : SReg) (sc : Scope) (row : Bool) (s : State) : Host.Outcome State Fault Refusal :=
  .next (presentOne s (sylArrive a b sc row) (.arrive a b sc row))

/-- WAITP presented by the bank that holds the current row (R67, R190). -/
def execWaitp (d : SDst) (a : SReg) (b : SReg) (sc : Scope) (s : State) : Host.Outcome State Fault Refusal :=
  .next (presentOne s (sylWaitp d a b sc) (.waitp d a b sc))

/-- ACQ presented by the bank that holds the current row (R67, R192). -/
def execAcq (a : SReg) (sc : Scope) (row : Bool) (s : State) : Host.Outcome State Fault Refusal :=
  .next (presentOne s (sylAcq a sc row) (.acq a sc row))

/-- REL presented by the bank that holds the current row (R67, R193). -/
def execRel (a : SReg) (sc : Scope) (row : Bool) (s : State) : Host.Outcome State Fault Refusal :=
  .next (presentOne s (sylRel a sc row) (.rel a sc row))

/-- DISCARD presented by the bank that holds the current row (R67, R194). -/
def execDiscard (a : SReg) (b : SReg) (n : Fin 11) (s : State) : Host.Outcome State Fault Refusal :=
  .next (presentOne s (sylDiscard a b n) (.discard a b n))

/-- PREF presented by the bank that holds the current row (R67, R195). -/
def execPref (a : SReg) (b : SReg) (w : Bool) (n : Fin 11) (s : State) : Host.Outcome State Fault Refusal :=
  .next (presentOne s (sylPref a b w n) (.pref a b w n))

/-- VPUSH presented by the bank that holds the current row (R67, R196). -/
def execVpush (d : Reel) (a : VReg) (p : Fin 4) (s : State) : Host.Outcome State Fault Refusal :=
  .next (presentOne s (sylVpush d a p) (.vpush d a p))

end Sys2Proof.Machine
end

