-- ==== Sys2Proof/Machine/Copy.lean ====
section
/-! DEFINITION. The copy, message, reduction and cipher instructions of CX (R197-R213): each one's syllable, and what exec does with
it. -/

namespace Sys2Proof.Machine

/-! ## What every CX syllable shares (R197, R201, R209) -/

/-- How many operations of an engine of a bank are outstanding: numbered, and not complete in every core. -/
def State.outstanding (s : State) (n : Nat) (x : Side) (e : Fin 8) : Nat :=
  let r := s.row n
  let last := (r.bank x).numbers[e]
  let least := allCores.foldl (fun m c => min m (r.cb x c).tl[e].toNat) last
  ((List.range (last - least)).filter fun j =>
    allCores.any fun c =>
      let b := r.cb x c
      b.tl[e].toNat < least + 1 + j && !b.doneOps.contains (e, least + 1 + j)).length

/-- The freezes of CX: the engine's limit (R197), and a message of the bank that waits for room (R209).
(DEDUCED: log entry 47.) -/
def checkEngine (i : Issue) (e : Fin 8) (limit : Nat) : Verdict :=
  if limit ≤ i.s.outstanding i.row i.side e || i.s.sendBlocked i.row i.side then .freeze .channelFull false id else .clear

/-- A core in which an operation moves nothing completes it at issue (R197). -/
def State.nothingDone (s : State) (n : Nat) (x : Side) (c : Fin 64) (e : Fin 8) (number : Nat) : State :=
  s.modCoreBank n x c (·.completeOp e number)

/-- LS_ALIGN and LS_RANGE of a local operand of `n` bytes, in the cores that act; a quad-window one with `quad`. -/
def checkOperand (i : Issue) (quad : Bool) (acts : Fin 64 → Bool) (addr : Rd → Word) (n : Rd → Nat) : Verdict :=
  let a (c : Fin 64) : Word := addr (i.rd c)
  Verdict.seq [
    fun _ => checkCores .lsAlign (fun c => acts c && (a c).toNat % 64 != 0) a (fun _ => 0),
    fun _ => checkCores .lsRange (fun c => acts c && !(i.rd c).localIn quad (a c) (n (i.rd c))) a (fun _ => 0)]

/-- Every core acts. -/
def everyCore (_ : Fin 64) : Bool := true

/-- The unit, guard and kind of a CX syllable of three sources (R199, R221, R242). -/
def copySyl (d a b : Src) (check : Issue → Verdict) (frames : Issue → Bool → Verdict) (effect : Issue → State → State) : Syl :=
  { unit := 6, d := d, a := a, b := b, guarded := true, irrevocable := true, check := check, frames := frames, effect := effect }

/-- The engine of a copy channel. -/
def channel (h : Fin 4) : Fin 8 := h.castLE (by decide)

/-- The 64-byte lines of `n` lines from two starting points. -/
def linePairs (n : Nat) (p : Place) (byte : Nat) : List (Place × Nat) := (List.range n).map fun k => (p.shift (64 * k), byte + 64 * k)

/-- An operation of an engine issues: it takes its number, and each core submits its part, or completes it at once. -/
def engineIssue (i : Issue) (s : State) (e : Fin 8) (part : Nat → Fin 64 → Option PendOp) : State :=
  let r := s.takeNumber i.row i.side e
  allCores.foldl (fun (s : State) c =>
    match part r.1 c with
    | some op => s.submit i.row i.side c op
    | none => s.nothingDone i.row i.side c e r.1) r.2

/-! ## Copies between tensors and local store (R202-R204) -/

/-- The tensor span of a copy of `n` bytes: the tensor in A, the coordinate in B. -/
def spanAcc (n : Nat) (write : Bool) (r : Rd) : Acc := ⟨r.a, r.b, 64, n, !write, write⟩

def sylCpyIn (d a b : SReg) (h : Fin 4) (n : Fin 8) : Syl :=
  let len := 64 * 2 ^ n.val
  copySyl (.s d) (.s a) (.s b)
    (fun i => Verdict.seq [
      fun _ => checkOperand i false everyCore (·.d) (fun _ => len),
      fun _ => checkReach i fun c => [spanAcc len false (i.rd c)]])
    (fun i w => Verdict.seq [
      fun _ => checkFrames i w fun c => [spanAcc len false (i.rd c)],
      fun _ => checkEngine i (channel h) 16])
    (fun i s =>
      let s := engineIssue i s (channel h) fun k c =>
        let r := i.rd c
        some (.copyIn h k (linePairs (2 ^ n.val) (i.s.placeOf i.row i.side (spanAcc len false r)) (i.bank.winBase + r.d.toNat)) none)
      s.recordAccs i.row i.side (allCores.map fun c => spanAcc len false (i.rd c)))

/-- A reservation needs an entry that is neither committed nor reserved (R203). -/
def checkReserve (i : Issue) (d : Reel) : Verdict :=
  if allCores.any (fun c =>
      let b := (i.rd c).cb
      2 ^ reelLgn b.reel[d] < reelCount b.reel[d] + (b.reserved.filter (·.reel == d)).length + 1)
    then .freeze .reelFull (i.bank.willPop d) id else .clear

def sylCpyInR (d : Reel) (a b : SReg) (h : Fin 4) : Syl :=
  copySyl .none (.s a) (.s b)
    (fun i => Verdict.seq [
      fun _ => checkReel i d,
      fun _ => checkReach i fun c => [spanAcc 512 false (i.rd c)]])
    (fun i w => Verdict.seq [
      fun _ => checkFrames i w fun c => [spanAcc 512 false (i.rd c)],
      fun _ => checkReserve i d,
      fun _ => checkEngine i (channel h) 16])
    (fun i s =>
      let s := engineIssue i s (channel h) fun k c =>
        let r := i.rd c
        let x := r.cb.reel[d]
        let at0 := reelEntry x (reelTail x + (r.cb.reserved.filter (·.reel == d)).length)
        some (.copyIn h k (linePairs 8 (i.s.placeOf i.row i.side (spanAcc 512 false r)) (i.bank.winBase + at0)) (some d))
      let k := (s.bank i.row i.side).numbers[channel h]
      let s := s.modRow i.row (·.mapBanks i.side fun _ b => { b with reserved := b.reserved ++ [⟨d, h, k, false⟩] })
      s.recordAccs i.row i.side (allCores.map fun c => spanAcc 512 false (i.rd c)))

/-- The lines of a copy out: the local line's byte number, and where it goes. -/
def outLines (n : Nat) (byte : Nat) (p : Place) : List (Nat × Place) := (linePairs n p byte).map fun x => (x.2, x.1)

def sylCpyOut (d a b : SReg) (h : Fin 4) (n : Fin 8) : Syl :=
  let len := 64 * 2 ^ n.val
  let place (i : Issue) (c : Fin 64) : Place := i.s.placeOf i.row i.side (spanAcc len true (i.rd c))
  { copySyl (.s d) (.s a) (.s b)
      (fun i => Verdict.seq [
        fun _ => checkOperand i false everyCore (·.d) (fun _ => len),
        fun _ => checkReach i fun c => [spanAcc len true (i.rd c)]])
      (fun i w => Verdict.seq [
        fun _ => checkFrames i w fun c => [spanAcc len true (i.rd c)],
        fun _ => checkEngine i (channel h) 16])
      (fun i s =>
        let s := s.countWrites i.row i.side (allCores.flatMap fun c => List.replicate (2 ^ n.val) (place i c))
        let s := engineIssue i s (channel h) fun k c =>
          some (.copyOut h k (outLines (2 ^ n.val) (i.bank.winBase + (i.rd c).d.toNat) (place i c)))
        s.recordAccs i.row i.side (allCores.map fun c => spanAcc len true (i.rd c))) with
    remote := fun i c => List.replicate (2 ^ n.val) (place i c) }

/-- What a core reads of its own window at issue, for a CX syllable, waits for the core's atomics and arrivals of earlier bundles there
(R204, R212, R249).
(DEDUCED: log entry 136.) -/
def checkOwnBytes (i : Issue) (len : Nat) : Verdict :=
  if allCores.any fun c => i.s.ownPending i.row i.side c (.ls i.row c (i.bank.winBase + (i.rd c).b.toNat)) len
    then .freeze .channelFull false id else .clear

/-- The coordinate operands of an index list of `n` words, read at issue (R204). -/
def Rd.indexList (r : Rd) (n : Nat) : List Word :=
  (List.range n).map fun k => wordOfBytes (Memory.read r.late.ls (r.bank.winBase + r.b.toNat + 8 * k) 8)

/-- The accesses of a gather or scatter, one a line, in ascending line order. -/
def indexedAccs (n : Nat) (write : Bool) (r : Rd) : List Acc := (r.indexList n).map fun w => ⟨r.a, w, 64, 64, !write, write⟩
/-- The access of one line of them. -/
def lineAcc (n : Nat) (write : Bool) (k : Nat) (r : Rd) : List Acc := ((indexedAccs n write r)[k]?).toList

/-- The checks of one line of a gather or scatter up to its walk: its window bytes, its tensor span (R201, R204). -/
def checkLine (i : Issue) (n : Nat) (write : Bool) (k : Nat) : Verdict :=
  Verdict.seq [
    fun _ => checkOperand i false everyCore (fun r => r.d + BitVec.ofNat 64 (64 * k)) (fun _ => 64),
    fun _ => checkSpan i fun c => lineAcc n write k (i.rd c)]

/-- The checks of a gather or scatter: its index list; then, while lines must walk, those the lines can be judged by, line by line.
(DEDUCED: log entry 35.) -/
def checkIndexed (i : Issue) (n : Nat) (write : Bool) : Verdict :=
  let accs (c : Fin 64) : List Acc := indexedAccs n write (i.rd c)
  Verdict.seq [
    fun _ => checkOperand i false everyCore (·.b) (fun _ => 8 * n),
    fun _ => checkOwnBytes i (8 * n),
    fun _ =>
      if allCores.any (fun c => (accs c).any (i.s.mustWalk i.row i.side)) then
        Verdict.seq ((List.range n).map (fun k _ => checkLine i n write k) ++ [fun _ => checkWalks i accs])
      else .clear]

/-- With the walks ended, every check of a line before the next line's; then the engine. -/
def indexedFrames (i : Issue) (walking : Bool) (h : Fin 4) (n : Nat) (write : Bool) : Verdict :=
  Verdict.seq ((List.range n).flatMap (fun k =>
    [fun _ => checkLine i n write k, fun _ => checkFrames i walking fun c => lineAcc n write k (i.rd c)]) ++
    [fun _ => checkEngine i (channel h) 16])

/-- The index list a gather or scatter reads at issue.
(DEDUCED: log entry 18.) -/
def indexRead (n : Nat) (i : Issue) (c : Fin 64) : List (Fin 64 × Nat × Nat) := [(c, i.bank.winBase + (i.rd c).b.toNat, 8 * n)]

def sylCpyGat (d a b : SReg) (h : Fin 4) (n : Fin 8) : Syl :=
  let k := 2 ^ n.val
  { copySyl (.s d) (.s a) (.s b)
      (fun i => checkIndexed i k false)
      (fun i w => indexedFrames i w h k false)
      (fun i s =>
        let s := engineIssue i s (channel h) fun num c =>
          let r := i.rd c
          some (.copyIn h num ((indexedAccs k false r).zipIdx.map fun p =>
            (i.s.placeOf i.row i.side p.1, i.bank.winBase + r.d.toNat + 64 * p.2)) none)
        s.recordAccs i.row i.side (allCores.flatMap fun c => indexedAccs k false (i.rd c))) with
    lsRead := indexRead k }

def sylCpySct (d a b : SReg) (h : Fin 4) (n : Fin 8) : Syl :=
  let k := 2 ^ n.val
  let places (i : Issue) (c : Fin 64) : List Place := (indexedAccs k true (i.rd c)).map (i.s.placeOf i.row i.side)
  { copySyl (.s d) (.s a) (.s b)
      (fun i => checkIndexed i k true)
      (fun i w => indexedFrames i w h k true)
      (fun i s =>
        let s := s.countWrites i.row i.side (allCores.flatMap (places i))
        let s := engineIssue i s (channel h) fun num c =>
          some (.copyOut h num ((places i c).zipIdx.map fun p => (i.bank.winBase + (i.rd c).d.toNat + 64 * p.2, p.1)))
        s.recordAccs i.row i.side (allCores.flatMap fun c => indexedAccs k true (i.rd c))) with
    lsRead := indexRead k
    remote := places }

/-! ## Copies inside local store (R205) -/

/-- The count of cpy.ll, and whether it moves anything in a core. -/
def Rd.copyCount (r : Rd) : Nat := r.b.toNat
def Rd.copies (r : Rd) : Bool := r.b != 0

/-- The source and destination of cpy.ll overlap in local store. -/
def Rd.copyOverlaps (r : Rd) (quad : Bool) : Bool :=
  let p := r.localSpot false r.a
  let q := r.localSpot quad r.d
  r.copies && p.1 == q.1 && p.2 < q.2 + r.copyCount && q.2 < p.2 + r.copyCount

def sylCpyLl (d a b : SReg) (h : Fin 4) (qw : Bool) : Syl :=
  copySyl (.s d) (.s a) (.s b)
    (fun i =>
      let moves (c : Fin 64) : Bool := (i.rd c).copies
      Verdict.seq [
        fun _ => checkCores .copySize (fun c => (i.rd c).copyCount % 64 != 0 || 49152 < (i.rd c).copyCount) (fun _ => 0) (fun _ => 0),
        fun _ => checkOperand i false moves (·.a) (·.copyCount),
        fun _ => checkOperand i qw moves (·.d) (·.copyCount),
        fun _ => checkCores .copyOverlap (fun c => (i.rd c).copyOverlaps qw) (fun c => (i.rd c).a) (fun _ => 0)])
    (fun i _ => checkEngine i (channel h) 16)
    (fun i s => engineIssue i s (channel h) fun k c =>
      let r := i.rd c
      if r.copies then
        let q := r.localSpot qw r.d
        some (.copyLocal h k (r.localSpot false r.a).2 q.1 q.2 r.copyCount)
      else none)

/-! ## Messages (R209, R210) -/

/-- The fields of a send target: panel, row, core; and whether it is no target. -/
def targetPanel (w : Word) : Nat := slice w.toNat 32 20
def targetRow (w : Word) : Nat := slice w.toNat 19 6
def targetCore (w : Word) : Fin 64 := ⟨w.toNat % 64, Nat.mod_lt _ (by decide)⟩
def targetBad (w : Word) : Bool := slice w.toNat 63 33 != 0 || 10239 < targetRow w

/-- The scope of a send: the narrowest of row, die, region, panel and pod that holds both rows (R254). -/
def sendScope (panel : Nat) (n : Nat) (w : Word) : Scope :=
  if targetPanel w != panel then .pod
  else if targetRow w = n then .row
  else if targetRow w / 64 = n / 64 then .die
  else if targetRow w / 640 = n / 640 then .region
  else .panel

def sylSend (d : VReg) (a b : SReg) (q : QReg) : Syl :=
  { copySyl (.v d) (.s a) (.s b)
      (fun i => checkCores .sendTarget (fun c => (i.rd c).on q && targetBad (i.rd c).a) (fun _ => 0) (fun _ => 0))
      (fun i _ => checkEngine i 6 16)
      (fun i s => engineIssue i s 6 fun k c =>
        let r := i.rd c
        if r.on q then
          some (.send k (targetPanel r.a) (targetRow r.a)
            { payload := r.dv, fromPanel := i.s.panelId, fromRow := i.row, fromCore := c, fromSide := i.side
              entry := r.b.setWidth 15, tag := (r.b >>> 16).setWidth 48, core := targetCore r.a, number := k, poison := false }
            (sendScope i.s.panelId.toNat i.row r.a))
        else none) with
    reads := readQ q }

/-! ## Reduction (R211) -/

/-- The access of red: 128 bytes, aligned to 128, read and written. -/
def redAcc (r : Rd) : Acc := ⟨r.a, r.b, 128, 128, true, true⟩

def sylRed (d : VReg) (a b : SReg) (t : AType) (sc : Scope) : Syl :=
  let place (i : Issue) (c : Fin 64) : Place := i.s.placeOf i.row i.side (redAcc (i.rd c))
  { copySyl (.v d) (.s a) (.s b)
      (fun i => checkReach i fun c => [redAcc (i.rd c)])
      (fun i w => Verdict.seq [
        fun _ => checkFrames i w fun c => [redAcc (i.rd c)],
        fun _ => checkEngine i 7 16])
      (fun i s =>
        let s := s.countWrites i.row i.side (allCores.map (place i))
        let r := s.takeNumber i.row i.side 7
        let s := r.2.submit i.row i.side 0 (.red r.1 t sc (allCores.map fun c => (c, place i c, (i.rd c).dv)))
        s.recordAccs i.row i.side (allCores.map fun c => redAcc (i.rd c))) with
    remote := fun i c => [place i c] }

/-! ## Sealing and opening (R212, R213) -/

/-- The 64 bytes of the parameter block, and its fields. -/
def Rd.block (r : Rd) : Nat := natOfBytes (Memory.read r.late.ls (r.bank.winBase + r.b.toNat) 64)
def blockSlot (x : Nat) : Nat := slice x 15 0
def blockLength (x : Nat) : Nat := slice x 63 32
def blockIv (x : Nat) : BitVec 96 := BitVec.ofNat 96 (slice x 159 64)
def blockTag (x : Nat) : BitVec 128 := BitVec.ofNat 128 (slice x 383 256)
def blockAad (x : Nat) : List Byte := bytesOfNat (slice x 511 384) 16
def blockBad (x : Nat) : Bool :=
  blockLength x % 64 != 0 || blockLength x = 0 || 16384 < blockLength x || 63 < blockSlot x || slice x 31 16 != 0 || slice x 255 160 != 0

/-- The source and destination overlap other than exactly. -/
def Rd.cipherOverlaps (r : Rd) : Bool :=
  r.a != r.d && r.a.toNat < r.d.toNat + blockLength r.block && r.d.toNat < r.a.toNat + blockLength r.block

/-- seal and open: one operation of the cipher engine in every core.
(DESIGN CHOICE: log entry 111.) -/
def cipherForm (sealing : Bool) (d a b : SReg) : Syl :=
  { copySyl (.s d) (.s a) (.s b)
      (fun i => Verdict.seq [
        fun _ => checkOperand i false everyCore (·.b) (fun _ => 64),
        fun _ => checkOwnBytes i 64,
        fun _ => checkCores .cipherParam (fun c => blockBad (i.rd c).block) (fun c => (i.rd c).b) (fun _ => 0),
        fun _ => checkOperand i false everyCore (·.a) (fun r => blockLength r.block),
        fun _ => checkOperand i false everyCore (·.d) (fun r => blockLength r.block),
        fun _ => checkCores .cipherParam (fun c => (i.rd c).cipherOverlaps) (fun c => (i.rd c).a) (fun _ => 0)])
      (fun i _ => checkEngine i 5 4)
      (fun i s => engineIssue i s 5 fun k c =>
        let r := i.rd c
        let x := r.block
        let w := i.bank.winBase
        some (.cipher k sealing (w + r.a.toNat) (w + r.d.toNat) (w + r.b.toNat) (blockLength x)
          ⟨blockSlot x % 64, Nat.mod_lt _ (by decide)⟩ (blockIv x) (blockAad x) (blockTag x))) with
    lsRead := fun i c => [(c, i.bank.winBase + (i.rd c).b.toNat, 64)] }

def sylSeal (d a b : SReg) : Syl := cipherForm true d a b
def sylOpn (d a b : SReg) : Syl := cipherForm false d a b

/-! ## What exec does with each of them: its bank presents the bundle of that one syllable -/

/-- CPY_IN presented by the bank that holds the current row (R67, R202). -/
def execCpyIn (d : SReg) (a : SReg) (b : SReg) (h : Fin 4) (n : Fin 8) (s : State) : Host.Outcome State Fault Refusal :=
  .next (presentOne s (sylCpyIn d a b h n) (.cpyIn d a b h n))

/-- CPY_IN_R presented by the bank that holds the current row (R67, R203). -/
def execCpyInR (d : Reel) (a : SReg) (b : SReg) (h : Fin 4) (s : State) : Host.Outcome State Fault Refusal :=
  .next (presentOne s (sylCpyInR d a b h) (.cpyInR d a b h))

/-- CPY_OUT presented by the bank that holds the current row (R67, R202). -/
def execCpyOut (d : SReg) (a : SReg) (b : SReg) (h : Fin 4) (n : Fin 8) (s : State) : Host.Outcome State Fault Refusal :=
  .next (presentOne s (sylCpyOut d a b h n) (.cpyOut d a b h n))

/-- CPY_GAT presented by the bank that holds the current row (R67, R204). -/
def execCpyGat (d : SReg) (a : SReg) (b : SReg) (h : Fin 4) (n : Fin 8) (s : State) : Host.Outcome State Fault Refusal :=
  .next (presentOne s (sylCpyGat d a b h n) (.cpyGat d a b h n))

/-- CPY_SCT presented by the bank that holds the current row (R67, R204). -/
def execCpySct (d : SReg) (a : SReg) (b : SReg) (h : Fin 4) (n : Fin 8) (s : State) : Host.Outcome State Fault Refusal :=
  .next (presentOne s (sylCpySct d a b h n) (.cpySct d a b h n))

/-- CPY_LL presented by the bank that holds the current row (R67, R205). -/
def execCpyLl (d : SReg) (a : SReg) (b : SReg) (h : Fin 4) (qw : Bool) (s : State) : Host.Outcome State Fault Refusal :=
  .next (presentOne s (sylCpyLl d a b h qw) (.cpyLl d a b h qw))

/-- SEND presented by the bank that holds the current row (R67, R209). -/
def execSend (d : VReg) (a : SReg) (b : SReg) (q : QReg) (s : State) : Host.Outcome State Fault Refusal :=
  .next (presentOne s (sylSend d a b q) (.send d a b q))

/-- RED presented by the bank that holds the current row (R67, R211). -/
def execRed (d : VReg) (a : SReg) (b : SReg) (t : AType) (sc : Scope) (s : State) : Host.Outcome State Fault Refusal :=
  .next (presentOne s (sylRed d a b t sc) (.red d a b t sc))

/-- SEAL presented by the bank that holds the current row (R67, R213). -/
def execSeal (d : SReg) (a : SReg) (b : SReg) (s : State) : Host.Outcome State Fault Refusal :=
  .next (presentOne s (sylSeal d a b) (.seal d a b))

/-- OPEN presented by the bank that holds the current row (R67, R213). -/
def execOpn (d : SReg) (a : SReg) (b : SReg) (s : State) : Host.Outcome State Fault Refusal :=
  .next (presentOne s (sylOpn d a b) (.opn d a b))

end Sys2Proof.Machine
end

