-- ==== Sys2Proof/Machine/Scalar.lean ====
section
/-! DEFINITION. The scalar instructions of SA and SB (R115-R126): each one's syllable, and what exec does with it. -/

namespace Sys2Proof.Machine

/-! ## Forms (R115) -/

/-- A predicated form of two sources: in a core where bit 0 of q[Q] is on, the value lands after `l` issue cycles. -/
def scalarRR (u : Twin) (d : SDst) (a b : SReg) (q : QReg) (l : Nat) (f : Word → Word → Word) : Syl :=
  { unit := unitS u, a := .s a, b := .s b, reads := readQ q, writes := writeS d
    fly := fun r => if r.on q then [r.scalar (unitS u) l d (f r.a r.b)] else [] }

/-- A predicated form of one source. -/
def scalarR (u : Twin) (d : SDst) (a : SReg) (q : QReg) (f : Word → Word) : Syl :=
  { unit := unitS u, a := .s a, reads := readQ q, writes := writeS d
    fly := fun r => if r.on q then [r.scalar (unitS u) 1 d (f r.a)] else [] }

/-- An unpredicated immediate form. -/
def scalarI (u : Twin) (d : SDst) (a : SReg) (f : Word → Word) : Syl :=
  { unit := unitS u, a := .s a, writes := writeS d, fly := fun r => [r.scalar (unitS u) 1 d (f r.a)] }

/-! ## Values (R118-R123) -/

/-- A truth value as a word. -/
def wordOfBool (p : Bool) : Word := if p then 1 else 0
/-- The number of places a shift moves: bits 5:0 of its count. -/
def shiftCount (b : Word) : Nat := b.toNat % 64
/-- Rotate left by bits 5:0 of the count (R118). -/
def rolWord (a b : Word) : Word := (a <<< shiftCount b) ||| (a >>> (64 - shiftCount b))

/-- Signed division rounded toward zero, with its fixed results (R120). -/
def divWord (a b : Word) : Word :=
  if b = 0 then BitVec.allOnes 64
  else if a = 0x8000000000000000 ∧ b = BitVec.allOnes 64 then 0x8000000000000000
  else BitVec.ofInt 64 (a.toInt.tdiv b.toInt)
def remWord (a b : Word) : Word :=
  if b = 0 then a
  else if a = 0x8000000000000000 ∧ b = BitVec.allOnes 64 then 0
  else BitVec.ofInt 64 (a.toInt - b.toInt * a.toInt.tdiv b.toInt)
/-- Unsigned division (R120). -/
def divnWord (a b : Word) : Word := if b = 0 then BitVec.allOnes 64 else BitVec.ofNat 64 (a.toNat / b.toNat)
def remnWord (a b : Word) : Word := if b = 0 then a else BitVec.ofNat 64 (a.toNat % b.toNat)

/-- Bit counts (R121). -/
def clzWord (a : Word) : Word := if a = 0 then 64 else BitVec.ofNat 64 (63 - Nat.log2 a.toNat)
def ctzWord (a : Word) : Word := BitVec.ofNat 64 (((List.range 64).find? fun i => a.getLsbD i).getD 64)
def popcWord (a : Word) : Word := BitVec.ofNat 64 ((List.range 64).foldl (fun k i => if a.getLsbD i then k + 1 else k) 0)

/-- The width of sext and zext (R121). -/
def extBits : ExtW → Nat
  | .w8 => 8
  | .w16 => 16
  | .w32 => 32
def sextWord (m : ExtW) (a : Word) : Word := BitVec.ofInt 64 (signext a.toNat (extBits m))
def zextWord (m : ExtW) (a : Word) : Word := BitVec.ofNat 64 (a.toNat % 2 ^ extBits m)

/-- An immediate of 12 bits, sign-extended (R123). -/
def imm12 (i : BitVec 12) : Word := i.signExtend 64

/-! ## Addition, logic, shifts, comparisons (R118) -/

def sylAdd (u : Twin) (d : SDst) (a b : SReg) (q : QReg) : Syl := scalarRR u d a b q 1 fun a b => a + b
def sylSub (u : Twin) (d : SDst) (a b : SReg) (q : QReg) : Syl := scalarRR u d a b q 1 fun a b => a - b
def sylAnd (u : Twin) (d : SDst) (a b : SReg) (q : QReg) : Syl := scalarRR u d a b q 1 fun a b => a &&& b
def sylOr (u : Twin) (d : SDst) (a b : SReg) (q : QReg) : Syl := scalarRR u d a b q 1 fun a b => a ||| b
def sylXor (u : Twin) (d : SDst) (a b : SReg) (q : QReg) : Syl := scalarRR u d a b q 1 fun a b => a ^^^ b
def sylAndn (u : Twin) (d : SDst) (a b : SReg) (q : QReg) : Syl := scalarRR u d a b q 1 fun a b => a &&& ~~~ b
def sylShl (u : Twin) (d : SDst) (a b : SReg) (q : QReg) : Syl := scalarRR u d a b q 1 fun a b => a <<< shiftCount b
def sylShr (u : Twin) (d : SDst) (a b : SReg) (q : QReg) : Syl := scalarRR u d a b q 1 fun a b => a >>> shiftCount b
def sylSar (u : Twin) (d : SDst) (a b : SReg) (q : QReg) : Syl := scalarRR u d a b q 1 fun a b => a.sshiftRight (shiftCount b)
def sylRol (u : Twin) (d : SDst) (a b : SReg) (q : QReg) : Syl := scalarRR u d a b q 1 rolWord
def sylMin (u : Twin) (d : SDst) (a b : SReg) (q : QReg) : Syl := scalarRR u d a b q 1 fun a b => if a.sle b then a else b
def sylMax (u : Twin) (d : SDst) (a b : SReg) (q : QReg) : Syl := scalarRR u d a b q 1 fun a b => if b.sle a then a else b
def sylMinn (u : Twin) (d : SDst) (a b : SReg) (q : QReg) : Syl := scalarRR u d a b q 1 fun a b => if a ≤ b then a else b
def sylMaxn (u : Twin) (d : SDst) (a b : SReg) (q : QReg) : Syl := scalarRR u d a b q 1 fun a b => if b ≤ a then a else b
def sylSlt (u : Twin) (d : SDst) (a b : SReg) (q : QReg) : Syl := scalarRR u d a b q 1 fun a b => wordOfBool (a.slt b)
def sylSltn (u : Twin) (d : SDst) (a b : SReg) (q : QReg) : Syl := scalarRR u d a b q 1 fun a b => wordOfBool (a.ult b)
def sylSeq (u : Twin) (d : SDst) (a b : SReg) (q : QReg) : Syl := scalarRR u d a b q 1 fun a b => wordOfBool (a == b)
def sylSne (u : Twin) (d : SDst) (a b : SReg) (q : QReg) : Syl := scalarRR u d a b q 1 fun a b => wordOfBool (a != b)

/-! ## Multiplication and division (R119, R120) -/

def sylMul (u : Twin) (d : SDst) (a b : SReg) (q : QReg) : Syl := scalarRR u d a b q 3 fun a b => a * b
def sylMulh (u : Twin) (d : SDst) (a b : SReg) (q : QReg) : Syl :=
  scalarRR u d a b q 3 fun a b => BitVec.ofInt 64 (a.toInt * b.toInt / 2 ^ 64)
def sylMulhn (u : Twin) (d : SDst) (a b : SReg) (q : QReg) : Syl :=
  scalarRR u d a b q 3 fun a b => BitVec.ofNat 64 (a.toNat * b.toNat / 2 ^ 64)
def sylDiv (u : Twin) (d : SDst) (a b : SReg) (q : QReg) : Syl := scalarRR u d a b q 12 divWord
def sylDivn (u : Twin) (d : SDst) (a b : SReg) (q : QReg) : Syl := scalarRR u d a b q 12 divnWord
def sylRem (u : Twin) (d : SDst) (a b : SReg) (q : QReg) : Syl := scalarRR u d a b q 12 remWord
def sylRemn (u : Twin) (d : SDst) (a b : SReg) (q : QReg) : Syl := scalarRR u d a b q 12 remnWord

/-! ## Selection, bit counts, extensions (R121, R122) -/

/-- q[Q] bit 0 selects; every core acts (R122). -/
def sylSel (u : Twin) (d : SDst) (a b : SReg) (q : QReg) : Syl :=
  { unit := unitS u, a := .s a, b := .s b, reads := readQ q, writes := writeS d
    fly := fun r => [r.scalar (unitS u) 1 d (if r.on q then r.a else r.b)] }
def sylClz (u : Twin) (d : SDst) (a : SReg) (q : QReg) : Syl := scalarR u d a q clzWord
def sylCtz (u : Twin) (d : SDst) (a : SReg) (q : QReg) : Syl := scalarR u d a q ctzWord
def sylPopc (u : Twin) (d : SDst) (a : SReg) (q : QReg) : Syl := scalarR u d a q popcWord
def sylSext (u : Twin) (d : SDst) (a : SReg) (q : QReg) (m : ExtW) : Syl := scalarR u d a q (sextWord m)
def sylZext (u : Twin) (d : SDst) (a : SReg) (q : QReg) (m : ExtW) : Syl := scalarR u d a q (zextWord m)

/-! ## Immediates (R123) -/

def sylAddi (u : Twin) (d : SDst) (a : SReg) (imm : BitVec 12) : Syl := scalarI u d a fun a => a + imm12 imm
def sylAndi (u : Twin) (d : SDst) (a : SReg) (imm : BitVec 12) : Syl := scalarI u d a fun a => a &&& imm12 imm
def sylOri (u : Twin) (d : SDst) (a : SReg) (imm : BitVec 12) : Syl := scalarI u d a fun a => a ||| imm12 imm
def sylXori (u : Twin) (d : SDst) (a : SReg) (imm : BitVec 12) : Syl := scalarI u d a fun a => a ^^^ imm12 imm
def sylShli (u : Twin) (d : SDst) (a : SReg) (n : Fin 64) : Syl := scalarI u d a fun a => a <<< n.val
def sylShri (u : Twin) (d : SDst) (a : SReg) (n : Fin 64) : Syl := scalarI u d a fun a => a >>> n.val
def sylSari (u : Twin) (d : SDst) (a : SReg) (n : Fin 64) : Syl := scalarI u d a fun a => a.sshiftRight n.val
def sylLi (u : Twin) (d : SDst) (imm : BitVec 17) : Syl :=
  { unit := unitS u, writes := writeS d, fly := fun r => [r.scalar (unitS u) 1 d (imm.signExtend 64)] }
/-- lui reads its own destination at issue. -/
def sylLui (u : Twin) (d : SDst) (imm : BitVec 17) : Syl :=
  { unit := unitS u, reads := writeS d, writes := writeS d
    fly := fun r => [r.scalar (unitS u) 1 d (r.cb.sget (d.castLE (by decide)) <<< 17 ||| imm.setWidth 64)] }

/-! ## Control registers (R124) -/

/-- The index of the n-th running loop, innermost first; 0 with none (R101). -/
def Bank.loopIndex (b : Bank) (n : Nat) : Nat := ((b.frames[n]?).map (·.pass)).getD 0

/-- The value of a control register of a bank, as every code that reads it gives it; per-core registers, registers of the region and
%nflags read here as 0. -/
def Bank.creg (b : Bank) : CReg → Word
  | .rankBlk => b.rankBlk.setWidth 64
  | .rankRegion => b.rankReg.setWidth 64
  | .rankDie => b.rankDie.setWidth 64
  | .rankRow => b.rankRow.setWidth 64
  | .index n => BitVec.ofNat 64 (b.loopIndex n.val % 2 ^ 32)
  | .fmt => b.fmt.setWidth 64
  | .mxstep => b.mxstep.setWidth 64
  | .chk | .chkAlias => wordOfBool b.chk
  | .loopDepth => BitVec.ofNat 64 b.frames.length
  | .callDepth => BitVec.ofNat 64 b.calls.length
  | .deckleLo => b.deckle.setWidth 64
  | .deckleHi => (b.deckle >>> 64).setWidth 64
  | .lswin => b.lswin.setWidth 64
  | .tsave => b.tsave.setWidth 64
  | .sysperm => b.sysperm.setWidth 64
  | .trapvec => b.trapvec.setWidth 64
  | .trapWord n => b.trapRec[n]
  | .rankQuad | .rankCore | .nflags | .tl _ | .bank | .istep | .barsel | .barmask | .wgen => 0

/-- The registers in whose shadow a read of a control register may lie. -/
def cregLocs : CReg → List Loc
  | .fmt => [.fmt]
  | .nflags => [.nflags]
  | .chk | .chkAlias => [.chk]
  | .deckleLo | .deckleHi => [.deckle]
  | .trapvec => [.trapvec]
  | .istep => [.istep]
  | .barsel => [.barsel]
  | .barmask => [.barmask, .barsel]
  | _ => []

/-- What mfs reads in a core. -/
def Rd.creg (r : Rd) : CReg → Word
  | .rankQuad => BitVec.ofNat 64 (r.core.val / 4)
  | .rankCore => BitVec.ofNat 64 r.core.val
  | .nflags => r.cb.nflags.setWidth 64
  | .tl n => r.cb.tl[n]
  | c => r.bank.creg c

def sylMfs (u : Twin) (d : SDst) (c : CReg) : Syl :=
  { unit := unitS u, reads := cregLocs c, writes := writeS d, fly := fun r => [r.scalar (unitS u) 1 d (r.creg c)] }

/-! ## Compare and trap (R125, R126) -/

/-- Whether the condition of chk passes. -/
def chkPasses (m : ChkOp) (a b : Word) : Bool :=
  match m with
  | .eq => a == b
  | .ne => a != b
  | .lt => a.slt b

def sylChk (u : Twin) (a b : SReg) (q : QReg) (m : ChkOp) : Syl :=
  { unit := unitS u, a := .s a, b := .s b, reads := readQ q, guarded := true
    check := fun i => checkCores .chkFail (fun c => (i.rd c).on q && !chkPasses m (i.rd c).a (i.rd c).b) (fun _ => 0) (fun _ => 0) }

/-! ## What exec does with each of them: its bank presents the bundle of that one syllable -/

/-- ADD presented by the bank that holds the current row (R67, R118). -/
def execAdd (u : Twin) (d : SDst) (a : SReg) (b : SReg) (q : QReg) (s : State) : Host.Outcome State Fault Refusal :=
  .next (presentOne s (sylAdd u d a b q) (.add u d a b q))

/-- SUB presented by the bank that holds the current row (R67, R118). -/
def execSub (u : Twin) (d : SDst) (a : SReg) (b : SReg) (q : QReg) (s : State) : Host.Outcome State Fault Refusal :=
  .next (presentOne s (sylSub u d a b q) (.sub u d a b q))

/-- MUL presented by the bank that holds the current row (R67, R119). -/
def execMul (u : Twin) (d : SDst) (a : SReg) (b : SReg) (q : QReg) (s : State) : Host.Outcome State Fault Refusal :=
  .next (presentOne s (sylMul u d a b q) (.mul u d a b q))

/-- MULH presented by the bank that holds the current row (R67, R119). -/
def execMulh (u : Twin) (d : SDst) (a : SReg) (b : SReg) (q : QReg) (s : State) : Host.Outcome State Fault Refusal :=
  .next (presentOne s (sylMulh u d a b q) (.mulh u d a b q))

/-- MULHN presented by the bank that holds the current row (R67, R119). -/
def execMulhn (u : Twin) (d : SDst) (a : SReg) (b : SReg) (q : QReg) (s : State) : Host.Outcome State Fault Refusal :=
  .next (presentOne s (sylMulhn u d a b q) (.mulhn u d a b q))

/-- DIV presented by the bank that holds the current row (R67, R120). -/
def execDiv (u : Twin) (d : SDst) (a : SReg) (b : SReg) (q : QReg) (s : State) : Host.Outcome State Fault Refusal :=
  .next (presentOne s (sylDiv u d a b q) (.div u d a b q))

/-- DIVN presented by the bank that holds the current row (R67, R120). -/
def execDivn (u : Twin) (d : SDst) (a : SReg) (b : SReg) (q : QReg) (s : State) : Host.Outcome State Fault Refusal :=
  .next (presentOne s (sylDivn u d a b q) (.divn u d a b q))

/-- REM presented by the bank that holds the current row (R67, R120). -/
def execRem (u : Twin) (d : SDst) (a : SReg) (b : SReg) (q : QReg) (s : State) : Host.Outcome State Fault Refusal :=
  .next (presentOne s (sylRem u d a b q) (.rem u d a b q))

/-- REMN presented by the bank that holds the current row (R67, R120). -/
def execRemn (u : Twin) (d : SDst) (a : SReg) (b : SReg) (q : QReg) (s : State) : Host.Outcome State Fault Refusal :=
  .next (presentOne s (sylRemn u d a b q) (.remn u d a b q))

/-- AND presented by the bank that holds the current row (R67, R118). -/
def execAnd (u : Twin) (d : SDst) (a : SReg) (b : SReg) (q : QReg) (s : State) : Host.Outcome State Fault Refusal :=
  .next (presentOne s (sylAnd u d a b q) (.and u d a b q))

/-- OR presented by the bank that holds the current row (R67, R118). -/
def execOr (u : Twin) (d : SDst) (a : SReg) (b : SReg) (q : QReg) (s : State) : Host.Outcome State Fault Refusal :=
  .next (presentOne s (sylOr u d a b q) (.or u d a b q))

/-- XOR presented by the bank that holds the current row (R67, R118). -/
def execXor (u : Twin) (d : SDst) (a : SReg) (b : SReg) (q : QReg) (s : State) : Host.Outcome State Fault Refusal :=
  .next (presentOne s (sylXor u d a b q) (.xor u d a b q))

/-- ANDN presented by the bank that holds the current row (R67, R118). -/
def execAndn (u : Twin) (d : SDst) (a : SReg) (b : SReg) (q : QReg) (s : State) : Host.Outcome State Fault Refusal :=
  .next (presentOne s (sylAndn u d a b q) (.andn u d a b q))

/-- SHL presented by the bank that holds the current row (R67, R118). -/
def execShl (u : Twin) (d : SDst) (a : SReg) (b : SReg) (q : QReg) (s : State) : Host.Outcome State Fault Refusal :=
  .next (presentOne s (sylShl u d a b q) (.shl u d a b q))

/-- SHR presented by the bank that holds the current row (R67, R118). -/
def execShr (u : Twin) (d : SDst) (a : SReg) (b : SReg) (q : QReg) (s : State) : Host.Outcome State Fault Refusal :=
  .next (presentOne s (sylShr u d a b q) (.shr u d a b q))

/-- SAR presented by the bank that holds the current row (R67, R118). -/
def execSar (u : Twin) (d : SDst) (a : SReg) (b : SReg) (q : QReg) (s : State) : Host.Outcome State Fault Refusal :=
  .next (presentOne s (sylSar u d a b q) (.sar u d a b q))

/-- ROL presented by the bank that holds the current row (R67, R118). -/
def execRol (u : Twin) (d : SDst) (a : SReg) (b : SReg) (q : QReg) (s : State) : Host.Outcome State Fault Refusal :=
  .next (presentOne s (sylRol u d a b q) (.rol u d a b q))

/-- MIN presented by the bank that holds the current row (R67, R118). -/
def execMin (u : Twin) (d : SDst) (a : SReg) (b : SReg) (q : QReg) (s : State) : Host.Outcome State Fault Refusal :=
  .next (presentOne s (sylMin u d a b q) (.min u d a b q))

/-- MAX presented by the bank that holds the current row (R67, R118). -/
def execMax (u : Twin) (d : SDst) (a : SReg) (b : SReg) (q : QReg) (s : State) : Host.Outcome State Fault Refusal :=
  .next (presentOne s (sylMax u d a b q) (.max u d a b q))

/-- MINN presented by the bank that holds the current row (R67, R118). -/
def execMinn (u : Twin) (d : SDst) (a : SReg) (b : SReg) (q : QReg) (s : State) : Host.Outcome State Fault Refusal :=
  .next (presentOne s (sylMinn u d a b q) (.minn u d a b q))

/-- MAXN presented by the bank that holds the current row (R67, R118). -/
def execMaxn (u : Twin) (d : SDst) (a : SReg) (b : SReg) (q : QReg) (s : State) : Host.Outcome State Fault Refusal :=
  .next (presentOne s (sylMaxn u d a b q) (.maxn u d a b q))

/-- SLT presented by the bank that holds the current row (R67, R118). -/
def execSlt (u : Twin) (d : SDst) (a : SReg) (b : SReg) (q : QReg) (s : State) : Host.Outcome State Fault Refusal :=
  .next (presentOne s (sylSlt u d a b q) (.slt u d a b q))

/-- SLTN presented by the bank that holds the current row (R67, R118). -/
def execSltn (u : Twin) (d : SDst) (a : SReg) (b : SReg) (q : QReg) (s : State) : Host.Outcome State Fault Refusal :=
  .next (presentOne s (sylSltn u d a b q) (.sltn u d a b q))

/-- SEQ presented by the bank that holds the current row (R67, R118). -/
def execSeq (u : Twin) (d : SDst) (a : SReg) (b : SReg) (q : QReg) (s : State) : Host.Outcome State Fault Refusal :=
  .next (presentOne s (sylSeq u d a b q) (.seq u d a b q))

/-- SNE presented by the bank that holds the current row (R67, R118). -/
def execSne (u : Twin) (d : SDst) (a : SReg) (b : SReg) (q : QReg) (s : State) : Host.Outcome State Fault Refusal :=
  .next (presentOne s (sylSne u d a b q) (.sne u d a b q))

/-- SEL presented by the bank that holds the current row (R67, R122). -/
def execSel (u : Twin) (d : SDst) (a : SReg) (b : SReg) (q : QReg) (s : State) : Host.Outcome State Fault Refusal :=
  .next (presentOne s (sylSel u d a b q) (.sel u d a b q))

/-- CLZ presented by the bank that holds the current row (R67, R121). -/
def execClz (u : Twin) (d : SDst) (a : SReg) (q : QReg) (s : State) : Host.Outcome State Fault Refusal :=
  .next (presentOne s (sylClz u d a q) (.clz u d a q))

/-- CTZ presented by the bank that holds the current row (R67, R121). -/
def execCtz (u : Twin) (d : SDst) (a : SReg) (q : QReg) (s : State) : Host.Outcome State Fault Refusal :=
  .next (presentOne s (sylCtz u d a q) (.ctz u d a q))

/-- POPC presented by the bank that holds the current row (R67, R121). -/
def execPopc (u : Twin) (d : SDst) (a : SReg) (q : QReg) (s : State) : Host.Outcome State Fault Refusal :=
  .next (presentOne s (sylPopc u d a q) (.popc u d a q))

/-- SEXT presented by the bank that holds the current row (R67, R121). -/
def execSext (u : Twin) (d : SDst) (a : SReg) (q : QReg) (m : ExtW) (s : State) : Host.Outcome State Fault Refusal :=
  .next (presentOne s (sylSext u d a q m) (.sext u d a q m))

/-- ZEXT presented by the bank that holds the current row (R67, R121). -/
def execZext (u : Twin) (d : SDst) (a : SReg) (q : QReg) (m : ExtW) (s : State) : Host.Outcome State Fault Refusal :=
  .next (presentOne s (sylZext u d a q m) (.zext u d a q m))

/-- MFS presented by the bank that holds the current row (R67, R124). -/
def execMfs (u : Twin) (d : SDst) (c : CReg) (s : State) : Host.Outcome State Fault Refusal :=
  .next (presentOne s (sylMfs u d c) (.mfs u d c))

/-- CHK presented by the bank that holds the current row (R67, R125). -/
def execChk (u : Twin) (a : SReg) (b : SReg) (q : QReg) (m : ChkOp) (s : State) : Host.Outcome State Fault Refusal :=
  .next (presentOne s (sylChk u a b q m) (.chk u a b q m))

/-- ADDI presented by the bank that holds the current row (R67, R123). -/
def execAddi (u : Twin) (d : SDst) (a : SReg) (imm : BitVec 12) (s : State) : Host.Outcome State Fault Refusal :=
  .next (presentOne s (sylAddi u d a imm) (.addi u d a imm))

/-- ANDI presented by the bank that holds the current row (R67, R123). -/
def execAndi (u : Twin) (d : SDst) (a : SReg) (imm : BitVec 12) (s : State) : Host.Outcome State Fault Refusal :=
  .next (presentOne s (sylAndi u d a imm) (.andi u d a imm))

/-- ORI presented by the bank that holds the current row (R67, R123). -/
def execOri (u : Twin) (d : SDst) (a : SReg) (imm : BitVec 12) (s : State) : Host.Outcome State Fault Refusal :=
  .next (presentOne s (sylOri u d a imm) (.ori u d a imm))

/-- XORI presented by the bank that holds the current row (R67, R123). -/
def execXori (u : Twin) (d : SDst) (a : SReg) (imm : BitVec 12) (s : State) : Host.Outcome State Fault Refusal :=
  .next (presentOne s (sylXori u d a imm) (.xori u d a imm))

/-- SHLI presented by the bank that holds the current row (R67, R123). -/
def execShli (u : Twin) (d : SDst) (a : SReg) (n : Fin 64) (s : State) : Host.Outcome State Fault Refusal :=
  .next (presentOne s (sylShli u d a n) (.shli u d a n))

/-- SHRI presented by the bank that holds the current row (R67, R123). -/
def execShri (u : Twin) (d : SDst) (a : SReg) (n : Fin 64) (s : State) : Host.Outcome State Fault Refusal :=
  .next (presentOne s (sylShri u d a n) (.shri u d a n))

/-- SARI presented by the bank that holds the current row (R67, R123). -/
def execSari (u : Twin) (d : SDst) (a : SReg) (n : Fin 64) (s : State) : Host.Outcome State Fault Refusal :=
  .next (presentOne s (sylSari u d a n) (.sari u d a n))

/-- LI presented by the bank that holds the current row (R67, R123). -/
def execLi (u : Twin) (d : SDst) (imm : BitVec 17) (s : State) : Host.Outcome State Fault Refusal :=
  .next (presentOne s (sylLi u d imm) (.li u d imm))

/-- LUI presented by the bank that holds the current row (R67, R123). -/
def execLui (u : Twin) (d : SDst) (imm : BitVec 17) (s : State) : Host.Outcome State Fault Refusal :=
  .next (presentOne s (sylLui u d imm) (.lui u d imm))

end Sys2Proof.Machine
end

