-- ==== Sys2Proof/Machine/Control.lean ====
section
/-! DEFINITION. The sequencer and control instructions of KC (R90-R114), with segments and rendezvous (R112, R240, R245), hardware
barriers (R109, R298-R303) and permits (R111, R327): each one's syllable, and what exec does with it. -/

namespace Sys2Proof.Machine

/-! ## Sequencer arithmetic (R93, R94) -/

/-- A KC syllable that computes k[D] from k registers it reads, with latency 1 (R90). -/
def seqForm (d : KReg) (reads : List KReg) (f : Bank → Word) : Syl :=
  { unit := 7, reads := reads.map .k, writes := [.k d]
    effect := fun i s => s.flySeq i.row i.side 1 (.k d (f i.bank)) }

def sylKli (d : KReg) (imm : BitVec 17) : Syl := seqForm d [] fun _ => imm.signExtend 64
def sylKadd (d a b : KReg) : Syl := seqForm d [a, b] fun k => k.k[a] + k.k[b]
def sylKsub (d a b : KReg) : Syl := seqForm d [a, b] fun k => k.k[a] - k.k[b]
def sylKaddi (d a : KReg) (imm : BitVec 12) : Syl := seqForm d [a] fun k => k.k[a] + imm12 imm
def sylKand (d a b : KReg) : Syl := seqForm d [a, b] fun k => k.k[a] &&& k.k[b]
def sylKor (d a b : KReg) : Syl := seqForm d [a, b] fun k => k.k[a] ||| k.k[b]
def sylKshl (d a b : KReg) : Syl := seqForm d [a, b] fun k => k.k[a] <<< shiftCount k.k[b]
def sylKshr (d a b : KReg) : Syl := seqForm d [a, b] fun k => k.k[a] >>> shiftCount k.k[b]

def sylKget (d : KReg) (c : CReg) : Syl := { seqForm d [] (·.creg c) with reads := cregLocs c }

/-- What a write of %nflags or %chk lands as; the register of any other code is not written (R94). -/
def flagWrite (c : CReg) (x : Word) : Option SeqDest :=
  match c with
  | .nflags => some (.nflags (x.setWidth 6))
  | .chk | .chkAlias => some (.chk (x.getLsbD 0))
  | _ => none

def sylKset (a : KReg) (c : CReg) : Syl :=
  { unit := 7, reads := [.k a], writes := cregLocs c
    effect := fun i s =>
      match flagWrite c i.bank.k[a] with
      | some d => s.flySeq i.row i.side 1 d
      | none => s }

/-! ## kvote (R95, R96) -/

/-- What the voters' values come to. -/
def voteValue (m : VoteOp) (xs : List Word) : Word :=
  match m with
  | .any => wordOfBool (xs.any (· != 0))
  | .all => wordOfBool (xs.all (· != 0))
  | .sum => xs.foldl (· + ·) 0
  | .max => xs.foldl (fun m x => if m.slt x then x else m) 0x8000000000000000

def sylKvote (d : KReg) (a : SReg) (q : QReg) (m : VoteOp) : Syl :=
  { unit := 7, a := .s a, reads := readQ q, writes := [.k d]
    effect := fun i s =>
      let xs := allCores.filterMap fun c => if (i.rd c).on q then some (i.rd c).a else none
      s.modBank i.row i.side fun b =>
        { b with votes := b.votes ++ [⟨i.cycle + 2 + 63 * b.info.skew.val, d, voteValue m xs⟩] } }

/-! ## Branches, calls and returns (R97, R98, R102) -/

/-- LOOP_BRANCH: a branch, call or return while a loop is running (R102).
(DEDUCED: log entry 50.) -/
def checkLoopBranch (i : Issue) : Verdict := checkRow .loopBranch (!i.bank.frames.isEmpty)

/-- The bank goes on at a target. -/
def State.goTo (s : State) (n : Nat) (x : Side) (pc : BitVec 15) : State := s.modBank n x fun b => { b with pc := pc }

/-- A branch: taken, the target starts the next bundle. -/
def branchForm (reads : List KReg) (target : Issue → BitVec 15) (taken : Bank → Bool) : Syl :=
  { unit := 7, reads := reads.map .k
    check := checkLoopBranch
    effect := fun i s => if taken i.bank then s.goTo i.row i.side (target i) else s }

/-- An offset is relative to the first syllable of the branch's bundle, modulo 32,768. -/
def offsetTarget (off : BitVec 12) (i : Issue) : BitVec 15 := i.pc + off.signExtend 15

def sylBr (t : BitVec 15) : Syl := branchForm [] (fun _ => t) fun _ => true
def sylBz (c : KReg) (t : BitVec 15) : Syl := branchForm [c] (fun _ => t) fun b => b.k[c] == 0
def sylBnz (c : KReg) (t : BitVec 15) : Syl := branchForm [c] (fun _ => t) fun b => b.k[c] != 0
def sylBeq (d a : KReg) (off : BitVec 12) : Syl := branchForm [d, a] (offsetTarget off) fun b => b.k[d] == b.k[a]
def sylBne (d a : KReg) (off : BitVec 12) : Syl := branchForm [d, a] (offsetTarget off) fun b => b.k[d] != b.k[a]
def sylBlt (d a : KReg) (off : BitVec 12) : Syl := branchForm [d, a] (offsetTarget off) fun b => b.k[d].slt b.k[a]
def sylBge (d a : KReg) (off : BitVec 12) : Syl := branchForm [d, a] (offsetTarget off) fun b => !b.k[d].slt b.k[a]

def sylCall (t : BitVec 15) : Syl :=
  { unit := 7
    check := fun i => Verdict.seq [fun _ => checkLoopBranch i, fun _ => checkRow .callOver (decide (4 ≤ i.bank.calls.length))]
    effect := fun i s => s.modBank i.row i.side fun b => { b with calls := i.next :: b.calls, pc := t } }
def sylRet : Syl :=
  { unit := 7
    check := fun i => Verdict.seq [fun _ => checkLoopBranch i, fun _ => checkRow .callUnder i.bank.calls.isEmpty]
    effect := fun i s => s.modBank i.row i.side fun b => { b with calls := b.calls.tail, pc := b.calls.head?.getD b.pc } }

/-! ## The instruction store (R63, R288) -/

/-- The syllable a bank reaches at an index. -/
def State.syllableAt (s : State) (n : Nat) (x : Side) (index : Nat) : BitVec 32 :=
  let r := s.row n
  Sparse.get r.istore 0 (((r.bank x).info.codeBase + index) % 32768)

/-- The syllables of the bundle at an index: up to the first whose E bit is 1, `fuel` of them at most. -/
def State.bundleFrom (s : State) (n : Nat) (x : Side) : Nat → Nat → List (BitVec 32)
  | 0, _ => []
  | fuel + 1, index =>
    let w := s.syllableAt n x index
    if w.getLsbD 31 then [w] else w :: s.bundleFrom n x fuel (index + 1)

/-- Whether eight syllables were read and none ends the bundle (R64). -/
def bundleLong (ws : List (BitVec 32)) : Bool := !(ws.any (·.getLsbD 31))

/-- The pc after `k` bundles are scanned for their E bits only, and how many were; a bundle with no E bit in eight syllables stops the scan
at itself (R100). -/
def State.scan (s : State) (n : Nat) (x : Side) : Nat → BitVec 15 → BitVec 15 × Nat
  | 0, pc => (pc, 0)
  | k + 1, pc =>
    let ws := s.bundleFrom n x 8 pc.toNat
    if bundleLong ws then (pc, 0)
    else
      let r := s.scan n x k (pc + BitVec.ofNat 15 ws.length)
      (r.1, r.2 + 1)

/-! ## Loops (R99-R105) -/

/-- LOOP_NEST: the body would reach past the last bundle of the enclosing body. -/
def loopUnnested (b : Bank) (len : Nat) : Bool :=
  match b.frames with
  | f :: _ => f.len ≤ f.pos + len
  | [] => false

/-- The checks of a loop, in their order (R102). -/
def checkLoop (i : Issue) (count len : Nat) : Verdict :=
  Verdict.seq [
    fun _ => checkRow .loopCount (decide (65535 < count)),
    fun _ => checkRow .loopNest (loopUnnested i.bank len),
    fun _ => checkRow .loopDepth (count != 0 && decide (6 ≤ i.bank.frames.length))]

/-- A loop starts: its frame is innermost, and it binds every active entry not yet bound (R101, R104). -/
def Bank.startLoop (b : Bank) (count len : Nat) (start : BitVec 15) : Bank :=
  { b with frames := ⟨count, 0, len, 0, start, []⟩ :: b.frames
           steps := mapSteps b.steps fun e => if e.fields.active && e.bound.isNone then { e with bound := some b.frames.length } else e }

/-- The innermost loop's position moves on by bundles its body still has, with no loop-back and no end. -/
def skipWithin (inc : Nat) : List Frame → List Frame
  | [] => []
  | f :: fs => { f with pos := f.pos + inc } :: fs

/-- A body is skipped up to where its scan came: all `len` bundles count once in the enclosing bodies (R100, R104); where the scan stopped
short, at a bundle too long, only those before it have gone by.
(DEDUCED: log entry 106.) -/
def Bank.skipBody (b : Bank) (len : Nat) (scan : BitVec 15 × Nat) : Bank :=
  let r := if scan.2 = len then loopAdvance len b.frames scan.1 else (skipWithin scan.2 b.frames, scan.1)
  { b with frames := r.1, pc := r.2, steps := mapSteps b.steps (unbind r.1.length) }

def loopForm (reads : List Loc) (count : Bank → Nat) (len : Nat) : Syl :=
  { unit := 7, reads := reads
    check := fun i => checkLoop i (count i.bank) len
    effect := fun i s =>
      let k := count i.bank
      if k = 0 then s.modBank i.row i.side fun b => b.skipBody len (s.scan i.row i.side len i.next)
      else s.modBank i.row i.side fun b => b.startLoop k len i.next }

def sylLoop (c : KReg) (l : Fin 64) : Syl := loopForm [.k c] (fun b => b.k[c].toNat) (l.val + 1)
def sylLoopImmediate (n : BitVec 16) (l : Fin 64) : Syl := loopForm [] (fun _ => n.toNat) (l.val + 1)

/-- The innermost loop ends after this bundle; the next bundle follows its body (R105). Where the scan for it stopped short, at a bundle too
long, that bundle comes next, and the loops around are at it. -/
def Bank.breakLoop (b : Bank) (before : List Frame) (rest : Nat) (after : BitVec 15 × Nat) : Bank :=
  match before with
  | [] => b
  | f :: fs =>
    let r := if after.2 = rest then loopAdvance f.len fs after.1 else (skipWithin (f.pos + 1 + after.2) fs, after.1)
    { b with frames := r.1, pc := r.2, steps := mapSteps b.steps (unbind r.1.length) }

def breakForm (reads : List Loc) (taken : Bank → Bool) : Syl :=
  { unit := 7, reads := reads
    check := fun i => checkRow .loopNone i.bank.frames.isEmpty
    effect := fun i s =>
      if taken i.bank then
        let rest := match i.bank.frames with
          | f :: _ => f.len - f.pos - 1
          | [] => 0
        let after := s.scan i.row i.side rest i.next
        s.modBank i.row i.side fun b => { b with steps := i.bank.steps }.breakLoop i.bank.frames rest after
      else s }

def sylLbreak (c : KReg) : Syl := breakForm [.k c] fun b => b.k[c] != 0
def sylLbreakUnconditional : Syl := breakForm [] fun _ => true

def sylLstep (n : Fin 8) (e : StepFields) : Syl :=
  { unit := 7, writes := [.step n]
    check := fun i => checkRow .stepBusy (i.bank.steps[n]).bound.isSome
    effect := fun i s => s.modBank i.row i.side fun b => { b with steps := b.steps.set n.val ⟨e, none⟩ } }

/-! ## nop, format, waits, fences (R44, R79, R107, R108, R110) -/

def sylNop (n : Fin 65) : Syl :=
  { unit := 7, effect := fun i s => s.modBank i.row i.side fun b => { b with nopLeft := n.val } }

def sylSfmt (a : KReg) : Syl :=
  { unit := 7, reads := [.k a], writes := [.fmt]
    effect := fun i s => s.modBank i.row i.side fun b =>
      { b with fmtNext := b.fmtNext ++ [(i.cycle + 4, i.bank.k[a].setWidth 32)] } }

/-- A wait is reported the errors of its engine's operations that its count covers (R208). -/
def reportsEngine (d : TlReg) (a : KReg) (b : Bank) (e : Posted) : Bool := e.engine.any fun p => p.1 == d && p.2 ≤ b.k[a].toNat

def sylWait (d : TlReg) (a : KReg) : Syl :=
  { unit := 7, reads := [.k a], reports := reportsEngine d a
    check := fun i =>
      let k := i.bank.k[a].toNat
      Verdict.seq [
        fun _ => checkRow .waitAhead (decide (i.bank.numbers[d] < k)),
        fun _ => if allCores.any (fun c => (i.rd c).cb.tl[d].toNat < k) then .freeze .timeline (d.val == 4) id else .clear] }

/-- The freeze of a fence of a scope (R110).
(DEDUCED: log entry 48.) -/
def checkFence (i : Issue) (sc : Scope) : Verdict :=
  if i.s.fenceClear i.row i.side sc then .clear else .freeze .drain false id

def sylFence (sc : Scope) : Syl := { unit := 7, reports := reportsAll, check := fun i => checkFence i sc }

/-! ## Barriers (R109, R298-R303) -/

/-- The banks that hold a block of a launch. -/
def State.launchBanks (s : State) (id : Nat) : List (Nat × Side) :=
  s.rows.flatMap fun r => [Side.a, Side.b].filterMap fun x =>
    let b := r.2.bank x
    if b.phase != .empty && b.armed.isNone && b.info.launch == id then some (r.1, x) else none

/-- The banks that blocks of a launch have armed (R237). -/
def State.armedBanks (s : State) (id : Nat) : List (Nat × Side) :=
  s.rows.flatMap fun r => [Side.a, Side.b].filterMap fun x =>
    let b := r.2.bank x
    if b.phase != .empty && b.armed.isSome && b.info.launch == id then some (r.1, x) else none

/-- Every bank that a launch occupies (R334). -/
def State.heldBanks (s : State) (id : Nat) : List (Nat × Side) := s.launchBanks id ++ s.armedBanks id

def State.launchOf (s : State) (id : Nat) : Option Launch := s.launches.find? (·.id == id)
def State.modLaunch (s : State) (id : Nat) (f : Launch → Launch) : State :=
  { s with launches := s.launches.map fun l => if l.id = id then f l else l }

/-- Whether a row is excused on a barrier id (R298, R300). -/
def State.excused (s : State) (row id : Nat) : Bool :=
  (Sparse.get (s.regions[regionOf row]).masks 0 (id * 10 + dieOf row % 10)).getLsbD (row % 64)

/-- Whether a row lies in the extent of a scope around another. -/
def inExtent (sc : Scope) (row other : Nat) : Bool :=
  match sc with
  | .die => other / 64 == row / 64
  | .region => other / 640 == row / 640
  | _ => true

/-- A bank's bar on an id is released: every row of its launch in the extent that is not excused has arrived as often (R299). A row that
is itself excused receives no release (R263). -/
def State.barReleased (s : State) (n : Nat) (x : Side) (id : Fin 16) (sc : Scope) : Bool :=
  let b := s.bank n x
  let k := b.arrivals[id]
  let counts (row : Nat) : Bool := inExtent sc n row && !s.excused row id.val
  !s.excused n id.val && ((s.launchBanks b.info.launch).all fun p => !counts p.1 || k ≤ (s.bank p.1 p.2).arrivals[id])
  && (((s.launchOf b.info.launch).map (·.left)).getD []).all fun p => !counts p.1 || k ≤ p.2[id]

/-- A bank is let go on. -/
def State.letGo (s : State) (n : Nat) (x : Side) : State := s.modBank n x fun b => { b with go := true }

/-- The counts that cohorts have released, by completion record and barrier id (R306, WAIT kind 3). -/
def noteCount (record id k : Nat) (l : List (Nat × Nat × Nat)) : List (Nat × Nat × Nat) :=
  if l.any (fun p => p.1 == record && p.2.1 == id) then
    l.map fun p => if p.1 = record ∧ p.2.1 = id then (record, id, max p.2.2 k) else p
  else l ++ [(record, id, k)]
def State.noteRelease (s : State) (launch id k : Nat) : State :=
  match s.launchOf launch with
  | some l => { s with released := noteCount l.completion id k s.released }
  | none => s

/-- A bank waiting at a bar is released when its count is due.
(DEDUCED: log entry 49.) -/
def State.releaseBar (s : State) (n : Nat) (x : Side) (id : Fin 16) (sc : Scope) : State :=
  if s.barReleased n x id sc then
    let b := s.bank n x
    (s.noteRelease b.info.launch id.val b.arrivals[id]).letGo n x
  else s

/-- The bank arrives at a bar (R299). -/
def State.arriveBar (s : State) (n : Nat) (x : Side) (id : Fin 16) (sc : Scope) : State :=
  s.modBank n x fun b => { b with atBar := some (b.pc, id, sc), arrivals := b.arrivals.set id.val (b.arrivals[id] + 1) }

/-- bar: at quad and row scope a fence; wider, a fence, an arrival, and a wait for the release. A row excused on the id contributes no
arrival while it is (R263). -/
def sylBar (id : Fin 16) (sc : Scope) : Syl :=
  { unit := 7, reports := reportsAll
    check := fun i =>
      if scopeRank sc ≤ 3 then checkFence i sc
      else
        let b := i.bank
        let arrived := b.atBar == some (b.pc, id, sc)
        Verdict.seq [
          fun _ => checkRow .barFree (!b.info.cohort || !b.info.barriers.getLsbD id.val),
          fun _ => if arrived then .clear else checkFence i sc,
          fun _ => if !arrived then
              (if i.s.excused i.row id.val then .freeze .barrier false (fun s => s) else .ask .barrier fun s => s.arriveBar i.row i.side id sc)
            else if b.go then .clear
            else .freeze .barrier false fun s => s.releaseBar i.row i.side id sc]
    effect := fun i s => s.modBank i.row i.side fun b => { b with atBar := none } }

/-! ## Permits (R111, R326, R327) -/

/-- The first permit window that starts at or after a time (R327). -/
def nextWindow (t : Nat) : Nat := (t + 199) / 200 * 200

/-- A governor is to hold its next window, unless one is awaited already. -/
def State.askWindow (s : State) (g : RegionId) (t : Nat) : State :=
  if s.agenda.any fun a => a.2 == .permitWindow g then s else s.schedule t (.permitWindow g)

/-- A bank's request reaches the governor of its region. -/
def State.askPermit (s : State) (n : Nat) (x : Side) (c : Fin 8) : State :=
  let s := s.modBank n x fun b => { b with permit := .waiting c s.time, asking := some .permit }
  let s := s.modRegion (regionOf n) fun g => { g with requests := g.requests ++ [⟨n, x, c, s.time⟩] }
  s.askWindow (regionOf n) (nextWindow s.time)

/-- Whether a bank holds a permit. -/
def Bank.holdsPermit (b : Bank) : Bool :=
  match b.permit with
  | .held _ => true
  | _ => false

def sylLeaveReq (c : Fin 8) : Syl :=
  { unit := 7, irrevocable := true
    check := fun i =>
      let b := i.bank
      if b.asking = some .permit then (if b.holdsPermit then .clear else .freeze .permit false id)
      else Verdict.seq [
        fun _ => checkRow .permitHeld b.holdsPermit,
        fun _ => .ask .permit fun s => s.askPermit i.row i.side c] }
def sylLeaveRet : Syl :=
  { unit := 7, irrevocable := true
    check := fun i => checkRow .permitNone (!i.bank.holdsPermit)
    effect := fun i s => s.modBank i.row i.side fun b => { b with permit := .none } }

/-! ## Segments and rendezvous (R112, R235, R240, R245, R303) -/

/-- A segment end waits until what the bank has in flight has landed, its queues are empty but for the bundle's own pops, and its buffers
are committed (R240). -/
def checkDrain (i : Issue) : Verdict :=
  if i.s.segmentEnded i.row i.side (i.popS + i.popV) then .clear
  else .freeze .drain false fun s => s.endCycle i.row i.side (i.popS + i.popV)

/-- seg: in a trap handler it is a trap in a handler (R235).
(DEDUCED: log entry 52.) -/
def sylSeg : Syl :=
  { unit := 7, ends := true
    check := fun i => Verdict.seq [fun _ => checkRow .doubleTrap i.bank.handler, fun _ => checkDrain i]
    effect := fun i s => s.takeCheckpoint i.row i.side }

/-- The scope of a rendezvous: the narrowest of die, region and panel that holds every row of the launch (R254). -/
def State.launchScope (s : State) (id n : Nat) : Scope :=
  let rows := (s.launchBanks id).map (·.1)
  if rows.all (inExtent .die n) then .die else if rows.all (inExtent .region n) then .region else .panel

/-- Whether a row is excused from a launch's rendezvous: it is excused on a claimed id (R303). -/
def State.rdvExcused (s : State) (l : Launch) (row : Nat) : Bool :=
  (List.finRange 16).any fun id => l.barriers.getLsbD id.val && s.excused row id.val

/-- The open rendezvous of a launch releases when every row not excused has arrived (R303). -/
def State.releaseRendezvous (s : State) (id : Nat) : State :=
  match s.launchOf id with
  | some l =>
    match l.rendezvous with
    | some (_, arrived) =>
      let banks := s.launchBanks id
      if banks.all fun p => arrived.contains p.1 || s.rdvExcused l p.1 then
        (banks.filter fun p => arrived.contains p.1).foldl (fun s p => s.letGo p.1 p.2) (s.modLaunch id fun l => { l with rendezvous := none })
      else s
    | none => s
  | none => s

/-- A row arrives at its launch's rendezvous. -/
def State.arriveRendezvous (s : State) (n : Nat) (x : Side) (id : Byte) : State :=
  (s.modLaunch (s.bank n x).info.launch fun l =>
    { l with rendezvous := some (id, ((l.rendezvous.map (·.2)).getD []) ++ [n]) }).modBank n x fun b => { b with asking := some .rendezvous }

/-- Whether the open rendezvous of a launch has another id. -/
def State.rdvMismatch (s : State) (launch : Nat) (id : Byte) : Bool :=
  (((s.launchOf launch).bind (·.rendezvous)).map fun p => p.1 != id).getD false

/-- rdv in a cohort: drain, commit, publish, arrive, wait, checkpoint; in a free launch it is seg (R245). -/
def sylRdv (id : BitVec 8) : Syl :=
  { unit := 7, ends := true
    check := fun i =>
      let b := i.bank
      let n := i.row
      let x := i.side
      let arrived := b.asking == some .rendezvous
      Verdict.seq [
        fun _ => checkRow .doubleTrap b.handler,
        fun _ => if arrived then .clear else checkDrain i,
        fun _ =>
          if !b.info.cohort || b.go then .clear
          else if arrived then .freeze .barrier false fun s => s.releaseRendezvous b.info.launch
          else Verdict.seq [
            fun _ => checkFence i (i.s.launchScope b.info.launch n),
            fun _ => checkRow .rdvMismatch (i.s.rdvMismatch b.info.launch id),
            fun _ => .ask .barrier fun s => s.arriveRendezvous n x id]]
    effect := fun i s => s.takeCheckpoint i.row i.side }

/-! ## Trap and halt (R113, R114) -/

def sylTrap (code : BitVec 16) : Syl :=
  { unit := 7, check := fun _ => .trap { TrapInfo.row .swTrap with code := code } }

/-- halt: the bank issues nothing more; every running loop ends, segmented mode ends with the buffer's stores issued, a held permit is
returned (R114, R240). -/
def sylHalt : Syl :=
  { unit := 7, ends := true, reports := reportsAll
    effect := fun i s => (s.submitBuffered i.row i.side).modBank i.row i.side fun b =>
      { b with phase := .halted, frames := [], steps := mapSteps b.steps (unbind 0), permit := .none, segment := none } }

/-! ## What exec does with each of them: its bank presents the bundle of that one syllable -/

/-- NOP presented by the bank that holds the current row (R67, R79). -/
def execNop (n : Fin 65) (s : State) : Host.Outcome State Fault Refusal :=
  .next (presentOne s (sylNop n) (.nop n))

/-- KLI presented by the bank that holds the current row (R67, R93). -/
def execKli (d : KReg) (imm : BitVec 17) (s : State) : Host.Outcome State Fault Refusal :=
  .next (presentOne s (sylKli d imm) (.kli d imm))

/-- KADD presented by the bank that holds the current row (R67, R93). -/
def execKadd (d : KReg) (a : KReg) (b : KReg) (s : State) : Host.Outcome State Fault Refusal :=
  .next (presentOne s (sylKadd d a b) (.kadd d a b))

/-- KSUB presented by the bank that holds the current row (R67, R93). -/
def execKsub (d : KReg) (a : KReg) (b : KReg) (s : State) : Host.Outcome State Fault Refusal :=
  .next (presentOne s (sylKsub d a b) (.ksub d a b))

/-- KADDI presented by the bank that holds the current row (R67, R93). -/
def execKaddi (d : KReg) (a : KReg) (imm : BitVec 12) (s : State) : Host.Outcome State Fault Refusal :=
  .next (presentOne s (sylKaddi d a imm) (.kaddi d a imm))

/-- KAND presented by the bank that holds the current row (R67, R93). -/
def execKand (d : KReg) (a : KReg) (b : KReg) (s : State) : Host.Outcome State Fault Refusal :=
  .next (presentOne s (sylKand d a b) (.kand d a b))

/-- KOR presented by the bank that holds the current row (R67, R93). -/
def execKor (d : KReg) (a : KReg) (b : KReg) (s : State) : Host.Outcome State Fault Refusal :=
  .next (presentOne s (sylKor d a b) (.kor d a b))

/-- KSHL presented by the bank that holds the current row (R67, R93). -/
def execKshl (d : KReg) (a : KReg) (b : KReg) (s : State) : Host.Outcome State Fault Refusal :=
  .next (presentOne s (sylKshl d a b) (.kshl d a b))

/-- KSHR presented by the bank that holds the current row (R67, R93). -/
def execKshr (d : KReg) (a : KReg) (b : KReg) (s : State) : Host.Outcome State Fault Refusal :=
  .next (presentOne s (sylKshr d a b) (.kshr d a b))

/-- KGET presented by the bank that holds the current row (R67, R93). -/
def execKget (d : KReg) (c : CReg) (s : State) : Host.Outcome State Fault Refusal :=
  .next (presentOne s (sylKget d c) (.kget d c))

/-- KSET presented by the bank that holds the current row (R67, R94). -/
def execKset (a : KReg) (c : CReg) (s : State) : Host.Outcome State Fault Refusal :=
  .next (presentOne s (sylKset a c) (.kset a c))

/-- KVOTE presented by the bank that holds the current row (R67, R95). -/
def execKvote (d : KReg) (a : SReg) (q : QReg) (m : VoteOp) (s : State) : Host.Outcome State Fault Refusal :=
  .next (presentOne s (sylKvote d a q m) (.kvote d a q m))

/-- BR presented by the bank that holds the current row (R67, R97). -/
def execBr (t : BitVec 15) (s : State) : Host.Outcome State Fault Refusal :=
  .next (presentOne s (sylBr t) (.br t))

/-- BZ presented by the bank that holds the current row (R67, R97). -/
def execBz (c : KReg) (t : BitVec 15) (s : State) : Host.Outcome State Fault Refusal :=
  .next (presentOne s (sylBz c t) (.bz c t))

/-- BNZ presented by the bank that holds the current row (R67, R97). -/
def execBnz (c : KReg) (t : BitVec 15) (s : State) : Host.Outcome State Fault Refusal :=
  .next (presentOne s (sylBnz c t) (.bnz c t))

/-- BEQ presented by the bank that holds the current row (R67, R97). -/
def execBeq (d : KReg) (a : KReg) (off : BitVec 12) (s : State) : Host.Outcome State Fault Refusal :=
  .next (presentOne s (sylBeq d a off) (.beq d a off))

/-- BNE presented by the bank that holds the current row (R67, R97). -/
def execBne (d : KReg) (a : KReg) (off : BitVec 12) (s : State) : Host.Outcome State Fault Refusal :=
  .next (presentOne s (sylBne d a off) (.bne d a off))

/-- BLT presented by the bank that holds the current row (R67, R97). -/
def execBlt (d : KReg) (a : KReg) (off : BitVec 12) (s : State) : Host.Outcome State Fault Refusal :=
  .next (presentOne s (sylBlt d a off) (.blt d a off))

/-- BGE presented by the bank that holds the current row (R67, R97). -/
def execBge (d : KReg) (a : KReg) (off : BitVec 12) (s : State) : Host.Outcome State Fault Refusal :=
  .next (presentOne s (sylBge d a off) (.bge d a off))

/-- CALL presented by the bank that holds the current row (R67, R98). -/
def execCall (t : BitVec 15) (s : State) : Host.Outcome State Fault Refusal :=
  .next (presentOne s (sylCall t) (.call t))

/-- RET presented by the bank that holds the current row (R67, R98). -/
def execRet (s : State) : Host.Outcome State Fault Refusal :=
  .next (presentOne s (sylRet) (.ret))

/-- LOOP presented by the bank that holds the current row (R67, R99). -/
def execLoop (c : KReg) (l : Fin 64) (s : State) : Host.Outcome State Fault Refusal :=
  .next (presentOne s (sylLoop c l) (.loop c l))

/-- LOOP_IMMEDIATE presented by the bank that holds the current row (R67, R99). -/
def execLoopImmediate (n : BitVec 16) (l : Fin 64) (s : State) : Host.Outcome State Fault Refusal :=
  .next (presentOne s (sylLoopImmediate n l) (.loopImmediate n l))

/-- LBREAK presented by the bank that holds the current row (R67, R105). -/
def execLbreak (c : KReg) (s : State) : Host.Outcome State Fault Refusal :=
  .next (presentOne s (sylLbreak c) (.lbreak c))

/-- LBREAK_UNCONDITIONAL presented by the bank that holds the current row (R67, R105). -/
def execLbreakUnconditional (s : State) : Host.Outcome State Fault Refusal :=
  .next (presentOne s (sylLbreakUnconditional) (.lbreakUnconditional))

/-- SFMT presented by the bank that holds the current row (R67, R107). -/
def execSfmt (a : KReg) (s : State) : Host.Outcome State Fault Refusal :=
  .next (presentOne s (sylSfmt a) (.sfmt a))

/-- WAIT presented by the bank that holds the current row (R67, R108). -/
def execWait (d : TlReg) (a : KReg) (s : State) : Host.Outcome State Fault Refusal :=
  .next (presentOne s (sylWait d a) (.wait d a))

/-- BAR presented by the bank that holds the current row (R67, R109). -/
def execBar (id : Fin 16) (sc : Scope) (s : State) : Host.Outcome State Fault Refusal :=
  .next (presentOne s (sylBar id sc) (.bar id sc))

/-- FENCE presented by the bank that holds the current row (R67, R110). -/
def execFence (sc : Scope) (s : State) : Host.Outcome State Fault Refusal :=
  .next (presentOne s (sylFence sc) (.fence sc))

/-- LSTEP presented by the bank that holds the current row (R67, R103). -/
def execLstep (n : Fin 8) (e : StepFields) (s : State) : Host.Outcome State Fault Refusal :=
  .next (presentOne s (sylLstep n e) (.lstep n e))

/-- LEAVE_REQ presented by the bank that holds the current row (R67, R111). -/
def execLeaveReq (c : Fin 8) (s : State) : Host.Outcome State Fault Refusal :=
  .next (presentOne s (sylLeaveReq c) (.leaveReq c))

/-- LEAVE_RET presented by the bank that holds the current row (R67, R111). -/
def execLeaveRet (s : State) : Host.Outcome State Fault Refusal :=
  .next (presentOne s (sylLeaveRet) (.leaveRet))

/-- SEG presented by the bank that holds the current row (R67, R112). -/
def execSeg (s : State) : Host.Outcome State Fault Refusal :=
  .next (presentOne s (sylSeg) (.seg))

/-- RDV presented by the bank that holds the current row (R67, R245). -/
def execRdv (id : BitVec 8) (s : State) : Host.Outcome State Fault Refusal :=
  .next (presentOne s (sylRdv id) (.rdv id))

/-- TRAP presented by the bank that holds the current row (R67, R113). -/
def execTrap (code : BitVec 16) (s : State) : Host.Outcome State Fault Refusal :=
  .next (presentOne s (sylTrap code) (.trap code))

/-- HALT presented by the bank that holds the current row (R67, R114). -/
def execHalt (s : State) : Host.Outcome State Fault Refusal :=
  .next (presentOne s (sylHalt) (.halt))

end Sys2Proof.Machine
end

