-- ==== Sys2Proof/Machine/System.lean ====
section
/-! DEFINITION. The system group of KC: return from a trap, control registers, spawn and rerun, and control of the other bank
(R214-R218, R234, R237): each one's syllable, and what exec does with it. -/

namespace Sys2Proof.Machine

/-! ## Rights (R214) -/

def Bank.mayRegion (b : Bank) : Bool := b.sysperm.getLsbD 3
def Bank.mayBank (b : Bank) : Bool := b.sysperm.getLsbD 2
def Bank.mayLaunch (b : Bank) : Bool := b.sysperm.getLsbD 1
/-- mtcr and mfcr: in a trap handler, or with the cr right. -/
def Bank.mayControl (b : Bank) : Bool := b.handler || b.sysperm.getLsbD 0

/-! ## Return from a trap (R234) -/

/-- The bank resumes where the trapped bundle stood, or after it. -/
def tretForm (skip : Bool) : Syl :=
  { unit := 7, permitted := fun b => b.handler
    effect := fun i s => s.modBank i.row i.side (·.returnFromTrap skip) }
def sylTret : Syl := tretForm false
def sylTretSkip : Syl := tretForm true

/-! ## Control registers (R216, R218) -/

/-- The state of a bank as the other bank reads it in %bank (R218). -/
def Bank.seenState (b : Bank) : Nat :=
  match b.phase with
  | .empty => 0
  | .run => if b.armed.isSome then 5 else if b.frozen.isSome then 2 else 1
  | .dormant => 4
  | .halted => if b.armed.isSome then 5 else 6
  | .stopped .hold => 3
  | .stopped _ | .failed | .killed => 6

/-- %bank as a bank reads it. -/
def Row.bankWord (r : Row) (x : Side) : Word :=
  BitVec.ofNat 64 ((if x = .b then 1 else 0) + 2 * (r.bank (otherSide x)).seenState + (if (r.bank x).handler then 16 else 0))

/-- Whether a code names a register of the region (R216). -/
def CReg.ofRegion : CReg → Bool
  | .istep | .barsel | .barmask => true
  | _ => false

/-- What mfcr reads: %nflags is the OR over the row's cores. -/
def State.controlReg (s : State) (n : Nat) (x : Side) : CReg → Word
  | .nflags => (allCores.foldl (fun (m : Flags) c => m ||| ((s.row n).cb x c).nflags) 0).setWidth 64
  | .bank => (s.row n).bankWord x
  | .istep => (s.regions[regionOf n]).istep.setWidth 64
  | .barsel => (s.regions[regionOf n]).barsel.setWidth 64
  | .barmask => Sparse.get (s.regions[regionOf n]).masks 0 (maskKey (s.regions[regionOf n]).barsel)
  | .wgen => s.wgen
  | c => (s.bank n x).creg c

/-- What a write of a control register lands as; none for one marked read-only. Bits above a register's width are reserved, and a
write of them is ignored (R6). -/
def controlWrite (c : CReg) (v : Word) : Option SeqDest :=
  match c with
  | .nflags => some (.nflags (v.setWidth 6))
  | .chk | .chkAlias => some (.chk (v.getLsbD 0))
  | .trapvec => some (.trapvec (v.setWidth 16))
  | .istep => some (.istep (v.setWidth 16))
  | .barsel => some (.barsel (v.setWidth 8))
  | .barmask => some (.barmask v)
  | _ => none

/-- CR_VALUE: a %barsel with a die index above 9. -/
def crValueBad (c : CReg) (v : Word) : Bool := c == .barsel && 9 < v.toNat % 16

def sylMtcr (a : KReg) (c : CReg) : Syl :=
  { unit := 7, reads := [.k a], writes := cregLocs c
    permitted := fun b => b.mayControl && (!CReg.ofRegion c || b.mayRegion)
    check := fun i =>
      Verdict.seq [
        fun _ => checkRow .privRo (controlWrite c 0).isNone,
        fun _ => checkRow .crValue (crValueBad c i.bank.k[a])]
    effect := fun i s =>
      match controlWrite c i.bank.k[a] with
      | some d => s.flySeq i.row i.side 1 d
      | none => s }

def sylMfcr (d : KReg) (c : CReg) : Syl :=
  { unit := 7, reads := cregLocs c, writes := [.k d], permitted := Bank.mayControl
    effect := fun i s => s.flySeq i.row i.side 1 (.k d (i.s.controlReg i.row i.side c)) }

/-! ## spawn and rerun (R217) -/

/-- The access a request makes to the record at a flat address: 64-byte aligned, read.
(DEDUCED: log entry 59.) -/
def requestAcc (k : Word) (len : Nat) : Acc := { tensor := 0, coord := k, align := 64, len := len, read := true, write := false }

/-- The bank's request goes to the command processor of its region with the record's panel and physical address. -/
def State.request (s : State) (n : Nat) (x : Side) (isRerun : Bool) (a : Acc) : State :=
  let addr := match s.placeOf n x a with
    | .phys panel addr _ _ _ _ _ => farAddress s.panelId.toNat panel addr
    | .ls _ _ _ => 0
  (s.modBank n x fun b => { b with asking := some .answer, request := some (isRerun, addr) }).schedule s.time (.answerSpawn n x)

/-- A request: a fence panel, the checks of R176 on the record or header named, the request, and the answer into k[D]. What
is accepted may start once the bundle has issued (R67).
(DEDUCED: log entry 57. DEDUCED: log entry 103.) -/
def requestForm (d a : KReg) (isRerun : Bool) (len : Nat) : Syl :=
  { unit := 7, reads := [.k a], writes := [.k d], permitted := Bank.mayLaunch, reports := reportsAll
    check := fun i =>
      let acc := requestAcc i.bank.k[a] len
      if i.bank.answer.isSome then .clear
      else if i.bank.asking = some .answer then .freeze .drain false id
      else Verdict.seq [
        fun _ => checkFence i .panel,
        fun _ => checkReach i fun _ => [acc]]
    frames := fun i w =>
      let acc := requestAcc i.bank.k[a] len
      if i.bank.answer.isSome then .clear
      else Verdict.seq [
        fun _ => checkFrames i w fun _ => [acc],
        fun _ => if w then .clear else .ask .drain fun s => s.request i.row i.side isRerun acc]
    effect := fun i s => (s.flySeq i.row i.side 1 (.k d (i.bank.answer.getD 0))).schedule s.time (.spawnIssued i.row i.side) }

def sylSpawn (d a : KReg) : Syl := requestForm d a false 256
def sylRerun (d a : KReg) : Syl := requestForm d a true 64

/-! ## The other bank (R218, R237) -/

/-- A bank becomes empty: its block-start values, its tiles released (R25, R156); nothing is walked for it any more (R277). -/
def Row.clearBank (r : Row) (n : Nat) (x : Side) : Row :=
  let r := ((r.mapCores fun _ c => (c.releaseTiles x).mod x fun _ => CoreBank.reset).modBank x fun _ => Bank.reset n).setLine x []
  { r with walks := r.walks.filter (·.side != x), walked := r.walked.filter (·.1.side != x) }

/-- Whether a bank counts as empty for the draining of its row: empty, or its block's state lies in the siding (R310). -/
def Bank.away (b : Bank) : Bool :=
  b.phase == .empty || ((b.phase == .stopped .park || b.phase == .stopped .stabled) && !b.parked.isEmpty)

/-- A row both of whose banks count as empty drains: local stores, tiles, tile state and instruction store are wiped, and it belongs to
no world unless a parked reservation keeps one (R310). -/
def Row.drain (r : Row) : Row :=
  if r.a.away && r.b.away then
    { (r.mapCores fun _ c => { Core.reset with a := c.a, b := c.b }) with
        istore := []
        world := if r.a.phase == .empty && r.b.phase == .empty then none else r.world }
  else r

/-- The rows of a die are all drained (R310, R329). -/
def State.dieDrained (s : State) (d : Nat) : Bool :=
  (List.range 64).all fun i => let r := s.row (64 * d + i); r.a.away && r.b.away

/-- A die may be gated: it serves, and its rows are drained (R329). -/
def State.gateable (s : State) (d : Nat) : Bool := s.dieServes d && s.dieDrained d

/-- Dies come to be gated in answer to an event: the panel is stabled, or some bound of an event is not met yet (R329, R335). -/
def State.gatingOpen (s : State) : Bool := s.timing.stabled || !s.timing.unmet.isEmpty

/-- A die that may be gated joins those its governor is to gate (R329). -/
def State.queueGate (s : State) (d : Nat) : State :=
  let g : Fin 16 := regionOf (64 * d)
  if s.gateable d && !(s.regions[g]).gateList.contains d then
    (s.modRegion g fun r => { r with gateList := insertNat d r.gateList }).schedule s.time (.gateDies g)
  else s

/-- A row has come to be drained. -/
def State.noteDrained (s : State) (n : Nat) : State := if s.gatingOpen then s.queueGate (dieOf n) else s

/-- A bank becomes empty, and its row drains if it now can. -/
def State.emptyBank (s : State) (n : Nat) (x : Side) : State :=
  (s.modRow n fun r => (r.clearBank n x).drain).noteDrained n

/-- BANK_STATE for the states of the other bank that an operation does not allow. -/
def checkBankState (i : Issue) (bad : Nat → Bool) : Verdict :=
  checkRow .bankState (bad ((i.s.bank i.row (otherSide i.side)).seenState))

/-- A bank that counts as ready: it runs and is not frozen, or it is armed with a message waiting (R224). -/
def Row.ready (r : Row) (x : Side) : Bool :=
  let b := r.bank x
  (b.phase == .run && b.frozen.isNone) || (b.phase == .dormant && !r.arrivals.isEmpty)

def sylBankctlYield : Syl :=
  { unit := 7, permitted := Bank.mayBank
    effect := fun i s => s.modRow i.row fun r => { r with yielding := r.ready (otherSide i.side) } }

/-- hold: the other bank stops at once, for it stands at an issue-cycle boundary while this one issues; one the device has stopped already
is left so.
(DEDUCED: log entry 55.) -/
def sylBankctlHold : Syl :=
  { unit := 7, permitted := Bank.mayBank
    check := fun i =>
      if i.bank.asking = some .hold then .clear
      else Verdict.seq [
        fun _ => checkBankState i fun st => st == 0 || st == 4 || st == 3,
        fun _ => .ask .bankControl fun s =>
          let y := otherSide i.side
          let s := s.modBank i.row i.side fun b => { b with asking := some .hold }
          if (s.bank i.row y).phase = .run then s.stopBank i.row y .hold else s] }

def sylBankctlRelease : Syl :=
  { unit := 7, permitted := Bank.mayBank
    check := fun i => checkBankState i (· != 3)
    effect := fun i s => s.resumeBank i.row (otherSide i.side) }

/-- A bank armed by another: block-start values, the arming bank's ranks, window, check mode and dispatch data, no save area, no rights,
no trap entry (R237). It takes part in no barrier and records nothing.
(DEDUCED: log entry 56.) -/
def Bank.armedBy (b : Bank) (n : Nat) (x : Side) (entry : BitVec 15) : Bank :=
  { Bank.reset n with
      rankBlk := b.rankBlk, rankReg := b.rankReg, rankDie := b.rankDie, rankRow := b.rankRow
      lswin := b.lswin, chk := b.chk, tsave := 0xFFFFFFFF
      info := { b.info with cohort := false, barriers := 0, traced := false }
      phase := .dormant, armed := some entry, armer := some x }

def sylBankctlArm (a : KReg) : Syl :=
  { unit := 7, reads := [.k a], permitted := Bank.mayBank
    check := fun i => checkBankState i (· != 0)
    effect := fun i s => s.modRow i.row fun r =>
      let y := otherSide i.side
      (r.clearBank i.row y).modBank y fun _ => (r.bank i.side).armedBy i.row i.side (i.bank.k[a].setWidth 15) }

def sylBankctlDisarm : Syl :=
  { unit := 7, permitted := Bank.mayBank
    check := fun i =>
      let r := i.s.row i.row
      let y := otherSide i.side
      Verdict.seq [
        fun _ => checkBankState i fun st => st != 4 && st != 5,
        fun _ => if (r.bank y).phase == .dormant && r.arrivals.isEmpty then .clear else .freeze .bankControl false id]
    effect := fun i s => s.emptyBank i.row (otherSide i.side) }

/-! ## What exec does with each of them: its bank presents the bundle of that one syllable -/

/-- TRET presented by the bank that holds the current row (R67, R234). -/
def execTret (s : State) : Host.Outcome State Fault Refusal :=
  .next (presentOne s (sylTret) (.tret))

/-- TRET_SKIP presented by the bank that holds the current row (R67, R234). -/
def execTretSkip (s : State) : Host.Outcome State Fault Refusal :=
  .next (presentOne s (sylTretSkip) (.tretSkip))

/-- MTCR presented by the bank that holds the current row (R67, R216). -/
def execMtcr (a : KReg) (c : CReg) (s : State) : Host.Outcome State Fault Refusal :=
  .next (presentOne s (sylMtcr a c) (.mtcr a c))

/-- MFCR presented by the bank that holds the current row (R67, R216). -/
def execMfcr (d : KReg) (c : CReg) (s : State) : Host.Outcome State Fault Refusal :=
  .next (presentOne s (sylMfcr d c) (.mfcr d c))

/-- SPAWN presented by the bank that holds the current row (R67, R217). -/
def execSpawn (d : KReg) (a : KReg) (s : State) : Host.Outcome State Fault Refusal :=
  .next (presentOne s (sylSpawn d a) (.spawn d a))

/-- RERUN presented by the bank that holds the current row (R67, R217). -/
def execRerun (d : KReg) (a : KReg) (s : State) : Host.Outcome State Fault Refusal :=
  .next (presentOne s (sylRerun d a) (.rerun d a))

/-- BANKCTL_YIELD presented by the bank that holds the current row (R67, R218). -/
def execBankctlYield (s : State) : Host.Outcome State Fault Refusal :=
  .next (presentOne s (sylBankctlYield) (.bankctlYield))

/-- BANKCTL_HOLD presented by the bank that holds the current row (R67, R218). -/
def execBankctlHold (s : State) : Host.Outcome State Fault Refusal :=
  .next (presentOne s (sylBankctlHold) (.bankctlHold))

/-- BANKCTL_RELEASE presented by the bank that holds the current row (R67, R218). -/
def execBankctlRelease (s : State) : Host.Outcome State Fault Refusal :=
  .next (presentOne s (sylBankctlRelease) (.bankctlRelease))

/-- BANKCTL_ARM presented by the bank that holds the current row (R67, R237). -/
def execBankctlArm (a : KReg) (s : State) : Host.Outcome State Fault Refusal :=
  .next (presentOne s (sylBankctlArm a) (.bankctlArm a))

/-- BANKCTL_DISARM presented by the bank that holds the current row (R67, R218). -/
def execBankctlDisarm (s : State) : Host.Outcome State Fault Refusal :=
  .next (presentOne s (sylBankctlDisarm) (.bankctlDisarm))

end Sys2Proof.Machine
end

