-- ==== Sys2Proof/Machine/Launch.lean ====
section
/-! DEFINITION. Launches: kernel images, launch records, placement and block start, the measured loader, the end of a block and of a
launch, waybill headers and runs, and the answers to spawn (R287-R297, R300, R310, R311, R338-R343, R392). -/

namespace Sys2Proof.Machine

/-! ## Kernel images (R287) -/

def State.imgArgs (s : State) (image : Nat) : Nat := slice (s.physWord image).toNat 63 48
def State.imgReels (s : State) (image : Nat) : Nat := slice (s.physWord image).toNat 47 40
def State.imgTile (s : State) (image : Nat) : Nat := slice (s.physWord image).toNat 32 32
def State.imgFootprint (s : State) (image : Nat) : Nat := slice (s.physWord image).toNat 31 16
def State.imgCount (s : State) (image : Nat) : Nat := slice (s.physWord image).toNat 15 0
def State.imgTrap (s : State) (image : Nat) : BitVec 16 := (s.physWord (image + 8)).setWidth 16
def State.imgReel (s : State) (image : Nat) (r : Nat) : Word := s.physWord (image + 16 + 8 * r)
/-- The length in bytes of the local-store image, and of the whole image before its padding. -/
def State.imgLocal (s : State) (image : Nat) : Nat := s.imgFootprint image - 8192 * s.imgTile image
def State.imgLength (s : State) (image : Nat) : Nat := 192 + 4 * s.imgCount image + s.imgLocal image

/-! ## Launch records (R290, R291) -/

/-- Word i of a record; a spawned one may stand in a frame of another panel (R217, R253). -/
def State.recWord (s : State) (rec i : Nat) : Nat := (wordOfBytes (Memory.read s.mem (s.farKey rec + 8 * i) 8)).toNat
def State.recPerDie (s : State) (rec : Nat) : Nat := let p := slice (s.recWord rec 0) 15 8; if p = 0 then 64 else p
def State.recWindow (s : State) (rec : Nat) : Nat := let w := slice (s.recWord rec 0) 7 0; if w = 0 then 192 else w
def State.recBlocks (s : State) (rec : Nat) : Nat := slice (s.recWord rec 1) 63 32
def State.recRows (s : State) (rec : Nat) : Nat := slice (s.recWord rec 1) 31 16
def State.recCohort (s : State) (rec : Nat) : Bool := slice (s.recWord rec 0) 62 62 == 1
def State.recTraced (s : State) (rec : Nat) : Bool := slice (s.recWord rec 0) 61 61 == 1
def State.recImage (s : State) (rec : Nat) : Nat := slice (s.recWord rec 2) 51 0
def State.recTable (s : State) (rec : Nat) : Nat := slice (s.recWord rec 3) 51 0
def State.recTableLen (s : State) (rec : Nat) : Nat := slice (s.recWord rec 4) 31 0
def State.recCompletion (s : State) (rec : Nat) : Nat := slice (s.recWord rec 5) 51 0
def State.recWaybill (s : State) (rec : Nat) : Nat := slice (s.recWord rec 7) 51 0
def State.recArg (s : State) (rec n : Nat) : Nat := slice (s.recWord rec (8 + n)) 19 0

/-- Every byte of a run of addresses lies in the map: in one junction's HBM4, or in dies of the siding or the ranges behind the host dies,
which follow on one another, and none of those is withheld (R34). -/
def State.runMapped (s : State) (a len : Nat) : Bool :=
  let last := a + (len - 1)
  let joined : Bool := match rangeOf a, rangeOf last with
    | .hbm i, .hbm j => i == j
    | .siding _, .siding _ => true
    | .cxl _, k | .host, k => k != .unmapped
    | _, _ => false
  let withheld (b : Nat) : Bool := s.frameWithheld (b / 65536)
  joined && !withheld last && !(List.range (len / 0x8000000000 + 1)).any fun i => decide (a + 0x8000000000 * i ≤ last) && withheld (a + 0x8000000000 * i)

/-- An address that is unaligned, or from which on some of `len` bytes name no memory in the map (R34, R291). -/
def State.addressBad (s : State) (a len align : Nat) : Bool := a % align != 0 || !s.runMapped a len

/-- The same of an address that may lie on another panel (R217, R253).
(DEDUCED: log entry 123.) -/
def State.farBad (s : State) (a len align : Nat) : Bool := if a < 2 ^ 52 then s.addressBad a len align else a % align != 0

/-- A reserved bit of the record is set. -/
def State.recReserved (s : State) (rec : Nat) : Bool :=
  slice (s.recWord rec 0) 51 48 != 0 || slice (s.recWord rec 0) 39 32 != 0
  || [2, 3, 5, 7].any (fun i => slice (s.recWord rec i) 63 52 != 0)
  || slice (s.recWord rec 4) 63 32 != 0 || slice (s.recWord rec 6) 63 21 != 0
  || (List.range 16).any (fun n => slice (s.recWord rec (8 + n)) 63 20 != 0)
  || (List.range 8).any (fun n => s.recWord rec (24 + n) != 0)

/-- The placement argument and its step. -/
def State.recPlacement (s : State) (rec : Nat) : Option (Nat × Nat) :=
  if slice (s.recWord rec 6) 20 20 = 1 then some (slice (s.recWord rec 6) 19 16, slice (s.recWord rec 6) 15 0) else none

/-- A waybill area lies in HBM4 or the siding, in the map and 64-byte aligned (R338). -/
def State.waybillBad (s : State) (area blocks : Nat) : Bool := !inTierMap area || s.addressBad area (1088 * blocks) 64

/-- A record is malformed (R291, R338).
(DEDUCED: log entry 60.) -/
def State.recordBad (s : State) (rec : Nat) : Bool :=
  let image := s.recImage rec
  slice (s.recWord rec 0) 63 63 = 0 || s.recReserved rec
  || 64 < s.recPerDie rec || 192 < s.recWindow rec || s.recBlocks rec = 0 || s.recRows rec = 0 || 10240 < s.recRows rec
  || s.farBad rec 256 64
  || s.addressBad image (s.imgLength image) 64 || s.addressBad (s.recTable rec) (64 * s.recTableLen rec) 64
  || s.addressBad (s.recCompletion rec) 64 64
  || s.recWindow rec * 256 < s.imgFootprint image
  || s.imgCount image = 0 || 32768 < s.imgCount image
  || (!s.recCohort rec && slice (s.recWord rec 1) 15 0 != 0)
  || ((s.recPlacement rec).any fun p => !(s.imgArgs image).testBit p.1)
  || (List.range 16).any (fun n => (s.imgArgs image).testBit n &&
      (s.recTableLen rec ≤ s.recArg rec n || descBad (s.readDesc (s.recTable rec) (s.recArg rec n)) (s.recArg rec n == 0)))
  || (s.recTraced rec && s.waybillBad (s.recWaybill rec) (s.recBlocks rec))

/-- A launch made from a record. -/
def State.launchOfRecord (s : State) (rec id : Nat) (world : Byte) (sys : BitVec 4) (queue : Option (Nat × Nat)) (task : Option Word) :
    Launch where
  id := id
  record := rec
  cohort := s.recCohort rec
  traced := s.recTraced rec
  chk := slice (s.recWord rec 0) 60 60 == 1
  skew := ⟨slice (s.recWord rec 0) 59 56 % 16, Nat.mod_lt _ (by decide)⟩
  sysperm := BitVec.ofNat 4 (slice (s.recWord rec 0) 55 52) &&& sys
  world := world
  space := BitVec.ofNat 16 (slice (s.recWord rec 0) 31 16)
  perDie := s.recPerDie rec
  window := s.recWindow rec
  blocks := s.recBlocks rec
  maxRows := s.recRows rec
  barriers := BitVec.ofNat 16 (slice (s.recWord rec 1) 15 0)
  image := s.recImage rec
  tableBase := s.recTable rec
  tableLen := s.recTableLen rec
  completion := s.recCompletion rec
  placement := s.recPlacement rec
  waybill := s.recWaybill rec
  args := (List.range 16).map fun n => BitVec.ofNat 64 (s.recArg rec n)
  next := 0
  ended := 0
  failed := 0
  killed := 0
  firstFail := none
  rendezvous := none
  left := []
  queue := queue
  task := task
  killing := false
  digest := none
  refused := none
  rerun := none
  asker := none

/-- The world a record names. -/
def State.recWorld (s : State) (rec : Nat) : Byte := BitVec.ofNat 8 (slice (s.recWord rec 0) 47 40)

/-- The next launch id: one above the last, 1 after 0xFFFF_FFFF (R392). -/
def nextLaunchId (last : Nat) : Nat := if last = 0xFFFFFFFF then 1 else last + 1

/-! ## Waybill areas (R338-R343) -/

/-- The address of block b's header. -/
def headerAt (area b : Nat) : Nat := area + 1088 * b

/-- The header as the command processor writes it before the first block is placed (R338). -/
def startHeader (l : Launch) (b : Nat) : List Byte :=
  bytesOfNat 0 8 ++ bytesOfNat (l.record % 2 ^ 52) 8 ++ bytesOfNat b 4 ++ bytesOfNat l.blocks 4 ++ bytesOfNat l.id 4 ++ bytesOfNat 0 36

def State.writeHeaders (s : State) (l : Launch) : State :=
  if l.traced && l.rerun.isNone then
    (List.range l.blocks).foldl (fun s b => s.farWrite (headerAt l.waybill b) (startHeader l b)) s
  else s

/-- A run entry's bytes (R340). -/
def Run.bytes (r : Run) : List Byte :=
  bytesOfNat ((if r.write then 2 ^ 31 else 0) + r.tensor.toNat) 4 ++ bytesOfNat r.first.toNat 4 ++ bytesOfNat r.count.toNat 4 ++ bytesOfNat 0 4

/-- A block's runs, counts, state and launch id are written to its area as it ends (R343). -/
def State.writeRuns (s : State) (l : Launch) (blk : Nat) (runs : List Run) (untraced completed : Bool) : State :=
  let at0 := headerAt l.waybill blk
  let s := if untraced then s else runs.zipIdx.foldl (fun s r => s.farWrite (at0 + 64 + 16 * r.2) r.1.bytes) s
  let reads := if untraced then 0 else (runs.filter fun r => !r.write).length
  let writes := if untraced then 0 else (runs.filter (·.write)).length
  s.farWrite (at0 + 24) (bytesOfNat l.id 4 ++
    [BitVec.ofNat 8 ((if completed then 1 else 0) + (if untraced then 2 else 0)), BitVec.ofNat 8 reads, BitVec.ofNat 8 writes, 0])

/-! ## The measured loader (R311) -/

/-- The bytes of an image in memory. -/
def State.imgBytes (s : State) (image : Nat) : List Byte := s.physRead image (s.imgLength image)

/-- The key of a world's slot: its lowest granted one. -/
def State.worldKey (s : State) (world : Byte) : Option (BitVec 256) :=
  match s.worlds.find? (·.id == world) with
  | some w => ((List.finRange 64).find? fun k => w.slots.getLsbD k.val).bind fun k => s.slots[k].key
  | none => none

/-- Whether the loader authenticates an image for a world. -/
def State.imageLoads (s : State) (world : Byte) (image : Nat) : Bool :=
  world == 0 || (match s.worldKey world with
    | some k => Config.imageTagOk k (s.imgBytes image)
    | none => false)

/-- The syllables as the row receives them: decrypted in a confidential world. -/
def State.imgSyllables (s : State) (world : Byte) (image : Nat) : List (BitVec 32) :=
  let n := s.imgCount image
  let raw := s.physRead (image + 192) (4 * n)
  let bytes := match world == 0, s.worldKey world with
    | false, some k => gcmText (gcmKey k) (Config.imageIv (s.imgBytes image)) raw
    | _, _ => raw
  (List.range n).map fun i => BitVec.ofNat 32 (natOfBytes ((bytes.drop (4 * i)).take 4))

/-- A world's measurement is extended by an image (R311). -/
def State.extendWorld (s : State) (world : Byte) (digest : BitVec 512) : State :=
  { s with worlds := s.worlds.map fun w =>
      if w.id = world then { w with measurement := sha3 (bytesOfNat w.measurement.toNat 64 ++ bytesOfNat digest.toNat 64) } else w }

/-! ## Windows and code (R288, R289) -/

/-- Two runs of 256-byte units share one. -/
def overlaps (a n b m : Nat) : Bool := a < b + m && b < a + n

/-- The window base of a block of window size w in a bank. -/
def windowBase (x : Side) (w : Nat) : Nat :=
  match x with
  | .a => 0
  | .b => 192 - w

/-- The lowest code base for `len` syllables beside the other bank's image; none when the store cannot hold both. -/
def codeBaseBeside (len base other : Nat) : Option Nat :=
  if 32768 < len + other then none
  else if len ≤ base && base + other ≤ 32768 then some 0
  else some ((base + other) % 32768)

/-- The code base a block of a launch gets in a bank of a row; none when the bank is not usable for it (R288, R289, R294). -/
def State.usable (s : State) (l : Launch) (n : Nat) (x : Side) : Option Nat :=
  let r := s.row n
  let o := r.bank (otherSide x)
  let len := s.imgCount l.image
  let otherBase := o.lswin.toNat % 256
  let otherSize := o.lswin.toNat / 256 % 256
  if r.retired || (r.bank x).phase != .empty || !(r.world.all (· == l.world)) then none
  else if l.cohort && o.phase != .empty && o.armed.isNone && o.info.launch == l.id then none
  else if o.phase = .empty then some 0
  else if overlaps (windowBase x l.window) l.window otherBase otherSize then none
  else if o.info.image = l.image && o.info.digest = l.digest then some o.info.codeBase
  else codeBaseBeside len o.info.codeBase o.info.codeLen

/-- The rows that belong to a world. -/
def State.worldRows (s : State) (world : Byte) : Nat := (s.rows.filter fun r => r.2.world == some world).length
def State.allowance (s : State) (world : Byte) : Nat := ((s.worlds.find? (·.id == world)).map (·.rows)).getD 0

/-- A usable bank of a row: A if usable, else B; a row of no world counts against the world's allowance (R294, R310). -/
def State.usableRow (s : State) (l : Launch) (n : Nat) : Option (Side × Nat) :=
  if (s.row n).world.isNone && s.allowance l.world ≤ s.worldRows l.world then none
  else
    match s.usable l n .a with
    | some c => some (.a, c)
    | none => (s.usable l n .b).map fun c => (.b, c)

/-- The blocks of a launch that a die holds. -/
def State.launchOnDie (s : State) (id d : Nat) : Nat := ((s.launchBanks id).filter fun p => dieOf p.1 == d).length

/-- The lowest usable row of a die, with its bank and code base. -/
def State.usableDie (s : State) (l : Launch) (d : Nat) : Option (Nat × Side × Nat) :=
  if !s.dieServes d || l.perDie ≤ s.launchOnDie l.id d then none
  else (List.range 64).findSome? fun i => (s.usableRow l (64 * d + i)).map fun p => (64 * d + i, p)

/-! ## Placement (R293, R294) -/

/-- Dies ordered by site distance to a junction, ties to the lowest number. -/
def byDistance (j : Nat) (dies : List Nat) : List Nat :=
  (List.range 36).flatMap fun k => dies.filter fun d => siteDistance (siteOf false d) (siteOf true j) == k

/-- The dies a block tries, in order. -/
def State.candidates (s : State) (l : Launch) (blk : Nat) : List Nat :=
  match l.placement with
  | none => List.range 160
  | some (n, step) =>
    let d := s.readDesc l.tableBase ((l.args[n]?).getD 0).toNat
    let e := s.physWord (descBase d + 8 * (blk * step % descCount d))
    if tePanel e != s.panelId.toNat then List.range 160
    else
      let j := teHome e
      diesOfJunction j ++ byDistance j ((List.range 10).map (10 * (j / 10) + ·)) ++ byDistance j (List.range 160)

/-- The place a block gets. -/
def State.findPlace (s : State) (l : Launch) (blk : Nat) : Option (Nat × Side × Nat) := (s.candidates l blk).findSome? (s.usableDie l)

/-! ## Block start (R289, R292) -/

/-- The tile save area of a window of size w (R289).
(DESIGN CHOICE: log entry 119.) -/
def tsaveOf (tile w : Nat) : BitVec 32 := if tile = 1 then BitVec.ofNat 32 (1024 * (w / 4) - 8192) else 0xFFFFFFFF

/-- The bank of a block at its start, at syllable 0 of its image.
(DEDUCED: log entry 6.) -/
def State.startBank (s : State) (l : Launch) (blk n : Nat) (x : Side) (codeBase : Nat) : Bank :=
  { Bank.reset n with
      chk := l.chk
      lswin := BitVec.ofNat 32 (windowBase x l.window + 256 * l.window)
      tsave := tsaveOf (s.imgTile l.image) l.window
      rankBlk := BitVec.ofNat 32 blk
      sysperm := l.sysperm
      trapvec := s.imgTrap l.image
      phase := .run
      info := { launch := l.id, blk := BitVec.ofNat 32 blk, world := l.world, space := l.space, tableBase := l.tableBase
                tableLen := l.tableLen, skew := l.skew, codeBase := codeBase, codeLen := s.imgCount l.image, image := l.image
                digest := l.digest, cohort := l.cohort, barriers := l.barriers, traced := l.traced } }

/-- The bytes of a window at block start: zeros, the local-store image at 0, each declared argument's tensor id over it. -/
def State.startWindow (s : State) (l : Launch) : List Byte :=
  let image := s.physRead (l.image + 192 + 4 * s.imgCount l.image) (s.imgLocal l.image)
  let arg (n : Nat) : List Byte := bytesOfWord ((l.args[n]?).getD 0)
  let declared (n : Nat) : Bool := (s.imgArgs l.image).testBit n
  (List.range (256 * l.window)).map fun i =>
    if i < 128 && declared (i / 8) then ((arg (i / 8))[i % 8]?).getD 0 else (image[i]?).getD 0

/-- A core's part of a bank at block start: the declared reels (R87, R292). -/
def State.startCore (s : State) (l : Launch) : CoreBank :=
  { CoreBank.reset with reel := tableOfFn fun r : Fin 8 => if (s.imgReels l.image).testBit r.val then s.imgReel l.image r.val else 0 }

/-- Syllables are loaded into a row's store. -/
def loadCode (store : Sparse (BitVec 32)) (base : Nat) (ws : List (BitVec 32)) : Sparse (BitVec 32) :=
  ws.zipIdx.foldl (fun m w => Sparse.set m 0 ((base + w.2) % 32768) w.1) store

/-- Whether the other bank of a row already holds a launch's image.
(DEDUCED: log entry 62.) -/
def State.holdsImage (s : State) (l : Launch) (n : Nat) (x : Side) : Bool :=
  let o := s.bank n (otherSide x)
  o.phase != .empty && !o.away && o.info.image == l.image && o.info.digest == l.digest

/-- A block is placed in a bank: everything R292 lists, before its first bundle. -/
def State.placeBlock (s : State) (l : Launch) (blk n : Nat) (x : Side) (codeBase : Nat) : State :=
  let bank := s.startBank l blk n x codeBase
  let window := s.startWindow l
  let core := s.startCore l
  let code := s.imgSyllables l.world l.image
  let held := s.holdsImage l n x
  s.modRow n fun r =>
    let r := r.mapCores fun _ c => ((c.lsWrite bank.winBase window).releaseTiles x).mod x fun _ => core
    { (r.modBank x fun _ => bank) with
        istore := if held then r.istore else loadCode r.istore codeBase code
        world := some l.world }

/-! ## Launches under way (R295-R297) -/

/-- How many blocks a launch, or a rerun's round, has. -/
def Launch.total (l : Launch) : Nat := match l.rerun with | some r => r.sel.length | none => l.blocks
/-- The block id at a position of the launch or round. -/
def Launch.blockAt (l : Launch) (i : Nat) : Nat := match l.rerun with | some r => (r.sel[i]?).getD 0 | none => i
/-- Whether blocks remain to be placed. -/
def Launch.unplaced (l : Launch) : Bool := !l.killing && l.next < l.total

/-- The masks of a cohort's claimed ids are set: every row that holds no block of the launch is excused (R300).
(DESIGN CHOICE: log entry 63.) -/
def State.setMasks (s : State) (l : Launch) : State :=
  let rows := (s.launchBanks l.id).map (·.1)
  (List.range 16).foldl (fun s id =>
    if l.barriers.getLsbD id then
      (List.finRange 16).foldl (fun s g => s.modRegion g fun rg =>
        { rg with masks := (List.range 10).foldl (fun m i =>
            Sparse.set m 0 (id * 10 + i) (coreMask fun r => !rows.contains ((g.val * 10 + i) * 64 + r.val))) rg.masks }) s
    else s) s

/-- The launch's image is loaded and measured for a confidential world, once, before its first block (R311).
(DEDUCED: log entry 61.) -/
def State.measureLaunch (s : State) (l : Launch) : State × Launch :=
  if l.world = 0 || l.digest.isSome then (s, l)
  else
    let d := sha3 (s.imgBytes l.image)
    let l' := { l with digest := some d }
    ((s.extendWorld l.world d).modLaunch l.id fun k => { k with digest := some d }, l')

/-- One more block of a free launch is placed where a usable bank exists and its rows allow. -/
def State.placeNext (s : State) (l : Launch) : Option State :=
  if l.maxRows ≤ (s.launchBanks l.id).length then none
  else
    let blk := l.blockAt l.next
    (s.findPlace l blk).map fun p =>
      (s.placeBlock l blk p.1 p.2.1 p.2.2).modLaunch l.id fun k => { k with next := k.next + 1 }

/-- A cohort is placed whole or not at all; `fuel` counts the blocks left to place. Answers with it the position of a block that found no
place. -/
def State.placeAll (s : State) (l : Launch) : Nat → Nat → State × Option Nat
  | 0, _ => (s, none)
  | fuel + 1, i =>
    match s.findPlace l (l.blockAt i) with
    | some p => (s.placeBlock l (l.blockAt i) p.1 p.2.1 p.2.2).placeAll l fuel (i + 1)
    | none => (s, some i)

/-- A claimed barrier id is held by another running cohort. -/
def State.barriersTaken (s : State) (l : Launch) : Bool :=
  s.launches.any fun k => k.id != l.id && k.cohort && k.next != 0 && k.barriers &&& l.barriers != 0

/-- The cohort is placed now, if it can be. -/
def State.placeCohort (s : State) (l : Launch) : Option State :=
  if s.barriersTaken l then none
  else
    match s.placeAll l l.total 0 with
    | (t, none) => some ((t.modLaunch l.id fun k => { k with next := l.total }).setMasks l)
    | (_, some _) => none

/-- A cohort that can never be placed (R295). -/
def State.unplaceable (s : State) (l : Launch) : Bool := l.cohort && (s.allowance l.world < l.total || l.maxRows < l.total)

/-- Whether a launch may place blocks: the bundle that asked for it has issued (R67, R217); nothing new starts while the panel is stabled
or its dies are being ungated (R335, R336), and a parked task's stay unplaced (R333). -/
def State.mayPlace (s : State) (l : Launch) : Bool :=
  l.unplaced && l.asker.isNone && !s.timing.stabled && decide (s.timing.wake ≤ s.time)
  && !(s.tasks.any fun t => t.launch == l.id && t.parked)

/-- A completion record's bytes (R297). -/
def completionBytes (status id failed killed : Nat) (rec : Vector Word 6) : List Byte :=
  bytesOfNat status 4 ++ bytesOfNat id 4 ++ bytesOfNat failed 4 ++ bytesOfNat killed 4 ++ rec.toList.flatMap bytesOfWord

/-- A completion record is written: a release at system scope. An address that is none is written nowhere. -/
def State.writeCompletion (s : State) (addr status id failed killed : Nat) (rec : Vector Word 6) : State :=
  if s.addressBad addr 64 64 then s else s.agentWrite addr (completionBytes status id failed killed rec)

/-- The queue of a packet goes on with what has completed. -/
def queueNo (q : Nat) : QueueId := ⟨q % 512, Nat.mod_lt _ (by decide)⟩
def State.wakeQueue (s : State) (q : Option (Nat × Nat)) : State :=
  match q with
  | some p => s.schedule s.time (.startPacket (queueNo p.1))
  | none => s

/-- The headers of a traced launch's area at its end: G_end in each, then %wgen advances (R344). -/
def State.stampHeaders (s : State) (l : Launch) : State :=
  let g := bytesOfWord s.wgen
  let s := (List.range l.blocks).foldl (fun s b => s.farWrite (headerAt l.waybill b) g) s
  { s with wgen := s.wgen + 1 }

/-- A launch that starts no block completes at once with a status (R295, R311); a traced one ends in the order of R344.
(DESIGN CHOICE: log entry 116.) -/
def State.refuseLaunch (s : State) (l : Launch) (status : Nat) : State :=
  let s := if l.traced then (s.writeHeaders l).stampHeaders l else s
  let s := s.writeCompletion l.completion status l.id 0 0 (Vector.replicate 6 0)
  { s with launches := s.launches.filter (·.id != l.id), tasks := s.tasks.filter (·.launch != l.id) }.wakeQueue l.queue

/-- A rerun's round that can place no block ends the rerun with a status; its blocks do not complete (R295, R311, R350).
(DESIGN CHOICE: log entry 116.) -/
def State.refuseRound (s : State) (l : Launch) (status : Nat) : State :=
  (s.modLaunch l.id fun k =>
    { k with
      next := 0
      ended := 0
      refused := some status
      rerun := k.rerun.map fun r => { r with bad := r.bad ++ r.sel, sel := [] } }).schedule s.time (.rerunRound l.id)

/-- A launch or round that can place no block ends. -/
def State.refuse (s : State) (l : Launch) (status : Nat) : State :=
  if l.rerun.isSome then s.refuseRound l status else s.refuseLaunch l status

/-! ### Levels and gated dies (R323, R329) -/

/-- The level of a task's chosen point. -/
def Task.point (t : Task) : OpPoint := (t.points[t.chosen]?).getD ⟨7, 0, 0⟩

/-- Each region runs at the lowest level among the points chosen for the tasks that have a block in it, at 7 with none (R323); a bank whose
state lies in the siding counts as empty (R333). (DEDUCED: log entry 134.) -/
def State.setLevels (s : State) : State :=
  let here := s.tasks.flatMap fun t => ((s.launchBanks t.launch).filter fun p => !(s.bank p.1 p.2).away).map fun p => (regionOf p.1, t.point.level)
  (List.finRange 16).foldl (fun s g =>
    let l := (here.filter (·.1 == g)).foldl (fun m p => if p.2.val < m.val then p.2 else m) (7 : Fin 8)
    s.modRegion g fun rg => { rg with level := l }) s

/-- A gated die is needed: it joins those its governor is to ungate (R329).
(DEDUCED: log entry 76.) -/
def State.askUngate (s : State) (d : Nat) : State :=
  let g : Fin 16 := regionOf (64 * d)
  if (s.regions[g]).ungateList.contains d || (s.regions[g]).waking == some d then s
  else (s.modRegion g fun r => { r with ungateList := insertNat d r.ungateList }).schedule s.time (.ungateDies g)

/-- The gated die that a block would go to. -/
def State.gatedFor (s : State) (l : Launch) (blk : Nat) : Option Nat :=
  (s.candidates l blk).find? fun d =>
    s.dies[dieNo d].gated && ((s.modDie (dieNo d) fun k => { k with gated := false }).usableDie l d).isSome

/-- The gated die that a launch needs: where its next block goes to, once no serving die has room for it; none while its rows or a barrier
keep it from being placed (R294, R295, R329). -/
def State.dieFor (s : State) (l : Launch) : Option Nat :=
  if l.cohort then
    if s.barriersTaken l then none
    else
      match s.placeAll l l.total 0 with
      | (t, some i) => t.gatedFor l (l.blockAt i)
      | (_, none) => none
  else if l.maxRows ≤ (s.launchBanks l.id).length || (s.findPlace l (l.blockAt l.next)).isSome then none
  else s.gatedFor l (l.blockAt l.next)

/-- The gated die that a launch needs, and no other, is ungated. -/
def State.ungateFor (s : State) (l : Launch) : State :=
  match s.dieFor l with
  | some d => s.askUngate d
  | none => s

/-- The launch places what it can next: one block of a free launch, all of a cohort (R294, R295). More may follow. -/
def State.advanceLaunch (s : State) (id : Nat) : State :=
  match s.launchOf id with
  | none => s
  | some l =>
    if !s.mayPlace l then s
    else if s.unplaceable l then s.refuse l 3
    else if l.next = 0 && !s.imageLoads l.world l.image then s.refuse l 4
    else
      let m := s.measureLaunch l
      match if m.2.cohort then m.1.placeCohort m.2 else m.1.placeNext m.2 with
      | some t =>
        let t := (if l.next = 0 then (t.writeHeaders m.2).wakeQueue l.queue else t).setLevels
        if ((t.launchOf id).map (·.unplaced)).getD false then t.schedule t.time (.placeBlock id) else t
      | none => s.ungateFor l

/-- Every launch with blocks left tries again. -/
def State.tryLaunches (s : State) : State :=
  s.launches.foldl (fun s l => if l.unplaced then s.schedule s.time (.placeBlock l.id) else s) s

/-- The command processor goes on with a launch: the counts of earlier cohorts under its completion record are forgotten, a rerun's header
says that it runs, and its first blocks are placed (R347). -/
def State.beginLaunch (s : State) (l : Launch) : State :=
  let s := { s with released := s.released.filter (·.1 != l.completion) }
  match l.rerun with
  | none => s.schedule s.time (.placeBlock l.id)
  | some r => (s.farWrite (l.waybill + 32) (bytesOfNat 1 4)).schedule s.time (if r.sel.isEmpty then .rerunRound l.id else .placeBlock l.id)

/-- A launch enters the panel; one that a bundle asks for goes on once that has issued (R67, R217). -/
def State.addLaunch (s : State) (l : Launch) : State :=
  let s := { s with lastId := l.id, launches := s.launches ++ [l] }
  if l.asker.isSome then s else s.beginLaunch l

/-- The bundle that asked for a launch has issued. -/
def State.issueRequest (s : State) (n : Nat) (x : Side) : State :=
  (s.launches.filter (·.asker == some (n, x))).foldl (fun (s : State) l =>
    (s.modLaunch l.id fun k => { k with asker := none }).beginLaunch l) s

/-! ## The end of a block and of a launch (R114, R235, R297, R343) -/

/-- How a block ends. -/
inductive Ending where
  | completed
  | failed
  | killed
deriving DecidableEq, Repr

/-- Every block of the launch or round has ended. -/
def Launch.allEnded (l : Launch) : Bool := l.ended == l.total

/-- The levels of the regions follow the tasks that have blocks in them; a level that changes may leave room to raise tasks (R319, R323). -/
def State.relevel (s : State) : State :=
  let t := s.setLevels
  if t.tasks.isEmpty || (List.finRange 16).all (fun g => (t.regions[g]).level == (s.regions[g]).level) then t
  else t.schedule t.time .headroom

/-- A parked task one of whose blocks has ended looks whether its working set may go down (R333). -/
def State.wakeParked (s : State) (launch : Nat) : State :=
  match s.tasks.find? (·.launch == launch) with
  | some t => if t.parked || t.demoting then s.schedule s.time (.resumeTask t.id) else s
  | none => s

/-- A block ends: its runs are written, the launch counts it, the bank becomes empty, and what may now start is tried. -/
def State.endBlock (s : State) (n : Nat) (x : Side) (e : Ending) : State :=
  let b := s.bank n x
  match s.launchOf b.info.launch with
  | none => s.emptyBank n x
  | some l =>
    let blk := b.info.blk.toNat
    let s := if l.traced then s.writeRuns l blk b.runs b.untraced (e == .completed) else s
    let s := s.modLaunch l.id fun k =>
      { k with ended := k.ended + 1, killed := k.killed + (if e = .killed then 1 else 0), left := k.left ++ [(n, b.arrivals)]
               rerun := k.rerun.map fun r => { r with bad := if e = .completed then r.bad else r.bad ++ [blk] } }
    let s := ((s.emptyBank n x).relevel).wakeParked l.id
    let s := match s.launchOf l.id with
      | some k =>
        if k.allEnded then s.schedule s.time (if k.rerun.isSome then .rerunRound k.id else .completeLaunch k.id) else s
      | none => s
    s.tryLaunches

/-- A bank's operations are all done: nothing of it is pending, its matrix engine is idle, its writes off the panel acknowledged. -/
def State.bankQuiet (s : State) (n : Nat) (x : Side) : Bool :=
  let b := s.bank n x
  (s.pend.all fun q => !(q.row == n && q.side == x)) && b.matOps.isEmpty && b.acks = 0

/-- Nothing of a bank is on its way: no operation that has not performed, no matrix step that has begun and not landed, no write off the
panel that is not acknowledged. The steps of a stopped bank that have not begun do not begin (R172). -/
def State.bankStill (s : State) (n : Nat) (x : Side) : Bool :=
  let b := s.bank n x
  (s.pend.all fun q => !(q.row == n && q.side == x)) && b.matOps.all (fun o => o.landed == o.next) && b.acks = 0

/-- Every result of the bank has landed and its buffers are committed. -/
def State.bankLanded (s : State) (n : Nat) (x : Side) : Bool :=
  let b := s.bank n x
  b.seq.isEmpty && b.votes.isEmpty && allCores.all fun c =>
    let k := (s.row n).cb x c
    k.flights.isEmpty && k.latches.isEmpty && k.segBuf.isEmpty

/-- A halted block completes once nothing of its bank is left to do; a halted handler returns its bank to armed, and the entries its
queues still hold are dropped (R114, R181, R239). -/
def State.completeBlock (s : State) (n : Nat) (x : Side) : State :=
  if (s.bank n x).phase = .halted && (s.bank n x).heldLeft = 0 && s.bankQuiet n x && s.bankLanded n x then
    if (s.bank n x).armed.isSome then
      ((s.modRow n fun r => (r.mapBanks x fun _ b => { b with loads := [] }).modBank x fun b => { b with phase := .dormant }).modRow n
        Row.nextHandler).wakeParked (s.bank n x).info.launch
    else s.endBlock n x .completed
  else s

/-- A failed block's bank becomes empty once its engine operations have completed and its requests have been answered (R235). -/
def State.emptyFailed (s : State) (n : Nat) (x : Side) : State :=
  let b := s.bank n x
  if b.phase = .failed && b.armed.isNone && s.bankQuiet n x then s.endBlock n x .failed else s

/-- A queue of the panel: thread q mod 32 of region q / 32 (R20). -/
def queueRegion (q : QueueId) : Fin 16 := ⟨q.val / 32 % 16, Nat.mod_lt _ (by decide)⟩
def queueThread (q : QueueId) : Fin 32 := ⟨q.val % 32, Nat.mod_lt _ (by decide)⟩
def State.queue (s : State) (q : QueueId) : Queue := (s.regions[queueRegion q]).queues[queueThread q]
def State.modQueue (s : State) (q : QueueId) (f : Queue → Queue) : State :=
  s.modRegion (queueRegion q) fun g => { g with queues := g.queues.set (queueThread q).val (f g.queues[queueThread q]) }

/-- A launch's queue has lost its thread, which writes the completion record once it is back (R371). -/
def State.threadLost (s : State) (l : Launch) : Bool := l.queue.any fun p => (s.queue (queueNo p.1)).halted

/-- A launch all of whose blocks have ended completes (R297, R344). -/
def State.completeLaunch (s : State) (id : Nat) : State :=
  match s.launchOf id with
  | none => s
  | some l =>
    if !l.allEnded || l.rerun.isSome || s.threadLost l then s
    else
      let s := if l.traced then s.stampHeaders l else s
      let status := if l.failed + l.killed = 0 then 0 else 1
      let words := ((l.firstFail).map (·.2)).getD (Vector.replicate 6 0)
      let s := s.writeCompletion l.completion status l.id l.failed l.killed words
      let s := if l.task.isSome then s.schedule s.time .headroom else s
      ({ s with launches := s.launches.filter (·.id != id), tasks := s.tasks.filter (·.launch != id) }.wakeQueue l.queue).tryLaunches

/-! ## spawn (R217, R296) -/

/-- An answer word: status in bits 63:32, launch id in bits 31:0. -/
def answerWord (status id : Nat) : Word := BitVec.ofNat 64 (status * 2 ^ 32 + id)

/-- The command processor answers a bank's spawn of a record; a malformed one's completion record says so too. A cohort's rows are judged
with its image's measurement (R288, R291, R296). -/
def State.answerLaunch (s : State) (n : Nat) (x : Side) (rec : Nat) : State :=
  let b := s.bank n x
  let give (s : State) (w : Word) : State := s.modBank n x fun b => { b with answer := some w }
  if s.recordBad rec then
    give (s.writeCompletion (s.recCompletion rec) 2 0 0 0 (Vector.replicate 6 0)) (answerWord 1 0)
  else
    let id := nextLaunchId s.lastId
    let l := { s.launchOfRecord rec id b.info.world b.sysperm none none with asker := some (n, x) }
    let refused := if l.cohort then s.unplaceable l || (s.placeCohort (s.measureLaunch l).2).isNone
      else s.allowance l.world ≤ s.worldRows l.world
    if refused then give s (answerWord 2 0) else give (s.addLaunch l) (answerWord 0 id)

end Sys2Proof.Machine
end

