-- ==== Sys2Proof/Machine/Energy.lean ====
section
/-! DEFINITION. Energy against the timetable: messages, the target, operating points, the grades slow, park, shed and stabled, gating,
permits and droops (R315-R337). -/

namespace Sys2Proof.Machine

/-! ## Operating points (R322-R324) -/

/-- What the running tasks take: id, level and rows of each. -/
def taskLoad (ts : List Task) : List (Word × Nat × Nat) :=
  (ts.filter fun t => !t.parked).map fun t => (t.id, t.point.level.val, t.point.rows)
/-- The dies that are gated. -/
def State.gatedDies (s : State) : Nat := (s.dies.toList.filter (·.gated)).length
/-- The predicted power of a choice, with the dies now gated, fits under a target (R324; log entry 13). -/
def State.fits (s : State) (target : Nat) (ts : List Task) : Bool := Config.predictedPower (taskLoad ts) s.gatedDies ≤ target

/-- The points of a task that may be chosen: those whose record is well formed (R322). -/
def State.choosable (s : State) (ps : List OpPoint) : List Nat :=
  (List.range ps.length).filter fun i => (ps[i]?).any fun p => !s.recordBad p.record
def pointLevel (ps : List OpPoint) (i : Nat) : Nat := ((ps[i]?).map (·.level.val)).getD 0

/-- Of some points, the one of highest level that a bound admits; ties go to the lowest index. -/
def highestPoint (ps : List OpPoint) (ok : Nat → Bool) (is : List Nat) : Option Nat :=
  is.foldl (fun best i =>
    if !ok i then best
    else match best with
      | none => some i
      | some b => if pointLevel ps b < pointLevel ps i then some i else some b) none
/-- Of some points, the one of lowest level that a bound admits; ties go to the lowest index. -/
def lowestPoint (ps : List OpPoint) (ok : Nat → Bool) (is : List Nat) : Option Nat :=
  is.foldl (fun best i =>
    if !ok i then best
    else match best with
      | none => some i
      | some b => if pointLevel ps i < pointLevel ps b then some i else some b) none

/-- One point down a task's table, and one up: the next level below or above among its choosable points.
(DEDUCED: log entry 69.) -/
def State.pointDown (s : State) (t : Task) : Task :=
  let l := t.point.level.val
  match highestPoint t.points (fun i => pointLevel t.points i < l) (s.choosable t.points) with
  | some i => { t with chosen := i }
  | none => t
def State.pointUp (s : State) (t : Task) : Option Task :=
  let l := t.point.level.val
  (lowestPoint t.points (fun i => l < pointLevel t.points i) (s.choosable t.points)).map fun i => { t with chosen := i }

/-- Tasks in an order. -/
def insertTask (before : Task → Task → Bool) (t : Task) : List Task → List Task
  | [] => [t]
  | u :: us => if before t u then t :: u :: us else u :: insertTask before t us
def orderTasks (before : Task → Task → Bool) (ts : List Task) : List Task := ts.foldl (fun l t => insertTask before t l) []
def replaceTask (ts : List Task) (t : Task) : List Task := ts.map fun u => if u.id = t.id then t else u

/-- Before in the order of lowering and of shedding: descending class, then latest deadline, then higher id (R324, R334). -/
def shedBefore (a b : Task) : Bool :=
  b.cls.val < a.cls.val || (a.cls == b.cls && (b.deadline < a.deadline || (a.deadline = b.deadline && b.id < a.id)))

/-- One round of rule 2 of R324: each running task in its order moves one point down, until the prediction fits.
(DEDUCED: log entry 122.) -/
def State.lowerRound (s : State) (target : Nat) : List Task → List Task → List Task
  | [], ts => ts
  | t :: rest, ts => if s.fits target ts then ts else s.lowerRound target rest (replaceTask ts (s.pointDown t))

/-- Rule 2 of R324: rounds until the prediction fits or none can move. -/
def State.lower (s : State) (target : Nat) : Nat → List Task → List Task
  | 0, ts => ts
  | fuel + 1, ts =>
    if s.fits target ts then ts
    else s.lower target fuel (s.lowerRound target (orderTasks shedBefore (ts.filter (!·.parked))) ts)
/-- The rounds that can change anything: eight levels. -/
def State.slowed (s : State) (target : Nat) (ts : List Task) : List Task := s.lower target 8 ts

/-- Before in the order of rule 3: ascending class, then earliest deadline. -/
def taskBefore (a b : Task) : Bool := a.cls.val < b.cls.val || (a.cls == b.cls && a.deadline < b.deadline)
/-- The first in an order. -/
def firstTask (before : Task → Task → Bool) (ts : List Task) : Option Task :=
  ts.foldl (fun best t =>
    match best with
    | none => some t
    | some b => if before t b then some t else some b) none
/-- Rule 3 of R324: one task at a time, parked tasks resumed first, while the prediction has room. Answers the tasks and those resumed.
(DEDUCED: log entry 70.) -/
def State.raiseLoop (s : State) (target : Nat) : Nat → List Task → List Word → List Task × List Word
  | 0, ts, done => (ts, done)
  | fuel + 1, ts, done =>
    let back (t : Task) : Task := { t with parked := false, cancelled := false }
    let stays (t : Task) : Bool := t.parked || t.cancelled
    match firstTask taskBefore (ts.filter fun t => stays t && s.fits target (replaceTask ts (back t))) with
    | some t => s.raiseLoop target fuel (replaceTask ts (back t)) (done ++ [t.id])
    | none =>
      if ts.any stays then (ts, done)
      else
        let up := ts.filterMap fun t => match s.pointUp t with
          | some u => if s.fits target (replaceTask ts u) then some u else none
          | none => none
        match firstTask taskBefore up with
        | some u => s.raiseLoop target fuel (replaceTask ts u) done
        | none => (ts, done)

/-! ## A change of the chosen points takes effect (R322, R323) -/

/-- The launch of a task takes its point's rows and record for the blocks placed after the change.
(DEDUCED: log entry 68.) -/
def Launch.takePoint (s : State) (l : Launch) (p : OpPoint) : Launch :=
  let n := s.launchOfRecord p.record l.id l.world 15 l.queue l.task
  { l with maxRows := p.rows, record := p.record, chk := n.chk, skew := n.skew, sysperm := n.sysperm, space := n.space
           perDie := n.perDie, window := n.window, image := n.image, tableBase := n.tableBase, tableLen := n.tableLen
           placement := n.placement, args := n.args, digest := if n.image = l.image then l.digest else none }

/-- New choices stand: levels at once, launches where the point changed. -/
def State.setTasks (s : State) (ts : List Task) : State :=
  let changed := ts.filter fun t => s.tasks.any fun u => u.id == t.id && u.chosen != t.chosen
  let s' := changed.foldl (fun (t : State) k => t.modLaunch k.launch fun l => l.takePoint s k.point) { s with tasks := ts }
  s'.setLevels.tryLaunches

/-- Rule 2 of R324 where no event asks for it: an ungated die has lifted the prediction above the target. -/
def State.lowerTasks (s : State) : State :=
  if s.fits s.timing.target s.tasks then s else s.setTasks (s.slowed s.timing.target s.tasks)

/-! ## Parking (R230, R332, R333) -/

/-- A bank's window and the tiles it owns leave for the siding. An armed bank's window is that of the block that armed it, and goes with
that one's state (R237). -/
def Core.toSiding (c : Core) (b : Bank) (x : Side) : ParkedCore :=
  { window := if b.armed.isSome then []
      else (c.ls.filter fun e => b.winBase ≤ e.1 && e.1 < b.winBase + b.winSize).map fun e => (e.1 - b.winBase, e.2)
    cipher := c.cipher, poison := c.poison
    tiles := (List.finRange 8).filterMap fun t => if c.owner[t] == some x then some (t, c.tiles[t], c.dirty.getLsbD t.val) else none }

/-- The tiles of the tensors bound to a launch's arguments: entry, tensor, tile index; no tile that no coordinate reaches (R272, R333). -/
def State.boundTiles (s : State) (l : Launch) : List (Nat × Nat × Nat) :=
  l.args.flatMap fun a =>
    let d := s.readDesc l.tableBase a.toNat
    if l.tableLen ≤ a.toNat || descBad d (a == 0) then []
    else ((List.range (descRequired d (a == 0))).filter (tileReached d (a == 0))).map fun i => (descBase d + 8 * i, a.toNat, i)

/-- An entry names a resident tier-0 frame of this panel. -/
def State.resident0 (s : State) (entry : Nat) : Bool :=
  let e := s.physWord entry
  teState e == 1 && teTier e == 0 && tePanel e == s.panelId.toNat

/-- A launch's working set: the tier-0 frames of its bound tensors, less those that a running launch of the same address space references
(R333). -/
def State.workingSet (s : State) (l : Launch) : List (Nat × Nat × Nat) :=
  let frames (k : Launch) : List Nat := ((s.boundTiles k).filter fun t => s.resident0 t.1).map fun t => teFrame (s.physWord t.1)
  let others := s.launches.filter fun k => k.id != l.id && k.space == l.space && !(s.tasks.any fun t => t.launch == k.id && t.parked)
  let used := others.flatMap frames
  (s.boundTiles l).filter fun t => s.resident0 t.1 && !used.contains (teFrame (s.physWord t.1))

/-- How an engine is to move a launch's tile. -/
def State.moverOf (s : State) (l : Launch) (t : Nat × Nat × Nat) : Mover :=
  let d := s.readDesc l.tableBase t.2.1
  ⟨t.1, teForm (s.physWord t.1), ⟨descSlot d, l.space.toNat, t.2.1, t.2.2⟩, some (descBase d + 8 * descCount d + 8 * t.2.2)⟩

/-- A tile of a parked task starts its demotion to the siding, unless its frame is pinned. -/
def State.parkTile (s : State) (task : Word) (l : Launch) (t : Nat × Nat × Nat) : State :=
  if s.isMoving t.1 || s.pinned (teFrame (s.physWord t.1)) then s
  else
    let u := s.demoteTo (s.moverOf l t) s.sidingUnits
    if u.isMoving t.1 then { u with tasks := u.tasks.map fun k => if k.id = task then { k with away := k.away ++ [t] } else k } else u

/-- Every bank of a launch has left its row, or ended. -/
def State.banksAway (s : State) (id : Nat) : Bool := (s.heldBanks id).all fun p => (s.bank p.1 p.2).away

/-- A park's demotion is complete: of the launch's working set nothing is left in tier 0 but what is pinned, and nothing moves. -/
def State.sunk (s : State) (l : Launch) : Bool :=
  ((s.workingSet l).all fun k => s.pinned (teFrame (s.physWord k.1))) && (s.boundTiles l).all fun k => !s.isMoving k.1

/-- A parked task whose banks have all gone sends its working set after them, and so does one that a raise has resumed meanwhile; what is
pinned or moving is tried again (R332, R333, R337). -/
def State.settlePark (s : State) (t : Task) : State :=
  match s.launchOf t.launch with
  | some l =>
    if (t.parked || t.demoting) && s.banksAway l.id then
      let s := (s.workingSet l).foldl (fun s k => s.parkTile t.id l k) s
      if s.sunk l then { s with tasks := s.tasks.map fun (k : Task) => if k.id = t.id then { k with demoting := false } else k } else s
    else s
  | none => s

/-- Every parked task does. -/
def State.settleParks (s : State) : State := s.tasks.foldl State.settlePark s

/-- A bank stopped for the siding whose engine operations have completed moves there; its row then drains if it can, and its task sends its
working set after it, or, where it resumes already, goes on (R333, R337). -/
def State.moveToSiding (s : State) (n : Nat) (x : Side) : State :=
  let b := s.bank n x
  if (b.phase == .stopped .park || b.phase == .stopped .stabled) && b.parked.isEmpty && s.bankStill n x then
    let parked := allCores.map fun c => ((s.row n).cores[c]).toSiding b x
    let s := s.modRow n fun r =>
      ((r.mapCores fun _ k => (k.releaseTiles x).mod x fun cb => { cb with saved := (k.of x).saved }).modBank x
        fun b => { b with parked := parked }).drain
    let s := (s.noteDrained n).setLevels
    match s.tasks.find? (·.launch == b.info.launch) with
    | some t => (s.settlePark t).schedule s.time (.resumeTask t.id)
    | none => s
  else s

/-- A bank is asked to stop for the siding; one the device has stopped already is parked as it stands (R333), and so is an armed one with no
handler running, which goes back to that as it returns. -/
def State.askPark (s : State) (n : Nat) (x : Side) (k : StopKind) : State :=
  let b := s.bank n x
  match b.phase with
  | .run => s.modBank n x fun b => { b with stopReq := some k }
  | .stopped .tileFault | .stopped .preempt | .stopped .hold =>
    (s.withdrawPermit n x).modBank n x fun b => { b with phase := .stopped k }
  | .dormant => s.modBank n x fun b => { b with phase := .stopped k, rest := .dormant }
  | .failed => if b.armed.isSome then s.modBank n x fun b => { b with phase := .stopped k, rest := .failed } else s
  | _ => s

/-- A task is parked: its banks stop, with those they have armed. -/
def State.parkTask (s : State) (id : Word) (k : StopKind) : State :=
  match s.tasks.find? (·.id == id) with
  | some t =>
    let s := { s with tasks := replaceTask s.tasks { t with parked := true, cancelled := false, demoting := true } }
    (s.heldBanks t.launch).foldl (fun s p => s.askPark p.1 p.2 k) s
  | none => s

/-! ## Resuming (R229, R333) -/

/-- A parked core's part comes back: the window, its form and poison bits, and the tiles; a tile the other bank owns meanwhile goes to
the bank's save area, or is taken where it has none.
(DEDUCED: log entry 74.) -/
def Core.fromSiding (c : Core) (b o : Bank) (x : Side) (p : ParkedCore) : Core :=
  let lines := (List.range (b.winSize / 64)).map (· + b.winBase / 64)
  let c := if b.armed.isSome then c else { c with
    ls := p.window.foldl (fun m e => Sparse.set m 0 (e.1 + b.winBase) e.2)
      (c.ls.filter fun e => e.1 < b.winBase || b.winBase + b.winSize ≤ e.1)
    cipher := lines.foldl (fun m l => setLine m l (p.cipher.getLsbD l)) c.cipher
    poison := lines.foldl (fun m l => setLine m l (p.poison.getLsbD l)) c.poison }
  p.tiles.foldl (fun (c : Core) t =>
    if c.owner[t.1] == some (otherSide x) && b.tsave != 0xFFFFFFFF then
      (c.lsWrite (b.saveArea t.1) (bytesOfTile t.2.1)).mod x fun cb => { cb with saved := setBit8 cb.saved t.1 true }
    else
      let c := c.take b o x t.1
      { c with tiles := c.tiles.set t.1.val t.2.1, dirty := setBit8 c.dirty t.1 t.2.2 }) c

/-- The row still holds the block's syllables at its code base.
(DEDUCED: log entry 75.) -/
def Row.holdsCode (r : Row) (b : Bank) : Bool :=
  (List.range b.info.codeLen).any fun i => Sparse.get r.istore 0 ((b.info.codeBase + i) % 32768) != 0

/-- The measured loader refuses to load a parked block's image again (R333). -/
def State.reloadFails (s : State) (b : Bank) : Bool :=
  b.info.world != 0 &&
  (!s.imageLoads b.info.world b.info.image || b.info.digest != some (sha3 (s.imgBytes b.info.image)))

/-- The permit a park withdrew or returned is asked for again (R327). -/
def State.askAgain (s : State) (n : Nat) (x : Side) : State :=
  match (s.bank n x).permit with
  | .waiting c _ =>
    ((s.modBank n x fun b => { b with permit := .waiting c s.time }).modRegion (regionOf n) fun g =>
      { g with requests := g.requests ++ [⟨n, x, c, s.time⟩] }).askWindow (regionOf n) (nextWindow s.time)
  | _ => s

/-- The second step of a resumption: a row that no longer holds the block's syllables is given them again, and a reload the loader refuses
fails the block (R333). -/
def State.reloadCode (s : State) (n : Nat) (x : Side) : State :=
  let b := s.bank n x
  if b.armed.isSome || b.parked.isEmpty || (s.row n).holdsCode b then s
  else if s.reloadFails b then
    (s.modLaunch b.info.launch fun (l : Launch) => l.noteFailed b.info.blk.toNat b.trapRec).endBlock n x .failed
  else s.modRow n fun r => { r with istore := loadCode r.istore b.info.codeBase (s.imgSyllables b.info.world b.info.image) }

/-- A bank whose state lies in the siding returns to its row and resumes; an armed one with no handler running is that again. -/
def State.returnBank (s : State) (n : Nat) (x : Side) : State :=
  let b := s.bank n x
  let s := s.modRow n fun r =>
    let o := r.bank (otherSide x)
    let r := r.mapCores fun c k => match b.parked[c.val]? with
      | some p => k.fromSiding b o x p
      | none => k
    r.modBank x fun b => { b with parked := [] }
  if b.rest = .run then (s.setLevels.resumeBank n x).askAgain n x
  else (s.modBank n x fun b => { b with phase := b.rest, rest := .run }).modRow n Row.nextHandler

/-- The tiles that a park sent to the siding are back, or software has placed them anew. -/
def State.tilesHome (s : State) (t : Task) : Bool :=
  t.away.all fun a => teState (s.physWord a.1) != 0 && !s.isMoving a.1

/-- A bank stopped for the siding. -/
def Bank.forSiding (b : Bank) : Bool := b.phase == .stopped .park || b.phase == .stopped .stabled
/-- A bank whose state lies in the siding. -/
def Bank.inSiding (b : Bank) : Bool := b.forSiding && !b.parked.isEmpty

/-- The last step of a resumption: a bank goes on once the frames it faulted on are resident, an armed one after the block that armed it;
what is missing is asked for (R333, R337). -/
def State.resumeParked (s : State) (n : Nat) (x : Side) : State :=
  let b := s.bank n x
  if !b.inSiding || (b.armed.isSome && (s.bank n (otherSide x)).forSiding) then s
  else if s.faultsResident n x then s.returnBank n x
  else s.promoteFaults n x

/-- A task that is parked no more, once what its park had still to send has gone: its banks' dies are ungated, their syllables stand in
their rows again, its working set comes back by promotion and its banks resume, in that order; those that must wait are tried again. A
parked task's working set goes down.
(DEDUCED: log entry 143.) -/
def State.resumeTask (s : State) (id : Word) : State :=
  let settled : State := match s.tasks.find? (·.id == id) with
    | some t => s.settlePark t
    | none => s
  match settled.tasks.find? (·.id == id) with
  | some t =>
    if t.parked || t.cancelled || t.demoting || s.time < s.timing.wake then settled
    else
      let away := (settled.heldBanks t.launch).filter fun p => (settled.bank p.1 p.2).inSiding
      let asleep := away.filter fun p => settled.dies[dieFin p.1].gated
      if !asleep.isEmpty then asleep.foldl (fun (s : State) p => s.askUngate (dieOf p.1)) settled
      else
        let s := away.foldl (fun (s : State) p => s.reloadCode p.1 p.2) settled
        let s : State := match s.launchOf t.launch with
          | some l => t.away.foldl (fun (s : State) a => s.promote a.1 a.2.2 (s.readDesc l.tableBase a.2.1) l.space.toNat a.2.1) s
          | none => s
        if !s.tilesHome t then s
        else
          let s := away.foldl (fun (s : State) p => s.resumeParked p.1 p.2) s
          { s with tasks := s.tasks.map fun (k : Task) => if k.id = id then { k with away := [] } else k }
  | none => s

/-! ## Killing (R334) -/

/-- What a killed bank had issued that is cancelled: engine operations, and what would only answer the bank. -/
def PendOp.cancelled : PendOp → Bool
  | .load .. | .lock .. => true
  | o => o.engine

/-- A killed bank: no latch capture, results and state discarded; its engine operations that have not completed are cancelled, and with
them their writes off the panel; so is what its bundle had asked for (R334). -/
def State.killBank (s : State) (n : Nat) (x : Side) : State :=
  let gone (q : Pending) : Bool := q.row == n && q.side == x && q.op.cancelled
  let off := ((s.pend.filter gone).map fun q => s.offWrites (q.writes.map (·.2.1))).sum
  let tiles := (s.bank n x).matOps.map (·.tile)
  let s := { s with pend := s.pend.filter fun q => !gone q }.dropRequest n x
  let s := s.modRegion (regionOf n) fun g => { g with requests := g.requests.filter fun q => !(q.row == n && q.side == x) }
  (s.modRow n fun r => tiles.foldl (fun r t => r.idleTile x t) r).modBank n x fun b =>
    { b with phase := .killed, matOps := [], permit := .none, stopReq := none, frozen := none, frozenFor := 0, nopLeft := 0
             heldLeft := 0, waitLeft := 0, verdict := none, request := none, acks := b.acks - off }

/-- A launch is killed: its banks at once, with those they have armed; a block that has failed already ends as that (R334). -/
def State.killLaunch (s : State) (id : Nat) : State :=
  let s := s.modLaunch id fun k => { k with killing := true }
  let banks := (s.heldBanks id).filter fun p => (s.bank p.1 p.2).phase != .failed || (s.bank p.1 p.2).armed.isSome
  (banks.foldl (fun s p => s.killBank p.1 p.2) s).schedule s.time (.killComplete id)

/-- The blocks a killed launch had not placed are marked as not completed, and count as killed (R334, R349). -/
def State.killUnplaced (s : State) (l : Launch) : State :=
  let rest := l.total - l.next
  let unplaced := (List.range rest).map fun i => l.blockAt (l.next + i)
  let s := if l.traced then
      unplaced.foldl (fun s b => s.writeRuns l b [] false false) (if l.next = 0 then s.writeHeaders l else s)
    else s
  s.modLaunch l.id fun k =>
    { k with ended := k.ended + rest, killed := k.killed + rest, next := k.total
             rerun := k.rerun.map fun r => { r with bad := r.bad ++ unplaced } }

/-- A killed bank becomes empty: a block's counts as killed, an armed one's messages are gone with it. -/
def State.endKilled (s : State) (n : Nat) (x : Side) : State :=
  if (s.bank n x).armed.isSome then (s.modRow n fun r => { r with arrivals := [] }).emptyBank n x else s.endBlock n x .killed

/-- A kill ends once every write of the killed banks is acknowledged or cancelled: each block counts as killed (R334). -/
def State.killComplete (s : State) (id : Nat) : State :=
  match s.launchOf id with
  | some l =>
    let banks := (s.heldBanks id).filter fun p => (s.bank p.1 p.2).phase == .killed
    if !l.killing || !banks.all (fun p => s.bankQuiet p.1 p.2) then s
    else
      let s := (banks.foldl (fun s p => s.endKilled p.1 p.2) s).killUnplaced l
      if ((s.launchOf id).map (·.allEnded)).getD false then
        s.schedule s.time (if l.rerun.isSome then .rerunRound id else .completeLaunch id)
      else s
  | none => s

/-- A killed bank whose writes have all been acknowledged looks whether its launch's kill can end. -/
def State.noteKilled (s : State) (n : Nat) (x : Side) : State :=
  if (s.bank n x).phase = .killed && s.bankQuiet n x then s.killComplete (s.bank n x).info.launch else s

/-- A task is shed. -/
def State.shedTask (s : State) (id : Word) : State :=
  match s.tasks.find? (·.id == id) with
  | some t => { s with tasks := s.tasks.filter (·.id != id) }.killLaunch t.launch
  | none => s

/-! ## The target (R317, R330) -/

/-- The watts of the last point at or before a time. -/
def Timetable.watts (tt : Timetable) (t : Nat) : Nat :=
  ((tt.points.filter fun p => p.1 ≤ t).getLast?.map (·.2)).getD 48000
/-- The timetable's target; 48,000 W before the first. -/
def State.tableTarget (s : State) : Nat := ((s.timing.inForce).map (·.watts s.time)).getD 48000
/-- The target in force, after contacts. -/
def State.targetNow (s : State) : Nat :=
  if s.timing.contactS then min s.tableTarget s.timing.limit.toNat else s.tableTarget
/-- Hold, by timetable flag or contact H; whether shed is permitted. -/
def State.holdNow (s : State) : Bool := ((s.timing.inForce).map (·.hold)).getD false || s.timing.contactH
def State.shedAllowed (s : State) : Bool := ((s.timing.inForce).map (·.shed)).getD false || s.timing.contactS

/-! ## Events and grades (R331-R335) -/

/-- The grades, in the order of their codes (R319). -/
inductive Grade where
  | none
  | slow
  | park
  | shed
  | stabled
deriving DecidableEq, Repr
def Grade.code : Grade → Nat
  | .none => 0 | .slow => 1 | .park => 2 | .shed => 3 | .stabled => 4

/-- Slack: deadline less panel time less predicted time to finish (R333; log entry 13). -/
def State.slack (s : State) (t : Task) : Int :=
  (t.deadline : Int) - s.time - Config.predictedFinish t.id t.point.level.val t.point.rows
/-- Before in the order of parking: greatest slack, then higher class, then higher id. -/
def State.parkBefore (s : State) (a b : Task) : Bool :=
  s.slack b < s.slack a || (s.slack a = s.slack b && (b.cls.val < a.cls.val || (a.cls == b.cls && b.id < a.id)))
/-- The tasks to park until the prediction fits with the rest slowed.
(DEDUCED: log entry 72.) -/
def State.parkChoice (s : State) (target : Nat) : Nat → List Task → List Word → List Task × List Word
  | 0, ts, done => (s.slowed target ts, done)
  | fuel + 1, ts, done =>
    if s.fits target (s.slowed target ts) then (s.slowed target ts, done)
    else
      match firstTask s.parkBefore (ts.filter fun t => !t.parked && t.cls.val != 0) with
      | some t => s.parkChoice target fuel (replaceTask ts { t with parked := true }) (done ++ [t.id])
      | none => (s.slowed target ts, done)

/-- The tasks to shed until the prediction fits with the rest slowed. -/
def State.shedChoice (s : State) (target : Nat) : Nat → List Task → List Word → List Task × List Word
  | 0, ts, done => (s.slowed target ts, done)
  | fuel + 1, ts, done =>
    if s.fits target (s.slowed target ts) then (s.slowed target ts, done)
    else
      match firstTask shedBefore (ts.filter fun t => !t.parked && t.cls.val != 0) with
      | some t => s.shedChoice target fuel (ts.filter (·.id != t.id)) (done ++ [t.id])
      | none => (s.slowed target ts, done)

/-- Every governor is to gate the dies that may be gated now; those that come to be so until the event's last bound is met follow
(R329). -/
def State.openGating (s : State) : State := (List.range 160).foldl State.queueGate s

/-- A new fall of the target cancels the resumption of banks not yet resumed: a task none of whose banks has resumed is parked as before,
the others keep those banks parked (R337). -/
def State.cancelResumes (s : State) : State :=
  let there (p : Nat × Side) : Bool :=
    let b := s.bank p.1 p.2
    b.forSiding || b.stopReq == some .park || b.stopReq == some .stabled
  { s with tasks := s.tasks.map fun t =>
      let banks := s.heldBanks t.launch
      if t.parked || !banks.any there then t
      else if banks.all there then { t with parked := true, cancelled := false, demoting := true }
      else { t with cancelled := true } }

/-- The grade of an event and the tasks it touches; `contact` says that the event is the opening of contact S (R331). In a stabled panel
whose hold has ended and whose target exceeds 2,400 W the exit follows (R337).
(DEDUCED: log entry 73.) -/
def State.takeGrade (s : State) (holdBegins contact : Bool) : State × Grade × List Word :=
  let s := s.cancelResumes
  let target := s.timing.target
  let n := s.tasks.length
  if s.timing.stabled then (s, if s.holdNow || target ≤ 2400 then .stabled else .none, [])
  else if holdBegins || target ≤ 2400 then
    let ids := (s.tasks.filter fun t => !t.parked).map (·.id)
    let s := ids.foldl (fun s i => s.parkTask i .stabled) s
    ({ s with timing := { s.timing with stabled := true } }.openGating, .stabled, ids)
  else
    let slow := s.slowed target s.tasks
    if s.fits target slow then
      let moved := slow.filter fun t => s.tasks.any fun u => u.id == t.id && u.chosen != t.chosen
      ((s.setTasks slow).openGating, .slow, moved.map (·.id))
    else
      let park := s.parkChoice target n s.tasks []
      let shed := s.shedChoice target n s.tasks []
      if !contact && (s.fits target park.1 || !s.shedAllowed) then
        let s := s.setTasks (park.1.map fun t => if park.2.contains t.id then { t with parked := false } else t)
        ((park.2.foldl (fun s i => s.parkTask i .park) s).openGating, .park, park.2)
      else
        let s := s.setTasks (s.tasks.map fun t => (shed.1.find? (·.id == t.id)).getD t)
        ((shed.2.foldl (fun s i => s.shedTask i) s).openGating, .shed, shed.2)

/-- The lowest of some task ids; 0 for none. -/
def lowestId (ids : List Word) : Word :=
  match ids with
  | [] => 0
  | i :: is => is.foldl (fun m j => if j < m then j else m) i

/-- A record's fields that an event's source gives; the rest start at 0. -/
def EventRecord.start (time : Nat) (sequence : Word) (source : Nat) : EventRecord :=
  ⟨time, sequence, source, 0, 0, 0, 0, 0, 0, 0, 0, 0, 0⟩

/-- The bounds of an event that are still to be met: slow's is met as the levels change, at once; the others wait for the banks of the tasks
they chose, for the power and, where states go to the siding, for the last line there (R319, R332).
(DEDUCED: log entry 71.) -/
def State.openBounds (s : State) (record : Option Nat) (g : Grade) (ids : List Word) : State :=
  let launches := (s.launches.filter fun l => l.task.any ids.contains).map (·.id)
  if g = .none ∨ g = .slow then s
  else { s with timing := { s.timing with unmet := s.timing.unmet ++ [⟨record, g.code, launches, true, g == .park || g == .stabled⟩] } }

/-- The record of an event with its grade is posted. -/
def State.postGraded (s : State) (r : EventRecord) (g : Grade) (ids : List Word) : State :=
  let k := s.timing.evHead.toNat
  (s.postEvent { r with
    grade := g.code, target := s.timing.target, met := if g = .slow then s.time else 0
    tasks := if g = .slow then 0 else ids.length, lowest := lowestId ids }).openBounds (some k) g ids

/-- When the last of the dies a region is to ungate will be awake: one each 250 us, 50 us after the last of those begins (R329). -/
def State.wakeEnd (s : State) (g : Fin 16) : Nat :=
  let r := s.regions[g]
  let first := max s.time ((r.lastGate.map (· + 250000)).getD 0)
  if r.ungateList.isEmpty then s.time else first + 250000 * (r.ungateList.length - 1) + 50000

/-- Stabled ends when hold has ended and the target exceeds 2,400 W: self-refresh ends, every die is ungated, and once the last is awake
threads start packets again and banks resume (R336). -/
def State.leaveStabled (s : State) : State :=
  if s.timing.stabled && !s.holdNow && 2400 < s.timing.target then
    let s := { s with
      timing := { s.timing with stabled := false, refresh := false }
      agenda := s.agenda.filter fun a => match a.2 with
        | .ungateDie _ => false
        | _ => true
      regions := tableOfFn fun i : Fin 16 => { s.regions[i] with gateList := [], ungateList := [], waking := none } }
    let s := (List.finRange 160).foldl (fun s d => if s.dies[d].gated then s.askUngate d.val else s) s
    let wake := (List.finRange 16).foldl (fun m g => max m (s.wakeEnd g)) s.time
    let s := { s with timing := { s.timing with wake := wake } }
    let s := (List.range 512).foldl (fun s q =>
      let k := (s.regions[(⟨q / 32 % 16, Nat.mod_lt _ (by decide)⟩ : Fin 16)]).queues[(⟨q % 32, Nat.mod_lt _ (by decide)⟩ : Fin 32)]
      if k.taken.any fun t => !t.started then s.schedule wake (.startPacket (queueNo q)) else s) s
    s.launches.foldl (fun s l => if l.unplaced then s.schedule wake (.placeBlock l.id) else s) s
  else s

/-- The grade that a task resumes from: stabled's or park's. -/
def State.gradeOf (s : State) (stabled : Bool) (id : Word) : Grade :=
  match s.tasks.find? (·.id == id) with
  | some t =>
    let banks := s.launchBanks t.launch
    if banks.any (fun p => (s.bank p.1 p.2).phase == .stopped .stabled) || (banks.isEmpty && stabled) then .stabled else .park
  | none => .park

/-- Tasks that have resumed from a grade are told of in a record of their own (R319). -/
def State.postResumed (s : State) (r : EventRecord) (g : Grade) (ids : List Word) : State :=
  if ids.isEmpty then s
  else s.postEvent { r with result := 3, grade := g.code, target := s.timing.target, tasks := ids.length, lowest := lowestId ids }

/-- What the present target allows: parked tasks resume, then points rise; a resumption posts its own record, with the source, sequence,
queue and stamp of the event that allowed it (R319, R324). -/
def State.raiseTasks (s : State) (e : EventRecord) : State :=
  let was := s.timing.stabled
  let s := s.leaveStabled
  if s.timing.stabled then s
  else
    let r := s.raiseLoop s.timing.target (9 * s.tasks.length) s.tasks []
    let from4 := r.2.filter fun i => s.gradeOf was i == .stabled
    let from2 := r.2.filter fun i => s.gradeOf was i == .park
    let s := s.setTasks r.1
    let s := r.2.foldl (fun s i => s.schedule (max s.time s.timing.wake) (.resumeTask i)) s
    (s.postResumed e .stabled from4).postResumed e .park from2

/-- The target in force is taken anew. Answers the grade of the event that its fall, or the beginning of hold, is. -/
def State.retarget (s : State) (hadHold contact : Bool) : State × Grade × List Word :=
  let old := s.timing.target
  let s := { s with timing := { s.timing with target := s.targetNow } }
  let holdBegins := s.holdNow && !hadHold
  if holdBegins || s.timing.target < old then s.takeGrade holdBegins contact else (s, .none, [])

/-- After an event that chose no grade, what a higher target or the end of hold allows follows (R324, R336, R337). -/
def State.followRise (s : State) (old : Nat) (g : Grade) (e : EventRecord) : State :=
  if g = .none && (old < s.timing.target || s.timing.stabled) then s.raiseTasks e else s

/-! ## Messages (R315-R318) -/

def msgNat (bs : List Byte) (off len : Nat) : Nat := natOfBytes ((bs.drop off).take len)
def msgPoint (bs : List Byte) (i : Nat) : Nat × Nat := (msgNat bs (64 + 16 * i) 8, msgNat bs (72 + 16 * i) 4)

/-- Check 1 of R316: the form of a message. -/
def messageBad (bs : List Byte) : Bool :=
  let n := msgNat bs 2 2
  let pts := (List.range n).map (msgPoint bs)
  msgNat bs 0 2 != 1 || n = 0 || 256 < n || bs.length != 64 + 16 * n + 4627
  || 4 ≤ msgNat bs 4 1 || msgNat bs 5 3 != 0 || slice (msgNat bs 32 2) 14 13 != 0 || msgNat bs 34 30 != 0
  || (List.range n).any (fun i => msgNat bs (76 + 16 * i) 4 != 0)
  || pts.any (fun p => 48000 < p.2)
  || (pts.head?.map (·.1)) != some (msgNat bs 16 8)
  || (pts.zip pts.tail).any (fun p => p.2.1 ≤ p.1.1)
  || pts.any (fun p => msgNat bs 24 8 ≤ p.1)

/-- The reason a message is refused for; none when it is accepted (R316). -/
def State.refusal (s : State) (bs : List Byte) : Option Nat :=
  let n := msgNat bs 2 2
  if messageBad bs then some 4
  else if msgNat bs 32 2 / 32768 != 1 && msgNat bs 32 2 % 8192 != s.panelId.toNat then some 5
  else if (s.station.facility == 0 || !Config.mldsaVerify s.station.facility.toNat (sha3 (bs.take (64 + 16 * n))) (bs.drop (64 + 16 * n))) then some 1
  else if msgNat bs 8 8 ≤ s.timing.sequence.toNat then some 2
  else if msgNat bs 24 8 ≤ s.time then some 3
  else none

/-- The timetable a message states. -/
def tableOf (bs : List Byte) : Timetable where
  sequence := BitVec.ofNat 64 (msgNat bs 8 8)
  first := msgNat bs 16 8
  last := msgNat bs 24 8
  points := (List.range (msgNat bs 2 2)).map (msgPoint bs)
  shed := msgNat bs 4 1 % 2 == 1
  hold := msgNat bs 4 1 / 2 % 2 == 1

/-- The next point of the timetable in force is awaited. -/
def State.awaitPoint (s : State) : State :=
  match (s.timing.inForce).bind fun tt => (tt.points.find? fun p => s.time < p.1) with
  | some p => s.schedule p.1 .timetablePoint
  | none => s

/-- A timetable goes into force. Answers the grade of the event. -/
def State.enforce (s : State) (tt : Timetable) : State × Grade × List Word :=
  let had := s.holdNow
  ({ s with timing := { s.timing with inForce := some tt } }.awaitPoint).retarget had false

/-- A message reaches the unit by one of its paths: source 0, 1 or 2, and for a BUDGET packet its queue and stamp (R316-R319). A
message accepted after a failed contact or during a takeover is treated alike. -/
def State.receiveMessage (s : State) (bs : List Byte) (source queue stamp : Nat) : State :=
  let seq : Word := BitVec.ofNat 64 (msgNat bs 8 8)
  let rcd := { EventRecord.start s.time seq source with queue := queue, stamp := stamp % 65536 }
  match s.refusal bs with
  | some reason => s.postEvent { rcd with result := 1, reason := reason, target := s.timing.target }
  | none =>
    let tt := tableOf bs
    let s := { s with timing := { s.timing with sequence := seq, pending := none } }
    if tt.first ≤ s.time then
      let old := s.timing.target
      let e := s.enforce tt
      (e.1.postGraded rcd e.2.1 e.2.2).followRise old e.2.1 rcd
    else
      ({ s with timing := { s.timing with pending := some tt } }.schedule tt.first .timetableInForce).postEvent
        { rcd with target := s.timing.target }

/-- The pending timetable goes into force at its valid from (R317). -/
def State.pendingInForce (s : State) : State :=
  match s.timing.pending with
  | some tt =>
    if tt.first ≤ s.time then
      let old := s.timing.target
      let e := { s with timing := { s.timing with pending := none } }.enforce tt
      if e.2.1 = .none then e.1.followRise old .none (EventRecord.start s.time tt.sequence 3)
      else
        let v : BitVec 8 × State := e.1.draw 8
        v.2.postGraded { EventRecord.start s.time tt.sequence 3 with result := v.1.toNat } e.2.1 e.2.2
    else s
  | none => s

/-- The timetable's own target falls at the last point reached (R319). -/
def Timetable.falls (tt : Timetable) (t : Nat) : Bool :=
  match (tt.points.filter fun p => p.1 ≤ t).reverse with
  | p :: q :: _ => p.2 < q.2
  | _ => false

/-- A point of the timetable in force is reached (R317, R319). Each fall from one point to the next has its record, one that leaves the
target in force as it is with no grade. What result the record holds the manual does not say: a free value. -/
def State.reachPoint (s : State) : State :=
  let old := s.timing.target
  let r := EventRecord.start s.time (((s.timing.inForce).map (·.sequence)).getD 0) 3
  let e := s.awaitPoint.retarget s.holdNow false
  if e.2.1 = .none && !(s.timing.inForce.any (·.falls s.time)) then e.1.followRise old .none r
  else
    let v : BitVec 8 × State := e.1.draw 8
    (v.2.postGraded { r with result := v.1.toNat } e.2.1 e.2.2).followRise old e.2.1 r

/-! ## Contacts (R330) -/

/-- Contact S has changed at a time. -/
def State.changeS (s : State) (isOpen : Bool) (time : Nat) : State :=
  let had := s.holdNow
  let old := s.timing.target
  let s := { s with timing := { s.timing with contactS := isOpen } }
  let e := s.retarget had isOpen
  if isOpen then e.1.postGraded { EventRecord.start time 0 4 with result := 2 } e.2.1 e.2.2
  else e.1.followRise old e.2.1 (EventRecord.start time 0 4)

/-- contact.limit is written: while contact S is open the target in force follows it, and its fall is an event (R320, R330, R331), of which
R319 lists no record.
(DESIGN CHOICE: log entry 124.) -/
def State.writeLimit (s : State) (watts : BitVec 32) : State :=
  let old := s.timing.target
  let e := { s with timing := { s.timing with limit := watts } }.retarget s.holdNow false
  (e.1.openBounds none e.2.1 e.2.2).followRise old e.2.1 (EventRecord.start s.time 0 4)

/-- Contact H has changed at a time. -/
def State.changeH (s : State) (isOpen : Bool) (time : Nat) : State :=
  let had := s.holdNow
  let s := { s with timing := { s.timing with contactH := isOpen } }
  let e := s.retarget had false
  if isOpen then e.1.postGraded { EventRecord.start time 0 4 with result := 2 } e.2.1 e.2.2 else e.1.raiseTasks (EventRecord.start time 0 4)

/-- The station samples both contacts: a change counts when two consecutive samples agree, from the first of the two. -/
def State.sampleContacts (s : State) (cs ch : Bool) : State :=
  if s.station.active.isNone then s
  else
    let t := s.timing
    let first := t.sampleAt
    let s := { s with timing := { t with lastS := cs, lastH := ch, sampleAt := s.time } }
    let s := if cs = t.lastS && cs != t.contactS then s.changeS cs first else s
    if ch = t.lastH && ch != t.contactH then s.changeH ch first else s

/-! ## Telemetry (R320, R325, R319 bytes 24-39) -/

/-- Eight bytes of a posted record are rewritten, in the ring where it still stands, and among those kept. -/
def State.rewriteRecord (s : State) (k offset : Nat) (value : Nat) : State :=
  let t := s.timing
  let head := t.evHead.toNat
  let firstKept := head - t.evKept.length
  let put (bs : List Byte) : List Byte := bs.take offset ++ bytesOfNat value 8 ++ bs.drop (offset + 8)
  let kept := t.evKept.zipIdx.map fun e => if firstKept + e.2 = k then put e.1 else e.1
  let s := { s with timing := { t with evKept := kept } }
  if ringEnable t.evBase && head ≤ k + 2 ^ ringLgn t.evBase then
    s.agentWrite (ringBase t.evBase + 64 * (k % 2 ^ ringLgn t.evBase) + offset) (bytesOfNat value 8)
  else s

/-- The band about the target over 1 ms, in hundredths of a watt (R325). -/
def bandOf (w : Nat) : Nat := max (2 * w) 40000

/-- Measured power is within its band: over the last 1 ms and the last 100 us about the target, and while stabled at most 2,400 W (R325,
R332, R335). -/
def State.withinBand (s : State) (grade : Nat) : Bool :=
  let w := s.timing.target
  let xs := s.timing.samples
  let ys := xs.drop (xs.length - 10)
  if grade = 4 then xs.sum ≤ 2400 * xs.length && ys.sum ≤ 2400 * ys.length
  else 100 * xs.sum ≤ (100 * w + bandOf w) * xs.length && 100 * ys.sum ≤ 106 * w * ys.length

/-- The banks an event chose have stopped, and so power can be judged. -/
def State.powerMet (s : State) (u : Unmet) : Bool :=
  s.withinBand u.grade && u.launches.all fun id => (s.heldBanks id).all fun p => (s.bank p.1 p.2).phase != .run

/-- The last state an event sent to the siding is there: no bank of its launches is in its row, and of their working sets nothing is left
in tier 0 or moving. -/
def State.demotionMet (s : State) (u : Unmet) : Bool :=
  s.launches.all fun l => !u.launches.contains l.id ||
    (s.banksAway l.id && (s.workingSet l).isEmpty && (s.boundTiles l).all fun t => !s.isMoving t.1)

/-- One event's bounds are looked at; what is met is noted in its record. -/
def State.meetOne (s : State) (u : Unmet) : State :=
  let power := u.power && s.powerMet u
  let demotion := u.demotion && s.demotionMet u
  let note (s : State) (met : Bool) (offset : Nat) : State :=
    match met, u.record with
    | true, some k => s.rewriteRecord k offset s.time
    | _, _ => s
  let s := note (note s power 24) demotion 32
  let left := { u with power := u.power && !power, demotion := u.demotion && !demotion }
  { s with timing := { s.timing with unmet := s.timing.unmet ++ (if left.power || left.demotion then [left] else []) } }

/-- The bounds of every event that still has one to meet are looked at. -/
def State.meetBounds (s : State) : State :=
  s.timing.unmet.foldl State.meetOne { s with timing := { s.timing with unmet := [] } }

/-- A stabled panel whose states are all in the siding and whose dies are all gated puts HBM4 and LPDDR-6 into self-refresh (R335). -/
def State.settleStabled (s : State) : State :=
  if s.timing.stabled && s.moves.isEmpty && (List.finRange 160).all (fun d => !s.dieServes d.val) then
    { s with timing := { s.timing with refresh := true } }
  else s

/-- A sample of every region's power: the registers, the mean of the last 1 ms, and the bounds it meets.
(DEDUCED: log entry 71.) -/
def State.sampleTelemetry (s : State) (watts : List Nat) : State :=
  let total := (watts.take 16).sum
  let samples := capTo 100 (s.timing.samples ++ [total])
  let mean := samples.sum / samples.length
  let s := { s with regions := tableOfFn fun i : Fin 16 => { s.regions[i] with power := BitVec.ofNat 32 ((watts[i.val]?).getD 0) }
                    timing := { s.timing with samples := samples, power := BitVec.ofNat 32 mean } }
  s.settleParks.meetBounds.settleStabled

/-! ## Permits (R327) -/

/-- The charge of a class. -/
def Region.charge (g : Region) (c : Fin 8) : Nat :=
  let w := if c.val < 4 then g.chgLo else g.chgHi
  slice w.toNat (16 * (c.val % 4) + 15) (16 * (c.val % 4))

/-- The order of requests: ascending panel row, then bank. -/
def insertReq (q : PermitReq) : List PermitReq → List PermitReq
  | [] => [q]
  | a :: l => if q.row < a.row || (q.row = a.row && q.side = .a && a.side = .b) then q :: a :: l else a :: insertReq q l

/-- The requests a window grants, in order (R327). -/
def Region.grants (g : Region) : Nat → List PermitReq → List PermitReq
  | _, [] => []
  | granted, q :: qs =>
    let c := g.charge q.cls
    if granted = 0 && g.istep.toNat < c then [q]
    else if g.istep.toNat < granted + c then []
    else q :: g.grants (granted + c) qs

/-- A window starts at a governor: its requests are granted, once for each window, and never while the droop stretch is active (R327).
Panel time becomes the next multiple of 200 ns.
(DEDUCED: log entry 147.) -/
def State.permitWindow (s : State) (g : RegionId) : State :=
  let t := nextWindow s.time
  let s := { s with time := t }
  let rg := s.regions[g]
  if rg.droop then s
  else if rg.lastWindow = some t then (if rg.requests.isEmpty then s else s.askWindow g (t + 200))
  else
    let ready := (rg.requests.filter fun q => q.time ≤ t).foldl (fun l q => insertReq q l) []
    let won := rg.grants 0 ready
    let s := s.modRegion g fun r => { r with requests := r.requests.filter (fun q => !won.contains q), lastWindow := some t }
    let s := won.foldl (fun (s : State) q => s.modBank q.row q.side fun b => { b with permit := .held q.cls }) s
    if (s.regions[g]).requests.isEmpty then s else s.askWindow g (t + 200)

/-! ## Droop (R328) -/

def State.droopAlarm (s : State) (g : RegionId) : State :=
  (s.modRegion g fun r => { r with droop := true, droops := r.droops + 1 }).raise (512 + g.val)
def State.droopEnd (s : State) (g : RegionId) : State :=
  let s := s.modRegion g fun r => { r with droop := false }
  if (s.regions[g]).requests.isEmpty then s else s.askWindow g (nextWindow s.time)

/-! ## Gating (R329) -/

/-- The governor may gate or ungate now: 250 us since the last. -/
def State.gateSpaced (s : State) (g : Fin 16) : Bool := (s.regions[g]).lastGate.all fun t => t + 250000 ≤ s.time

/-- A die is gated: its cache is flushed, its links, to edge dies too, are put to sleep (R17, R329). -/
def State.gateDie (s : State) (d : Nat) : State :=
  let named := s.juns.toList.flatMap fun j => ((j.home ++ j.routes).filter fun e => e.sharers.contains d || e.state == .owned d).map (·.line)
  let s := (s.dies[dieNo d].cache.map (·.line) ++ named).foldl (fun s l => s.flushLine d l) s
  s.modDie (dieNo d) fun k =>
    { k with
      gated := true
      links := k.links.filter (·.2 == .failed) ++
        ((linksOfDie d).filter fun j => !(k.links.any fun l => l.1 == j && l.2 == .failed)).map fun j => (j, .asleep) }

/-- A governor gates the lowest of the dies it is to gate, under the spacing; one that no longer may be gated is passed over. What a gated
die saves may raise tasks (R319, R324, R329).
(DEDUCED: log entry 76. DEDUCED: log entry 92.) -/
def State.gateNext (s : State) (g : RegionId) : State :=
  let rg := s.regions[g]
  let list := rg.gateList.filter s.gateable
  let s := s.modRegion g fun r => { r with gateList := list }
  match list with
  | [] => s
  | d :: rest =>
    if !s.gateSpaced g then s.schedule (rg.lastGate.getD 0 + 250000) (.gateDies g)
    else
      let s := (s.gateDie d).modRegion g fun r => { r with lastGate := some s.time, gateList := rest }
      let s := if rest.isEmpty then s else s.schedule (s.time + 250000) (.gateDies g)
      (if s.tasks.isEmpty then s else s.schedule s.time .headroom).settleStabled

/-- Something needs a die: a block to place, a block of a resuming task parked on it, or the exit from stabled (R329). -/
def State.dieWanted (s : State) (d : DieId) : Bool :=
  (s.timing.wake != 0 && decide (s.time ≤ s.timing.wake)) ||
  ((List.range 64).any fun i => [Side.a, Side.b].any fun x =>
    let b := s.bank (64 * d.val + i) x
    b.inSiding && s.tasks.any fun t => t.launch == b.info.launch && !t.parked && !t.cancelled) ||
  s.launches.any fun l => s.mayPlace l && s.dieFor l == some d.val

/-- A governor begins to ungate the lowest of the dies it is to ungate, under the spacing: its links begin to wake, and it is awake 50 us
later; one that nothing needs any more is passed over (R329, R363).
(DEDUCED: log entry 76. DEDUCED: log entry 92.) -/
def State.ungateNext (s : State) (g : RegionId) : State :=
  let rg := s.regions[g]
  let list := if s.timing.stabled then [] else rg.ungateList.filter fun d => s.dies[dieNo d].gated && s.dieWanted (dieNo d)
  let s := s.modRegion g fun r => { r with ungateList := list }
  match list with
  | [] => s
  | d :: rest =>
    if !s.gateSpaced g then s.schedule (rg.lastGate.getD 0 + 250000) (.ungateDies g)
    else
      let s := s.modRegion g fun r => { r with lastGate := some s.time, ungateList := rest, waking := some d }
      let s := s.modDie (dieNo d) fun k => { k with links := k.links.map fun l => (l.1, if l.2 = .asleep then .waking else l.2) }
      let s := s.schedule (s.time + 50000) (.ungateDie (dieNo d))
      if rest.isEmpty then s else s.schedule (s.time + 250000) (.ungateDies g)

/-- A gated die is awake again, 50 us after its ungating began, under the spacing of its region; what waited for it goes on, and what it
draws may lower tasks (R324, R329). -/
def State.ungate (s : State) (d : DieId) : State :=
  let g : Fin 16 := regionOf (64 * d.val)
  let rg := s.regions[g]
  let begun := rg.waking == some d.val
  if !s.dies[d].gated || s.timing.stabled then s
  else if rg.lastGate.any fun t => s.time < (if begun then t + 50000 else t + 300000) then (if begun then s else s.askUngate d.val)
  else
    let s := s.modDie d fun k => { k with gated := false, links := k.links.filter (·.2 == .failed) }
    let s := s.modRegion g fun r =>
      { r with
        lastGate := if begun then r.lastGate else some (s.time - 50000)
        waking := if begun then none else r.waking
        ungateList := r.ungateList.filter (· != d.val) }
    s.lowerTasks.wakeTasks.tryLaunches

/-! ## Starting a task (R322, R324) -/

/-- The points of a TASK's table (R306).
(DESIGN CHOICE: log entry 118.) -/
def State.readPoints (s : State) (table n : Nat) : List OpPoint :=
  (List.range n).map fun i =>
    let w := s.physNat (table + 16 * i) 8
    ⟨⟨slice w 2 0 % 8, Nat.mod_lt _ (by decide)⟩, slice w 29 16, slice (s.physWord (table + 16 * i + 8)).toNat 51 0⟩

/-- What a task does at its start: it has no point, it must wait, or it starts at a point with its launch. -/
inductive TaskStart where
  | none
  | wait
  | start (t : Task)

def State.taskStart (s : State) (body : TaskBody) (id : Nat) : TaskStart :=
  let ps := s.readPoints body.table.toNat body.points.toNat
  let cls : Fin 8 := ⟨body.cls.toNat % 8, Nat.mod_lt _ (by decide)⟩
  let t (i : Nat) : Task := ⟨body.task, cls, body.deadline.toNat, ps, i, false, id, false, [], false⟩
  let can := s.choosable ps
  if can.isEmpty then .none
  else if s.timing.stabled || (s.tasks.any fun u => (u.parked || u.cancelled) && u.cls.val ≤ cls.val) then .wait
  else
    match highestPoint ps (fun i => s.fits s.timing.target (s.tasks ++ [t i])) can with
    | some i => .start (t i)
    | none => .wait

end Sys2Proof.Machine
end

