-- ==== Sys2Proof/Machine/Bundle.lean ====
section
/-! DEFINITION. From the instruction store to an issued bundle: fetch with the loop buffer, stepping, the decode checks, the cycle of a
row with its two banks, and the switch between them (R63-R65, R99, R104, R222-R229, R238). -/

namespace Sys2Proof.Machine

/-! ## Fetch (R63, R99, R106) -/

/-- What the running loops' buffers hold for the current bundle: a loop past its first pass replays what it captured. -/
def replay (frames : List Frame) : Option (List (BitVec 32)) :=
  (frames.zip (staticOffsets 0 frames)).findSome? fun p => if p.1.pass = 0 then none else Sparse.find p.1.buffer p.2

/-- The syllables of the bundle a bank is at: at most eight. -/
def State.fetch (s : State) (n : Nat) (x : Side) : List (BitVec 32) :=
  let b := s.bank n x
  (replay b.frames).getD (s.bundleFrom n x 8 b.pc.toNat)

/-- Each running loop in its first pass captures the bundle as it issues.
(DEDUCED: log entry 19.) -/
def Bank.capture (b : Bank) (ws : List (BitVec 32)) : Bank :=
  { b with frames := (b.frames.zip (staticOffsets 0 b.frames)).map fun p =>
      if p.1.pass = 0 then { p.1 with buffer := Sparse.put p.1.buffer p.2 ws } else p.1 }

/-! ## Stepping (R103, R104) -/

/-- The lowest bit and the width of the field an entry steps. -/
def stepPlace : StepField → Nat × Nat
  | .d => (17, 5) | .a => (12, 5) | .b => (7, 5) | .q => (4, 3) | .imm => (0, 12)

/-- A syllable with a field advanced by `delta`, wrapping in the field. -/
def stepWord (w : BitVec 32) (f : StepField) (delta : Int) : BitVec 32 :=
  let p := stepPlace f
  let old := w.toNat / 2 ^ p.1 % 2 ^ p.2
  BitVec.ofNat 32 (w.toNat - old * 2 ^ p.1 + wrap (old + delta) p.2 * 2 ^ p.1)

/-- One entry's part in a bundle: nothing unless it is bound, the bundle stands at its offset in the loop it is bound to, and a syllable
has its unit. -/
def stepEntry (frames : List Frame) (ws : List (BitVec 32)) (e : StepEntry) : List (BitVec 32) :=
  match e.bound with
  | none => ws
  | some d =>
    let i := frames.length - 1 - d
    match frames[i]?, (staticOffsets 0 frames)[i]? with
    | some f, some o =>
      if d < frames.length && e.fields.active && o == e.fields.offset.val then
        ws.map fun w => if sylUnit w = e.fields.unit.val then
          stepWord w e.fields.field (e.fields.step.toInt * ((f.pass % (e.fields.mod.val + 1) : Nat) : Int)) else w
      else ws
    | _, _ => ws

/-- The bundle as decoded: every bound entry applied in ascending number. -/
def Bank.stepped (b : Bank) (ws : List (BitVec 32)) : List (BitVec 32) := b.steps.toList.foldl (stepEntry b.frames) ws

/-! ## The decode checks (R64, R65, R214) -/

/-- A decode trap reported for a syllable (R64, R231). -/
def decodeTrap (t : Trap) (w : BitVec 32) : TrapInfo :=
  { TrapInfo.row t with unit := ⟨sylUnit w % 8, Nat.mod_lt _ (by decide)⟩, encoding := w }

/-- The first syllable whose unit is not above the one before it. -/
def firstDisorder : List (BitVec 32) → Option (BitVec 32)
  | a :: b :: ws => if sylUnit b ≤ sylUnit a then some b else firstDisorder (b :: ws)
  | _ => none

/-- The parts of a bundle, or its first syllable that is no instruction. -/
def partsOf (sylOf : Instr → Option Syl) : List (BitVec 32) → Except (BitVec 32) (List Part)
  | [] => .ok []
  | w :: ws =>
    match decodeSyl w with
    | .ok i =>
      match sylOf i with
      | some y =>
        match partsOf sylOf ws with
        | .ok ps => .ok (⟨y, w⟩ :: ps)
        | .error e => .error e
      | none => .error w
    | .error _ => .error w

/-- The first syllable, in bundle order, whose write set meets that of an earlier one. -/
def firstConflict : List Loc → List Part → Option (BitVec 32)
  | _, [] => none
  | seen, p :: ps => if p.syl.writes.any seen.contains then some p.word else firstConflict (seen ++ p.syl.writes) ps

/-- The decode checks in their order: the bundle's parts, or its trap.
(DEDUCED: log entry 40.) -/
def decodeBundle (sylOf : Instr → Option Syl) (b : Bank) (ws : List (BitVec 32)) : Except TrapInfo (List Part) :=
  if bundleLong ws then .error (decodeTrap .bundleLong (ws.getLast?.getD 0))
  else
    match firstDisorder ws with
    | some w => .error (decodeTrap .bundleOrder w)
    | none =>
      match partsOf sylOf ws with
      | .error w => .error (decodeTrap .illegalOp w)
      | .ok ps =>
        match ps.find? fun p => !p.syl.permitted b with
        | some p => .error (privTrap p)
        | none =>
          if 1024 < (ps.map (·.syl.width)).sum then
            .error (decodeTrap .vwidthOver (((ps.filter (·.syl.width != 0)).getLast?.map (·.word)).getD 0))
          else
            match firstConflict [] ps with
            | some w => .error (decodeTrap .bundleConflict w)
            | none => .ok ps

/-! ## The syllable of an instruction -/

/-- What the issue machinery runs for an instruction; an event has no syllable. -/
def sylOf : Instr → Option Syl
  | .add u d a b q => some (sylAdd u d a b q)
  | .sub u d a b q => some (sylSub u d a b q)
  | .mul u d a b q => some (sylMul u d a b q)
  | .mulh u d a b q => some (sylMulh u d a b q)
  | .mulhn u d a b q => some (sylMulhn u d a b q)
  | .div u d a b q => some (sylDiv u d a b q)
  | .divn u d a b q => some (sylDivn u d a b q)
  | .rem u d a b q => some (sylRem u d a b q)
  | .remn u d a b q => some (sylRemn u d a b q)
  | .and u d a b q => some (sylAnd u d a b q)
  | .or u d a b q => some (sylOr u d a b q)
  | .xor u d a b q => some (sylXor u d a b q)
  | .andn u d a b q => some (sylAndn u d a b q)
  | .shl u d a b q => some (sylShl u d a b q)
  | .shr u d a b q => some (sylShr u d a b q)
  | .sar u d a b q => some (sylSar u d a b q)
  | .rol u d a b q => some (sylRol u d a b q)
  | .min u d a b q => some (sylMin u d a b q)
  | .max u d a b q => some (sylMax u d a b q)
  | .minn u d a b q => some (sylMinn u d a b q)
  | .maxn u d a b q => some (sylMaxn u d a b q)
  | .slt u d a b q => some (sylSlt u d a b q)
  | .sltn u d a b q => some (sylSltn u d a b q)
  | .seq u d a b q => some (sylSeq u d a b q)
  | .sne u d a b q => some (sylSne u d a b q)
  | .sel u d a b q => some (sylSel u d a b q)
  | .clz u d a q => some (sylClz u d a q)
  | .ctz u d a q => some (sylCtz u d a q)
  | .popc u d a q => some (sylPopc u d a q)
  | .sext u d a q m => some (sylSext u d a q m)
  | .zext u d a q m => some (sylZext u d a q m)
  | .mfs u d c => some (sylMfs u d c)
  | .chk u a b q m => some (sylChk u a b q m)
  | .addi u d a imm => some (sylAddi u d a imm)
  | .andi u d a imm => some (sylAndi u d a imm)
  | .ori u d a imm => some (sylOri u d a imm)
  | .xori u d a imm => some (sylXori u d a imm)
  | .shli u d a n => some (sylShli u d a n)
  | .shri u d a n => some (sylShri u d a n)
  | .sari u d a n => some (sylSari u d a n)
  | .li u d imm => some (sylLi u d imm)
  | .lui u d imm => some (sylLui u d imm)
  | .vadd u d a b q w t => some (sylVadd u d a b q w t)
  | .vsub u d a b q w t => some (sylVsub u d a b q w t)
  | .vmul u d a b q w t => some (sylVmul u d a b q w t)
  | .vmulh u d a b q w t => some (sylVmulh u d a b q w t)
  | .vmin u d a b q w t => some (sylVmin u d a b q w t)
  | .vmax u d a b q w t => some (sylVmax u d a b q w t)
  | .vabs u d a q w t => some (sylVabs u d a q w t)
  | .vneg u d a q w t => some (sylVneg u d a q w t)
  | .vand u d a b q w => some (sylVand u d a b q w)
  | .vor u d a b q w => some (sylVor u d a b q w)
  | .vxor u d a b q w => some (sylVxor u d a b q w)
  | .vandn u d a b q w => some (sylVandn u d a b q w)
  | .vshl u d a b q w t => some (sylVshl u d a b q w t)
  | .vshr u d a b q w t => some (sylVshr u d a b q w t)
  | .vsar u d a b q w t => some (sylVsar u d a b q w t)
  | .vadds u d a b q w t => some (sylVadds u d a b q w t)
  | .vsubs u d a b q w t => some (sylVsubs u d a b q w t)
  | .vfadd u d a b q w f => some (sylVfadd u d a b q w f)
  | .vfsub u d a b q w f => some (sylVfsub u d a b q w f)
  | .vfmul u d a b q w f => some (sylVfmul u d a b q w f)
  | .vfma u d a b q w f => some (sylVfma u d a b q w f)
  | .vfms u d a b q w f => some (sylVfms u d a b q w f)
  | .vfmin u d a b q w f => some (sylVfmin u d a b q w f)
  | .vfmax u d a b q w f => some (sylVfmax u d a b q w f)
  | .vfabs u d a q w f => some (sylVfabs u d a q w f)
  | .vfneg u d a q w f => some (sylVfneg u d a q w f)
  | .vexp2 u d a q w f => some (sylVexp2 u d a q w f)
  | .vlog2 u d a q w f => some (sylVlog2 u d a q w f)
  | .vrcp u d a q w f => some (sylVrcp u d a q w f)
  | .vrsqrt u d a q w f => some (sylVrsqrt u d a q w f)
  | .vcmp u d a b c w t => some (sylVcmp u d a b c w t)
  | .vfcmp u d a b c w f => some (sylVfcmp u d a b c w f)
  | .qand u d a b w => some (sylQand u d a b w)
  | .qor u d a b w => some (sylQor u d a b w)
  | .qxor u d a b w => some (sylQxor u d a b w)
  | .qnot u d a w => some (sylQnot u d a w)
  | .qcnt u d a w => some (sylQcnt u d a w)
  | .vsel u d a b q w => some (sylVsel u d a b q w)
  | .vcvt u d a c q w m => some (sylVcvt u d a c q w m)
  | .vbcast u d a q w t => some (sylVbcast u d a q w t)
  | .vext u d a b w t => some (sylVext u d a b w t)
  | .vperm u d a b q w t => some (sylVperm u d a b q w t)
  | .vred u d a o q w => some (sylVred u d a o q w)
  | .vscan u d a o q w => some (sylVscan u d a o q w)
  | .vpack u d a q w => some (sylVpack u d a q w)
  | .vunpack u d a b q w f => some (sylVunpack u d a b q w f)
  | .vchk u a b q w c => some (sylVchk u a b q w c)
  | .ldLS d a off => some (sylLdLS d a off)
  | .ldLV d a off => some (sylLdLV d a off)
  | .stLS d a off => some (sylStLS d a off)
  | .stLV d a off => some (sylStLV d a off)
  | .ldQS d a off => some (sylLdQS d a off)
  | .ldQV d a off => some (sylLdQV d a off)
  | .stQS d a off => some (sylStQS d a off)
  | .stQV d a off => some (sylStQV d a off)
  | .ldt a b v => some (sylLdt a b v)
  | .stt d a b v => some (sylStt d a b v)
  | .ldg a v off => some (sylLdg a v off)
  | .stg d a v off => some (sylStg d a v off)
  | .tagq d a q => some (sylTagq d a q)
  | .tagset a b q => some (sylTagset a b q)
  | .tagclr a q => some (sylTagclr a q)
  | .tagclrAll q => some (sylTagclrAll q)
  | .atomAdd a b sc ret t => some (sylAtomAdd a b sc ret t)
  | .atomMin a b sc ret t => some (sylAtomMin a b sc ret t)
  | .atomMax a b sc ret t => some (sylAtomMax a b sc ret t)
  | .atomAnd a b sc ret t => some (sylAtomAnd a b sc ret t)
  | .atomOr a b sc ret t => some (sylAtomOr a b sc ret t)
  | .atomXor a b sc ret t => some (sylAtomXor a b sc ret t)
  | .atomSwap a b sc ret t => some (sylAtomSwap a b sc ret t)
  | .atomCas d a b sc ret t => some (sylAtomCas d a b sc ret t)
  | .arrive a b sc row => some (sylArrive a b sc row)
  | .waitp d a b sc => some (sylWaitp d a b sc)
  | .acq a sc row => some (sylAcq a sc row)
  | .rel a sc row => some (sylRel a sc row)
  | .discard a b n => some (sylDiscard a b n)
  | .pref a b w n => some (sylPref a b w n)
  | .vpush d a p => some (sylVpush d a p)
  | .mma d a b kb ka => some (sylMma d a b kb ka)
  | .mmaZ d a b kb ka => some (sylMmaZ d a b kb ka)
  | .mmaSat d a b kb ka => some (sylMmaSat d a b kb ka)
  | .mmaN d kb ka a z b n => some (sylMmaN d kb ka a z b n)
  | .tcfg d t c r => some (sylTcfg d t c r)
  | .tzero d => some (sylTzero d)
  | .trowW d a i q hi => some (sylTrowW d a i q hi)
  | .trowR d a i q hi => some (sylTrowR d a i q hi)
  | .tcolW d a i q hi => some (sylTcolW d a i q hi)
  | .tcolR d a i q hi => some (sylTcolR d a i q hi)
  | .tld d a b => some (sylTld d a b)
  | .tst d a b => some (sylTst d a b)
  | .cpyIn d a b h n => some (sylCpyIn d a b h n)
  | .cpyInR d a b h => some (sylCpyInR d a b h)
  | .cpyOut d a b h n => some (sylCpyOut d a b h n)
  | .cpyGat d a b h n => some (sylCpyGat d a b h n)
  | .cpySct d a b h n => some (sylCpySct d a b h n)
  | .cpyLl d a b h qw => some (sylCpyLl d a b h qw)
  | .send d a b q => some (sylSend d a b q)
  | .red d a b t sc => some (sylRed d a b t sc)
  | .seal d a b => some (sylSeal d a b)
  | .opn d a b => some (sylOpn d a b)
  | .nop n => some (sylNop n)
  | .kli d imm => some (sylKli d imm)
  | .kadd d a b => some (sylKadd d a b)
  | .ksub d a b => some (sylKsub d a b)
  | .kaddi d a imm => some (sylKaddi d a imm)
  | .kand d a b => some (sylKand d a b)
  | .kor d a b => some (sylKor d a b)
  | .kshl d a b => some (sylKshl d a b)
  | .kshr d a b => some (sylKshr d a b)
  | .kget d c => some (sylKget d c)
  | .kset a c => some (sylKset a c)
  | .kvote d a q m => some (sylKvote d a q m)
  | .br t => some (sylBr t)
  | .bz c t => some (sylBz c t)
  | .bnz c t => some (sylBnz c t)
  | .beq d a off => some (sylBeq d a off)
  | .bne d a off => some (sylBne d a off)
  | .blt d a off => some (sylBlt d a off)
  | .bge d a off => some (sylBge d a off)
  | .call t => some (sylCall t)
  | .ret => some (sylRet)
  | .loop c l => some (sylLoop c l)
  | .loopImmediate n l => some (sylLoopImmediate n l)
  | .lbreak c => some (sylLbreak c)
  | .lbreakUnconditional => some (sylLbreakUnconditional)
  | .sfmt a => some (sylSfmt a)
  | .wait d a => some (sylWait d a)
  | .bar id sc => some (sylBar id sc)
  | .fence sc => some (sylFence sc)
  | .lstep n e => some (sylLstep n e)
  | .leaveReq c => some (sylLeaveReq c)
  | .leaveRet => some (sylLeaveRet)
  | .seg => some (sylSeg)
  | .rdv id => some (sylRdv id)
  | .trap code => some (sylTrap code)
  | .halt => some (sylHalt)
  | .tret => some (sylTret)
  | .tretSkip => some (sylTretSkip)
  | .mtcr a c => some (sylMtcr a c)
  | .mfcr d c => some (sylMfcr d c)
  | .spawn d a => some (sylSpawn d a)
  | .rerun d a => some (sylRerun d a)
  | .bankctlYield => some (sylBankctlYield)
  | .bankctlHold => some (sylBankctlHold)
  | .bankctlRelease => some (sylBankctlRelease)
  | .bankctlArm a => some (sylBankctlArm a)
  | .bankctlDisarm => some (sylBankctlDisarm)
  | _ => none

/-! ## The bundle a bank presents (R63, R64, R67) -/

/-- The bundle a bank is at: fetched, stepped, decoded, captured as it issues, and presented; a decode trap is taken at once. -/
def State.presentBundle (s : State) (n : Nat) (x : Side) : State :=
  let b := s.bank n x
  let raw := s.fetch n x
  let next := b.pc + BitVec.ofNat 15 raw.length
  match decodeBundle sylOf b (b.stepped raw) with
  | .error t => s.trapBundle n x t next false
  | .ok parts =>
    let p := s.plan n x parts next
    let s := if p.isIssue then s.modBank n x (·.capture raw) else s
    s.present n x parts next

/-- The plan of the bundle a bank is at, if it decodes. -/
def State.bankPlan (s : State) (n : Nat) (x : Side) : Option Plan :=
  let b := s.bank n x
  let raw := s.fetch n x
  match decodeBundle sylOf b (b.stepped raw) with
  | .error _ => none
  | .ok parts => some (s.plan n x parts (b.pc + BitVec.ofNat 15 raw.length))

/-! ## A cycle of a row (R222-R229) -/

/-- A park has taken the bank's permit; it asked again as it resumed and issues nothing before the grant (R327). -/
def Bank.awaitsPermit (b : Bank) : Bool :=
  b.asking != some .permit && (match b.permit with
    | .waiting _ _ => true
    | _ => false)

/-- A cycle of a nop count or of a held window (R75, R79, R126, R168): an empty issue cycle, unless a due matrix step finds a reel empty
and freezes the row, or the skew line's error is found. -/
def State.windowCycle (s : State) (n : Nat) (x : Side) : State :=
  match (s.bank n x).late with
  | some e =>
    if e.due ≤ (s.bank n x).cycle then s.trapLate n x e
    else if (s.row n).stalled x then s.frozenCycle n x .reelEmpty false [] else s.emptyCycle n x false
  | none => if (s.row n).stalled x then s.frozenCycle n x .reelEmpty false [] else s.emptyCycle n x false

/-- The boundary at hand lies inside a held window: no switch and no stop is taken there (R225, R227). -/
def Bank.inWindowHeld (b : Bank) : Bool := b.heldLeft != 0 || b.verdict.isSome || b.voteHeld

/-- A cycle before a bank's next presentation: of a save, a restore or a rewind, which are freezes; or of its resumption, in which no freeze
acts and matrix time passes (R155, R167, R229, R243). -/
def State.waitCycle (s : State) (n : Nat) (x : Side) : State :=
  let b := s.bank n x
  let s := (s.modBank n x fun b =>
    { b with waitLeft := b.waitLeft - 1, frozenFor := b.frozenFor + (if b.frozen.isSome then 1 else 0) }).serve n
  if b.retouch && b.frozen.isNone then (s.matrixPass n x).beginDue n x else s

/-- The cycle of a bank that runs and holds the row. -/
def State.runCycle (s : State) (n : Nat) (x : Side) : State :=
  let b := s.bank n x
  match b.stopReq with
  | some k =>
    if b.waitLeft != 0 then s.waitCycle n x
    else if b.heldLeft != 0 || b.verdict.isSome then s.windowCycle n x
    else if b.voteHeld then s.presentBundle n x
    else s.stopBank n x k
  | none =>
    if b.waitLeft != 0 then s.waitCycle n x
    else if b.nopLeft != 0 || b.heldLeft != 0 then s.windowCycle n x
    else if b.awaitsPermit then s.frozenCycle n x .permit false []
    else s.presentBundle n x

/-- A bank that is frozen and does not hold the row: its requests stand, and it is ready once its conditions hold (R222, R224). -/
def State.pollBank (s : State) (n : Nat) (y : Side) : State :=
  let b := s.bank n y
  if b.phase = .run && b.frozen.isSome && b.waitLeft = 0 && b.nopLeft = 0 && b.heldLeft = 0 && b.stopReq.isNone then
    if b.awaitsPermit then s
    else
      match s.bankPlan n y with
      | some (.freeze _ _ fs) => fs.foldl (fun s f => f s) s
      | _ => s.modBank n y fun b => { b with frozen := none, frozenFor := 0 }
  else s

/-- What becomes of a bank that a request from outside stops while it does not hold the row (R227). -/
def State.stopIdle (s : State) (n : Nat) (y : Side) : State :=
  let b := s.bank n y
  match b.stopReq with
  | some .tileFault => if b.phase = .run then ((s.promoteFaults n y).stopBank n y .tileFault) else s
  | some k => if b.phase = .run then s.stopBank n y k else s.modBank n y fun b => { b with stopReq := none }
  | none => s

/-- A tile-faulted bank resumes when the frames it faulted on are resident; until then what is still absent is asked for (R280). -/
def State.resumeFaulted (s : State) (n : Nat) (x : Side) : State :=
  if (s.bank n x).phase != .stopped .tileFault then s
  else if s.faultsResident n x then s.resumeBank n x
  else s.promoteFaults n x

/-- What goes on in a bank that issues nothing more after its halt: its results land, its ports perform, its matrix steps begin and land
(R114, R167). The held cycles of the halt's own bundle pass (R221). -/
def State.coast (s : State) (n : Nat) (x : Side) : State :=
  if (s.bank n x).phase = .halted then
    let s := s.releaseBank n x
    if (s.bank n x).heldLeft != 0 then s.emptyCycle n x false else s.idleCycle n x false
  else s

/-- The end of a cycle for the matrix engine of a bank that runs and does not hold the row: matrix time passes, and a step that a reel held
back begins once the reels hold its entries (R164, R167, R250). That of a bank that bankctl.hold keeps stopped stands (R172).
(DEDUCED: log entry 142.) -/
def State.matrixAside (s : State) (n : Nat) (y : Side) : State :=
  if (s.bank n y).phase = .run then (s.matrixPass n y).beginDue n y else s.coast n y

/-- A step of the bank that holds the row, held back by a reel, begins at the end of the cycle that fills it; a resumed bank touches its
tiles first (R167, R168, R172). -/
def State.beginHeld (s : State) (n : Nat) (x : Side) : State :=
  let b := s.bank n x
  if b.phase = .run && b.waitLeft = 0 && !b.retouch then s.beginDue n x else s

/-- What goes on beside a row that issues: the oldest operation of the bank that waits, or else of the bank that holds the row once 64 issue
cycles have gone by, performs if it may; a walk is served, and every 64 issue cycles a move.
(DESIGN CHOICE: log entry 1.) -/
def State.tend (s : State) (n : Nat) : State :=
  let x := (s.row n).holder
  let t := match s.pend.find? fun q => q.row == n && (q.side != x || q.cycle + 64 ≤ (s.bank n x).cycle) && s.enabled q with
    | some q => s.perform q
    | none => s
  let t := t.walkNext n
  if (s.bank n x).cycle % 64 = 0 then t.completeFirstMove else t

/-- What goes on in a row beside the bank that holds it. -/
def State.rowUpkeep (s : State) (n : Nat) : State :=
  let y := otherSide (s.row n).holder
  let s := (((((s.beginHeld n (s.row n).holder).portsPass n y).matrixAside n y).tend n).stopIdle n y).pollBank n y
  let s := [Side.a, Side.b].foldl (fun (s : State) x =>
    ((((s.completeBlock n x).emptyFailed n x).resumeFaulted n x).moveToSiding n x).noteKilled n x) s
  s.modRow n Row.nextHandler

/-- The row passes to a bank (R225, R228, R229).
(DEDUCED: log entry 39.) -/
def State.switchTo (s : State) (n : Nat) (y : Side) (cond : Bool) : State :=
  let s := (s.captureBank n (otherSide y)).releaseBank n y
  let s := s.modRow n fun r => { r with holder := y, switch := 4, tookCond := cond, yielding := false }
  s.modBank n y fun b => { b with since := 0, frozenFor := 0 }

/-- Why the row would pass to the other bank at this boundary (R225, R218): under the first two conditions, or otherwise. -/
inductive Switch where
  | stay
  | take (cond : Bool)
deriving DecidableEq, Repr

def State.switchDue (s : State) (n : Nat) : Switch :=
  let r := s.row n
  let x := r.holder
  let y := otherSide x
  let bx := r.bank x
  let by' := r.bank y
  if r.switch != 0 || ((bx.phase = .run || bx.phase = .halted) && bx.inWindowHeld) then .stay
  else if bx.phase = .run then
    if (bx.waitLeft != 0 && bx.frozen == some .tileSave) then .stay
    else if !r.ready y then .stay
    else if (bx.frozen.isSome && 32 ≤ bx.frozenFor) || 256 ≤ bx.since then .take true
    else if (r.tookCond && bx.frozen.isSome) || r.yielding then .take false
    else .stay
  else if r.ready x then .stay
  else if r.ready y then .take false
  else if by'.phase = .run then .take true
  else .stay

/-- The boundary at the end of a cycle: upkeep, then the switch that is due. A yield stands through a held window (R218, R225). -/
def State.rowBoundary (s : State) (n : Nat) : State :=
  let s := s.rowUpkeep n
  match s.switchDue n with
  | .take c => s.switchTo n (otherSide (s.row n).holder) c
  | .stay => s.modRow n fun r => { r with yielding := r.yielding && (r.bank r.holder).inWindowHeld }

/-- One cycle of a row. -/
def State.rowCycle (s : State) (n : Nat) : State :=
  let r := s.row n
  if r.retired then s
  else if r.switch != 0 then
    let s := (((s.modRow n fun r => { r with switch := r.switch - 1 }).matrixAside n .a).matrixAside n .b).serve n
    s.portsPass n (otherSide r.holder)
  else if (r.bank r.holder).phase = .run then (s.runCycle n r.holder).rowBoundary n
  else ((s.coast n r.holder).serve n).rowBoundary n

/-! ## Which instruction a step runs -/

/-- The bundle of one syllable that the bank holding the current row presents next, outside any loop. -/
def State.due (s : State) : Option Instr :=
  let n := s.cur
  let r := s.row n
  let x := r.holder
  if !r.retired && s.presents n x && !(r.bank x).awaitsPermit && (r.bank x).frames.isEmpty then
    let w := s.syllableAt n x (r.bank x).pc.toNat
    if w.getLsbD 31 then
      match decodeSyl w with
      | .ok i => some i
      | .error _ => none
    else none
  else none

/-- A row with a bank that is not empty. -/
def Row.active (r : Row) : Bool := !r.retired && (r.a.phase != .empty || r.b.phase != .empty)

/-- The turn goes to the next row, in ascending number, that has a bank with work; queues whose oldest taken packet has not started look
at their conditions again. -/
def State.turn (s : State) : State :=
  let act := (s.rows.filter fun r => r.2.active).map (·.1)
  let s := s.blocked.foldl (fun (s : State) q => s.schedule s.time (.startPacket (queueNo q))) s
  { s with cur := ((act.find? (s.cur < ·)).orElse fun _ => act.head?).getD s.cur }

end Sys2Proof.Machine
end

