-- ==== Sys2Proof/Machine/Rerun.lean ====
section
/-! DEFINITION. Rerun of a traced launch: the judgement of its waybill headers, selection by write generation, rounds, stuck blocks, and
the end sequence; the answers to spawn and rerun (R217, R344, R346-R350). -/

namespace Sys2Proof.Machine

/-! ## Headers and runs as memory holds them (R339, R340) -/

def State.hdrNat (s : State) (area b off len : Nat) : Nat := s.farNat (headerAt area b + off) len
def State.hdrGen (s : State) (area b : Nat) : Word := BitVec.ofNat 64 (s.hdrNat area b 0 8)
def State.hdrRecord (s : State) (area : Nat) : Nat := s.hdrNat area 0 8 8 % 2 ^ 52
def State.hdrBlocks (s : State) (area : Nat) : Nat := s.hdrNat area 0 20 4
def State.hdrState (s : State) (area b : Nat) : Nat := s.hdrNat area b 28 1
def State.hdrUntraced (s : State) (area b : Nat) : Bool := (s.hdrState area b).testBit 1

/-- The runs of a block, as its area lists them. -/
def State.hdrRuns (s : State) (area b : Nat) : List Run :=
  (List.range (s.hdrNat area b 29 1 + s.hdrNat area b 30 1)).map fun i =>
    let p := headerAt area b + 64 + 16 * i
    let w := s.farNat p 4
    ⟨w.testBit 31, BitVec.ofNat 20 w, BitVec.ofNat 32 (s.farNat (p + 4) 4), BitVec.ofNat 32 (s.farNat (p + 8) 4)⟩

/-- The headers are malformed, or the record they name starts no launch (R347). The area may lie in another panel's frames (R217, R253).
(DEDUCED: log entry 65. DEDUCED: log entry 123.) -/
def State.headersBad (s : State) (area : Nat) : Bool :=
  let record := s.hdrRecord area
  let blocks := s.hdrBlocks area
  s.farBad area (1088 * s.hdrBlocks area) 64 || s.recordBad record || !s.recTraced record || s.recBlocks record != blocks
  || (List.range blocks).any fun b =>
      s.hdrNat area b 16 4 != b || s.hdrNat area b 20 4 != blocks || s.hdrNat area b 8 8 != record
      || s.hdrGen area b != s.hdrGen area 0 || 64 < s.hdrNat area b 29 1 + s.hdrNat area b 30 1

/-! ## Selection (R346, R348) -/

/-- A tile of a tensor of the launch's address space is dirtied since a generation. -/
def State.dirtied (s : State) (l : Launch) (since : Word) (tensor tile : Nat) : Bool :=
  let d := s.readDesc l.tableBase tensor
  tile < descCount d && since.toNat < (s.physWord (descBase d + 8 * descCount d + 8 * tile)).toNat

/-- A read run meets a dirtied tile. -/
def State.runDirtied (s : State) (l : Launch) (since : Word) (r : Run) : Bool :=
  !r.write &&
  (let d := s.readDesc l.tableBase r.tensor.toNat
   (List.range (min r.count.toNat (descCount d - r.first.toNat))).any fun i => s.dirtied l since r.tensor.toNat (r.first.toNat + i))

/-- A block qualifies by what it read; an untraced block counts as having read every tile. -/
def State.reached (s : State) (l : Launch) (area : Nat) (since : Word) (b : Nat) : Bool :=
  s.hdrUntraced area b || (s.hdrRuns area b).any (s.runDirtied l since)

/-- The first selection. -/
def State.firstSelection (s : State) (l : Launch) (area : Nat) (since : Word) : List Nat :=
  (List.range l.blocks).filter fun b => !(s.hdrState area b).testBit 0 || s.reached l area since b

/-- Two runs share a tile. -/
def Run.meets (r q : Run) : Bool :=
  r.tensor == q.tensor && r.first.toNat < q.first.toNat + q.count.toNat && q.first.toNat < r.first.toNat + r.count.toNat

/-- What block c wrote meets what block b read (R349). -/
def State.wroteInto (s : State) (area c b : Nat) : Bool :=
  let writes := (s.hdrRuns area c).filter (·.write)
  let reads := (s.hdrRuns area b).filter fun r => !r.write
  if s.hdrUntraced area c then true
  else if s.hdrUntraced area b then !writes.isEmpty
  else writes.any fun w => reads.any (Run.meets w)

/-! ## The request, the rounds and the end (R347-R350) -/

/-- How a rerun request is taken: malformed, refused, or accepted with its launch id. -/
inductive RerunAnswer where
  | malformed
  | refused
  | accepted (id : Nat)
deriving DecidableEq, Repr

/-- A launch stands in the way of a rerun of an area: a rerun of it runs, or it is the launch itself and has blocks running (R347). -/
def State.rerunBars (s : State) (area : Nat) (l : Launch) : Bool :=
  l.traced && l.waybill == area && (l.rerun.isSome || !(s.launchBanks l.id).isEmpty)

/-- A rerun of the launch whose header 0 stands at an address is requested, by a packet of a queue or by a bank.
(DEDUCED: log entry 64.) -/
def State.requestRerun (s : State) (area : Nat) (world : Option Byte) (sys : BitVec 4) (queue : Option (Nat × Nat))
    (asker : Option (Nat × Side)) : State × RerunAnswer :=
  let record := s.hdrRecord area
  if s.headersBad area then (s, .malformed)
  else if s.launches.any (s.rerunBars area) then (s, .refused)
  else
    let id := nextLaunchId s.lastId
    let l := s.launchOfRecord record id (world.getD (s.recWorld record)) sys queue none
    let sel := s.firstSelection l area (s.hdrGen area 0)
    let l := { l with waybill := area
                      asker := asker
                      rerun := some ⟨area, s.hdrGen area 0, 0, [], sel, [], []⟩ }
    let lacks := world.isSome && (if l.cohort then s.unplaceable l else s.allowance l.world ≤ s.worldRows l.world)
    if lacks then (s, .refused) else (s.addLaunch l, .accepted id)

/-- A block's state byte with bit 0 clear, and bit 2 as given (R339, R349). -/
def State.markUndone (s : State) (area b : Nat) (stuck : Bool) : State :=
  s.farWrite (headerAt area b + 28) [BitVec.ofNat 8 (s.hdrState area b / 2 * 2 % 4 + (if stuck then 4 else 0))]

/-- The rerun ends in the order of R350. -/
def State.endRerun (s : State) (l : Launch) (r : Rerun) : State :=
  let g := bytesOfWord s.wgen
  let s := (List.range l.blocks).foldl (fun s b => s.farWrite (headerAt r.header b) g) s
  let s := (r.bad.filter fun b => !r.ran.contains b).foldl (fun s b => s.markUndone r.header b false) s
  let s := r.stuck.foldl (fun s b => s.markUndone r.header b true) s
  let listed := (r.stuck ++ r.bad.filter fun b => !r.stuck.contains b).length
  let s := s.farWrite (r.header + 32) (bytesOfNat (if r.stuck.isEmpty && r.bad.isEmpty then 2 else 3) 4 ++ bytesOfNat r.ran.length 4
    ++ bytesOfNat listed 4 ++ bytesOfNat r.round 4)
  let s := { s with wgen := s.wgen + 1 }
  let words := ((l.firstFail).map (·.2)).getD (Vector.replicate 6 0)
  let s := s.writeCompletion l.completion (l.refused.getD (if r.bad.isEmpty then 0 else 1)) l.id l.failed l.killed words
  ({ s with launches := s.launches.filter (·.id != l.id) }.wakeQueue l.queue).tryLaunches

/-- A round has ended: stuck blocks are found, and the next round is selected, or the rerun ends. -/
def State.nextRound (s : State) (id : Nat) : State :=
  match s.launchOf id with
  | none => s
  | some l =>
    match l.rerun with
    | none => s
    | some r =>
      if !l.allEnded || s.threadLost l then s
      else
        let ran := r.ran ++ r.sel
        let stuck := ran.filter fun b => r.stuck.contains b || r.sel.any fun c => c != b && s.wroteInto r.header c b
        let sel := if l.killing || l.refused.isSome then [] else
          (List.range l.blocks).filter fun b => !ran.contains b && s.reached l r.header r.since b
        let r' := { r with ran := ran, stuck := stuck, sel := sel, round := r.round + (if r.sel.isEmpty then 0 else 1) }
        if sel.isEmpty then s.endRerun l r'
        else (s.modLaunch id fun k => { k with rerun := some r', next := 0, ended := 0, left := [] }).schedule s.time (.placeBlock id)

/-- The command processor answers a bank's spawn or rerun (R217, R296, R347). -/
def State.answerRequest (s : State) (n : Nat) (x : Side) : State :=
  let b := s.bank n x
  match b.request with
  | some (false, record) => (s.answerLaunch n x record).modBank n x fun b => { b with request := none }
  | some (true, area) =>
    let a := s.requestRerun area (some b.info.world) b.sysperm none (some (n, x))
    let word := match a.2 with
      | .malformed => answerWord 1 0
      | .refused => answerWord 2 0
      | .accepted id => answerWord 0 id
    let s := match a.2 with
      | .malformed => if s.farBad area 64 64 then a.1 else a.1.writeCompletion (a.1.recCompletion (a.1.hdrRecord area)) 2 0 0 0 (Vector.replicate 6 0)
      | _ => a.1
    s.modBank n x fun b => { b with answer := some word, request := none }
  | none => s

end Sys2Proof.Machine
end

