-- ==== Sys2Proof/Machine/Queue.lean ====
section
/-! DEFINITION. Command processors: rings, the merge, packets from the taking to completion, WAIT and SIGNAL, arrays, stops and restarts
(R304-R309, R371, R372). -/

namespace Sys2Proof.Machine

/-! ## Packets (R306) -/

/-- The bytes from a to b of an entry are zero. -/
def zeroBytes (bs : List Byte) (a b : Nat) : Bool := ((bs.drop a).take (b + 1 - a)).all (· == 0)

/-- A packet's header and body as its 64 bytes state them; none for a type that is not listed or a reserved bit or byte that is set.
(DEDUCED: log entry 66.) -/
def parsePacket (bs : List Byte) : Option (PktHdr × Packet) :=
  let h := msgNat bs 0 8
  let hdr : PktHdr := ⟨BitVec.ofNat 32 (h / 2 ^ 32), h.testBit 9, h.testBit 8⟩
  let word (off : Nat) : Word := BitVec.ofNat 64 (msgNat bs off 8)
  let byte (off : Nat) : Byte := BitVec.ofNat 8 (msgNat bs off 1)
  let body : Option Packet := match h % 256 with
    | 1 => if zeroBytes bs 16 63 then some (.launch (word 8)) else none
    | 2 => if zeroBytes bs 18 23 && zeroBytes bs 40 63 then some (.task ⟨word 8, byte 16, byte 17, word 24, word 32⟩) else none
    | 3 => if zeroBytes bs 16 63 then some (.rerun (word 8)) else none
    | 4 => if zeroBytes bs 9 15 && zeroBytes bs 32 63 then some (.wait (byte 8) (word 16) (word 24)) else none
    | 5 => if zeroBytes bs 9 15 && zeroBytes bs 32 63 then some (.signal (byte 8) (word 16) (word 24)) else none
    | 6 => if zeroBytes bs 20 63 then some (.indirect (word 8) (BitVec.ofNat 32 (msgNat bs 16 4))) else none
    | 7 => if zeroBytes bs 9 63 then some (.fence (byte 8)) else none
    | 8 => if zeroBytes bs 20 63 then some (.budget (word 8) (BitVec.ofNat 32 (msgNat bs 16 4))) else none
    | _ => none
  if slice h 31 10 != 0 then none else body.map fun p => (hdr, p)

/-- A packet is malformed in its fields (R306). -/
def State.packetBad (s : State) : Packet → Bool
  | .launch r => s.addressBad r.toNat 256 64
  | .task t => 8 ≤ t.cls.toNat || t.points.toNat = 0 || 8 < t.points.toNat || s.addressBad t.table.toNat (16 * t.points.toNat) 16
  | .rerun h => s.addressBad h.toNat 64 64
  | .wait k a _ => 3 < k.toNat || (if k.toNat = 2 then s.addressBad a.toNat 8 8 else s.addressBad a.toNat 64 64)
  | .signal k a _ => 1 < k.toNat || (if k.toNat = 0 then s.addressBad a.toNat 8 8 else s.addressBad a.toNat 64 64)
  | .indirect a n => s.addressBad a.toNat (64 * n.toNat) 64 || n.toNat = 0 || 65535 < n.toNat
  | .fence sc => sc.toNat < 6 || 8 < sc.toNat
  | .budget a n => s.addressBad a.toNat n.toNat 64

/-! ## Stops (R309) -/

/-- The queue stops with an error at a packet of a stamp. -/
def State.stopQueue (s : State) (q : QueueId) (error : Nat) (stamp : BitVec 32) : State :=
  (s.modQueue q fun k => { k with state := 2, error := error, stamp := stamp })

/-- Some register of a ring is poisoned, or some entry of the queue's tables (R372). -/
def Ring.poisoned (r : Ring) : Bool := r.badBase || r.badMirror || r.badTail
def Queue.poisoned (k : Queue) : Bool := k.poison || k.rings.toList.any Ring.poisoned

/-- Whether the queue's thread may take or start packets. -/
def Queue.live (k : Queue) : Bool := k.state != 2 && !k.halted

/-- A packet taken and not started goes back to where it was taken from; one that came from no ring and no array the queue is in stays taken,
not started. -/
def Queue.untake (k : Queue) (t : Taken) : Queue :=
  let rest := k.taken.filter (·.order != t.order)
  match t.ring with
  | some r => { k with taken := rest, rings := k.rings.set r.val { k.rings[r] with taken := k.rings[r].taken - 1 } }
  | none =>
    match k.arrays with
    | (o, a, n, i) :: outer =>
      if t.outer.head? = some o then { k with taken := rest, arrays := (o, a, n, i - 1) :: outer } else { k with taken := rest ++ [{ t with launch := none }] }
    | [] => { k with taken := rest ++ [{ t with launch := none }] }

/-- A launch of a packet has placed its first block, or has ended without one. -/
def State.launchBegun (s : State) (id : Nat) : Bool := ((s.launchOf id).map (·.next != 0)).getD true

/-- What a stop makes of the packet the thread had not started: it goes back, and a launch made for it that has placed no block is no more
(R309). One whose launch has begun has started. -/
def State.giveBack (s : State) (q : QueueId) : State :=
  match (s.queue q).taken.find? fun t => !t.started with
  | none => s
  | some t =>
    match t.launch with
    | none => s.modQueue q (·.untake t)
    | some id =>
      if s.launchBegun id then s
      else
        { s with launches := s.launches.filter (·.id != id), tasks := s.tasks.filter (·.launch != id) }.modQueue q (·.untake t)

/-- The queue stops with what it had not started given back (R309). -/
def State.haltQueue (s : State) (q : QueueId) (error : Nat) (stamp : BitVec 32) : State :=
  (s.giveBack q).stopQueue q error stamp

/-! ## Taking (R305, R308) -/

/-- A queue's state field: running while a packet waits or runs (R309). -/
def Queue.settleState (k : Queue) : Queue :=
  let busy := !k.taken.isEmpty || !k.arrays.isEmpty || k.rings.toList.any fun r => ringEnable r.base && r.taken != r.tail
  { k with state := if k.state = 2 then 2 else if busy then 1 else 0 }

/-- The thread takes a packet: judged now; a malformed one or one that would nest too deep stops the queue at it. `advance` moves the
place it is taken from past it.
(DEDUCED: log entry 67.) -/
def State.acceptPacket (s : State) (q : QueueId) (hdr : PktHdr) (p : Packet) (ring : Option (Fin 8)) (advance : Queue → Queue) : State :=
  let k := s.queue q
  let deep : Bool := match p with
    | .indirect .. => decide (4 ≤ k.arrays.length)
    | _ => false
  if s.packetBad p then s.stopQueue q 2 hdr.stamp
  else if deep then s.stopQueue q 3 hdr.stamp
  else
    (s.modQueue q fun k =>
      let k := advance k
      { k with count := k.count + 1, state := 1
               taken := k.taken ++ [⟨hdr, p, k.arrays.length, ring, k.count, k.arrays.map (·.1), false, false, none⟩] }).schedule s.time
      (.startPacket q)

/-- Stamp a precedes stamp b. -/
def stampBefore (a b : BitVec 32) : Bool := let d := (b - a).toNat; 1 ≤ d && d < 2 ^ 31

/-- The bytes of a ring's next entry to take. -/
def State.ringEntry (s : State) (r : Ring) : List Byte :=
  s.physRead (ringBase r.base + 64 * (r.taken.toNat % 2 ^ ringLgn r.base)) 64

/-- The ring whose head packet the merge presents: the earliest stamp, ties to the lowest ring. -/
def State.mergeRing (s : State) (k : Queue) : Option (Fin 8) :=
  let stamp (r : Fin 8) : BitVec 32 := BitVec.ofNat 32 (msgNat (s.ringEntry k.rings[r]) 4 4)
  (List.finRange 8).foldl (fun best r =>
    if !(ringEnable k.rings[r].base && k.rings[r].taken != k.rings[r].tail) then best
    else match best with
      | none => some r
      | some b => if stampBefore (stamp r) (stamp b) then some r else some b) none

/-- The thread takes its next packet, from the innermost array or from the rings. It holds at most one packet not started; before the
panel has booted it takes none (R375).
(DEDUCED: log entry 90.) -/
def State.takePacket (s : State) (q : QueueId) : State :=
  let k := s.queue q
  if !s.station.booted || !k.live || k.taken.any (fun t => !t.started) then s
  else if k.poisoned then s.stopQueue q 5 k.stamp
  else
    match k.arrays with
    | (o, a, n, i) :: rest =>
      if n ≤ i then (s.modQueue q fun k => ({ k with arrays := rest }).settleState).schedule s.time (.startPacket q)
      else
        let bs := s.physRead (a.toNat + 64 * i) 64
        match parsePacket bs with
        | some (h, p) => s.acceptPacket q h p none fun k => { k with arrays := (o, a, n, i + 1) :: rest }
        | none => s.stopQueue q 2 (BitVec.ofNat 32 (msgNat bs 4 4))
    | [] =>
      match s.mergeRing k with
      | none => s.modQueue q Queue.settleState
      | some r =>
        let bs := s.ringEntry k.rings[r]
        match parsePacket bs with
        | some (h, p) =>
          s.acceptPacket q h p (some r) fun k => { k with rings := k.rings.set r.val { k.rings[r] with taken := k.rings[r].taken + 1 } }
        | none => s.stopQueue q 2 (BitVec.ofNat 32 (msgNat bs 4 4))

/-- A packet reaches the thread at its present level, from outside the rings the model holds. -/
def State.givePacket (s : State) (q : QueueId) (hdr : PktHdr) (p : Packet) : State :=
  let k := s.queue q
  if !s.station.booted || !k.live || k.taken.any (fun t => !t.started) then s else s.acceptPacket q hdr p none id

/-! ## Starting (R306, R307) -/

/-- Every packet before one, but those that enclose it, is complete. -/
def Queue.earlierDone (k : Queue) (t : Taken) : Bool :=
  k.taken.all fun u => u.complete || t.order ≤ u.order || t.outer.contains u.order

/-- The condition of a WAIT; none when its phase object is malformed. -/
def State.waitHolds (s : State) (kind : Byte) (addr : Nat) (operand : Word) : Option Bool :=
  match kind.toNat with
  | 0 => some (s.physNat (addr + 4) 4 == operand.toNat % 2 ^ 32)
  | 1 => let bs := s.physRead addr 64
         if phaseBad bs then none else some (phaseParity bs != operand.getLsbD 0)
  | 2 => some (operand.toNat ≤ (s.physWord addr).toNat)
  | _ => some (s.released.any fun p => p.1 == addr && p.2.1 == operand.toNat % 16 && slice operand.toNat 31 8 ≤ p.2.2)

/-- A SIGNAL performs; none when its phase object is malformed. -/
def State.signal (s : State) (kind : Byte) (addr : Nat) (operand : Word) : Option State :=
  if kind = 0 then some (s.agentWriteWord addr (s.physWord addr + operand))
  else
    let bs := s.physRead addr 64
    if phaseBad bs then none else some (s.agentWrite addr (phaseArrive bs 0))

/-- What trying to start a packet comes to: it waits; it starts, complete or not; it has been given a launch and waits; it stops the
queue. -/
inductive Start where
  | wait
  | begun (s : State) (complete : Bool) (launch : Option Nat)
  | holds (s : State) (launch : Nat)
  | stop

/-- A LAUNCH's record is judged and its launch made. -/
def State.startLaunch (s : State) (q : QueueId) (t : Taken) (record : Nat) : Start :=
  if s.recordBad record then .begun (s.writeCompletion (s.recCompletion record) 2 0 0 0 (Vector.replicate 6 0)) true none
  else
    let id := nextLaunchId s.lastId
    .holds (s.addLaunch (s.launchOfRecord record id (s.recWorld record) 15 (some (q.val, t.order)) none)) id

/-- A TASK's point is chosen and its launch made (R322, R324). -/
def State.startTask (s : State) (q : QueueId) (t : Taken) (body : TaskBody) : Start :=
  let id := nextLaunchId s.lastId
  match s.taskStart body id with
  | .none =>
    let record := (((s.readPoints body.table.toNat 1).head?).map (·.record)).getD 0
    .begun (s.writeCompletion (s.recCompletion record) 2 0 0 0 (Vector.replicate 6 0)) true none
  | .wait => .wait
  | .start k =>
    let l := s.launchOfRecord k.point.record id (s.recWorld k.point.record) 15 (some (q.val, t.order)) (some k.id)
    .holds ({ s with tasks := s.tasks ++ [k] }.addLaunch { l with maxRows := k.point.rows }) id

/-- Trying to start the oldest packet not started. -/
def State.tryStart (s : State) (q : QueueId) (t : Taken) : Start :=
  if s.timing.stabled || s.time < s.timing.wake || (t.header.after && !(s.queue q).earlierDone t) then .wait
  else
    match t.launch with
    | some id => if s.launchBegun id then .begun s false (some id) else .wait
    | none =>
      match t.body with
      | .launch r => s.startLaunch q t r.toNat
      | .task b => s.startTask q t b
      | .rerun h =>
        let a := s.requestRerun h.toNat none 15 (some (q.val, t.order)) none
        (match a.2 with
          | .accepted id => .begun a.1 false (some id)
          | .malformed => .begun (a.1.writeCompletion (a.1.recCompletion (a.1.hdrRecord h.toNat)) 2 0 0 0 (Vector.replicate 6 0)) true none
          | .refused => .begun a.1 true none)
      | .wait k a o =>
        (match s.waitHolds k a.toNat o with
          | some true => .begun s true none
          | some false => .wait
          | none => .stop)
      | .signal k a o =>
        (match s.signal k a.toNat o with
          | some s => .begun s true none
          | none => .stop)
      | .indirect a n => .begun (s.modQueue q fun k => { k with arrays := (t.order, a, n.toNat, 0) :: k.arrays }) false none
      | .fence _ => .begun s false none
      | .budget a n => if s.station.active.isNone then .wait else .begun (s.receiveMessage (s.physRead a.toNat n.toNat) 1 q.val t.header.stamp.toNat) true none

/-- A started packet is consumed: the ring's head moves on and the mirror is written (R304). -/
def State.consume (s : State) (q : QueueId) (ring : Option (Fin 8)) : State :=
  match ring with
  | none => s
  | some r =>
    let s := s.modQueue q fun k => { k with rings := k.rings.set r.val { k.rings[r] with head := k.rings[r].head + 1 } }
    let g := (s.queue q).rings[r]
    if g.mirror = 0 then s else s.agentWriteWord g.mirror.toNat (g.head.setWidth 64)

/-! ## Completion (R306, R307) -/

/-- A started packet that is not complete has become so. -/
def State.isComplete (s : State) (k : Queue) (t : Taken) : Bool :=
  t.started &&
  match t.body with
  | .launch _ | .task _ | .rerun _ => (t.launch.map fun id => (s.launchOf id).isNone).getD true
  | .fence _ => k.earlierDone t
  | .indirect .. => !(k.arrays.any (·.1 == t.order)) && !(k.taken.any fun u => u.outer.contains t.order && !u.complete)
  | _ => true

/-- Packets that have completed leave; each raises its queue's vector if its header asks for it; `fuel` bounds how many. -/
def State.settleQueue (s : State) (q : QueueId) : Nat → State
  | 0 => s
  | fuel + 1 =>
    match (s.queue q).taken.find? (fun t => t.complete || s.isComplete (s.queue q) t) with
    | none => s
    | some t =>
      let s := s.modQueue q fun k => { k with taken := k.taken.filter (·.order != t.order) }
      (if t.header.msi then s.raise q.val else s).settleQueue q fuel

/-- Whether a queue is among those whose oldest taken packet has not started. -/
def State.setBlocked (s : State) (q : QueueId) (b : Bool) : State :=
  { s with blocked := if b then insertNat q.val s.blocked else removeNat q.val s.blocked }

/-- A packet a thread has taken is changed. -/
def State.markTaken (s : State) (q : QueueId) (t : Taken) (f : Taken → Taken) : State :=
  s.modQueue q fun k => { k with taken := k.taken.map fun u => if u.order = t.order then f u else u }

/-- The packet whose launch has begun has started, be its queue stopped since (R307, R309). -/
def State.noteBegun (s : State) (q : QueueId) : State :=
  match (s.queue q).taken.find? fun t => !t.started && t.launch.any s.launchBegun with
  | some t => (s.markTaken q t fun u => { u with started := true }).consume q t.ring
  | none => s

/-- The queue goes on: complete packets leave, the oldest packet not started starts if it can, and the next is taken. -/
def State.advanceQueue (s : State) (q : QueueId) : State :=
  let s := if (s.queue q).live then s else s.noteBegun q
  let s := s.settleQueue q (s.queue q).taken.length
  if !(s.queue q).live then s.setBlocked q false
  else
    match (s.queue q).taken.find? (fun t => !t.started) with
    | none => ((s.setBlocked q false).modQueue q Queue.settleState).takePacket q
    | some t =>
      let mark (s : State) (f : Taken → Taken) : State := s.markTaken q t f
      match s.tryStart q t with
      | .wait => s.setBlocked q true
      | .holds s id => (mark s fun u => { u with launch := some id }).setBlocked q true
      | .stop => (s.modQueue q (·.untake t)).stopQueue q 2 t.header.stamp |>.setBlocked q false
      | .begun s done launch =>
        let s := (mark s fun u => { u with started := true, complete := done, launch := launch }).consume q t.ring
        (s.setBlocked q false).schedule s.time (.startPacket q)

/-! ## Registers of a queue (R304, R309, R372) -/

/-- ring.base is written; a write that is not refused clears its poison (R304, R372). -/
def Ring.writeBase (r : Ring) (v : Word) : Ring :=
  let v' : Word := BitVec.ofNat 64 ((if ringEnable v then 2 ^ 63 else 0) + ringBase v + ringLgn v)
  if ringLgn v < 4 || 16 < ringLgn v then r
  else if ringEnable r.base && ringEnable v then r
  else if ringEnable v then { r with base := v', head := 0, tail := 0, taken := 0, badBase := false }
  else { r with base := v', taken := r.head, badBase := false }
def State.writeRingBase (s : State) (q : QueueId) (ring : Fin 8) (v : Word) : State :=
  (s.modQueue q fun k => { k with rings := k.rings.set ring.val ((k.rings[ring]).writeBase v) })

/-- ring.mirror is written. -/
def State.writeRingMirror (s : State) (q : QueueId) (ring : Fin 8) (v : Word) : State :=
  s.modQueue q fun k => { k with rings := k.rings.set ring.val { k.rings[ring] with mirror := BitVec.ofNat 64 (slice v.toNat 51 3 * 8), badMirror := false } }

/-- The doorbell: a tail that decreases, or passes the ring's size beyond head, stops the queue with CMD_RING.
(DEDUCED: log entry 80.) -/
def State.doorbell (s : State) (q : QueueId) (ring : Fin 8) (tail : BitVec 32) : State :=
  let k := s.queue q
  let r := k.rings[ring]
  let ahead := (tail - r.head).toNat
  if ahead < (r.tail - r.head).toNat || 2 ^ ringLgn r.base < ahead then s.haltQueue q 1 k.stamp
  else (s.modQueue q fun k => { k with rings := k.rings.set ring.val { r with tail := tail, badTail := false } }).schedule s.time (.takePacket q)

/-- The packet that the innermost array not yet read to its end names next. -/
def Queue.nextEntry (k : Queue) : Option Nat := (k.arrays.find? fun a => a.2.2.2 < a.2.2.1).map fun a => a.2.1.toNat + 64 * a.2.2.2

/-- The restart of a queue whose tables held an uncorrectable error: with a poisoned register it stops again at once; else the merge state
and the indirect stack are cleared, and the stopping packet is tried at level 0 (R372). -/
def State.restartCleared (s : State) (q : QueueId) : State :=
  let k := s.queue q
  if k.rings.toList.any Ring.poisoned then s
  else
    let s := s.modQueue q fun k => { k with state := 1, error := 0, poison := false, arrays := [] }
    let s := match k.nextEntry with
      | none => s
      | some a =>
        match parsePacket (s.physRead a 64) with
        | some (h, p) => s.acceptPacket q h p none id
        | none => s.stopQueue q 2 (BitVec.ofNat 32 (msgNat (s.physRead a 64) 4 4))
    s.schedule s.time (.startPacket q)

/-- restart: the stopping packet is tried again (R309). -/
def State.restartQueue (s : State) (q : QueueId) : State :=
  let k := s.queue q
  if k.state != 2 || k.halted then s
  else if k.error = 5 then s.restartCleared q
  else (s.modQueue q fun k => { k with state := 1, error := 0, poison := false }).schedule s.time (.startPacket q)

/-! ## A lost thread (R371, R372) -/

/-- The stamp of the packet at which a stop finds the queue. -/
def Queue.stopStamp (k : Queue) : BitVec 32 := ((k.taken.find? fun t => !t.started).map (·.header.stamp)).getD k.stamp

/-- The thread of a queue halts, stopped at its first packet not started. -/
def State.loseThread (s : State) (q : QueueId) : State :=
  (s.haltQueue q 4 (s.queue q).stopStamp).modQueue q fun k => { k with halted := true }

/-- The station has reloaded a region's instruction memory: each halted thread completes what had started, and stays stopped. -/
def State.reloadThreads (s : State) (g : RegionId) : State :=
  (List.finRange 32).foldl (fun (s : State) i =>
    let q := queueNo (32 * g.val + i.val)
    if (s.queue q).halted then
      let s := s.modQueue q fun k => { k with halted := false }
      let mine := s.launches.filter fun l => l.allEnded && l.queue.any (·.1 == q.val)
      let s := mine.foldl (fun s l => s.schedule s.time (if l.rerun.isSome then .rerunRound l.id else .completeLaunch l.id)) s
      s.schedule s.time (.startPacket q)
    else s) s

/-- A queue's tables hold an uncorrectable error: in its merge state or indirect stack, or in a register of a ring, base, mirror or tail
(R372). -/
def State.poisonQueue (s : State) (q : QueueId) (register : Option (Fin 8 × Nat)) : State :=
  let mark (k : Queue) : Queue := match register with
    | none => { k with poison := true }
    | some (r, w) =>
      let g := k.rings[r]
      let g := { g with badBase := g.badBase || w == 0, badMirror := g.badMirror || w == 1, badTail := g.badTail || w == 2 }
      { k with rings := k.rings.set r.val g }
  (s.haltQueue q 5 (s.queue q).stopStamp).modQueue q mark

end Sys2Proof.Machine
end

