-- ==== Sys2Proof/Machine/Trust.lean ====
section
/-! DEFINITION. Errors and their effects, retirement, scrub, injection, dead dies and lost switches, panel reset, life cycle, alarms,
worlds, key slots, firmware and the mailbox (R360-R365, R368-R390). -/

namespace Sys2Proof.Machine

/-! ## Retiring rows (R302, R373) -/

/-- The operations of a row that may still perform do, oldest first; the rest are dropped; `fuel` bounds how many.
(DEDUCED: log entry 78.) -/
def State.drainRow (s : State) (n : Nat) : Nat → State
  | 0 => { s with pend := s.pend.filter (·.row != n) }
  | fuel + 1 =>
    match s.pend.find? (fun q => q.row == n && s.enabled q) with
    | some q => (s.perform q).drainRow n fuel
    | none => { s with pend := s.pend.filter (·.row != n) }

/-- A row is excused on every id of a launch (R302). -/
def State.excuseRow (s : State) (n : Nat) (l : Launch) : State :=
  (List.range 16).foldl (fun (s : State) id =>
    if l.barriers.getLsbD id then
      s.modRegion (regionOf n) fun g =>
        let k := id * 10 + dieOf n % 10
        { g with masks := Sparse.set g.masks 0 k (Sparse.get g.masks 0 k ||| BitVec.twoPow 64 (n % 64)) }
    else s) s

/-- The block in a bank of a row that retires fails (R302). -/
def State.failBank (s : State) (n : Nat) (x : Side) : State :=
  let b := s.bank n x
  if b.phase = .empty then s
  else if b.armed.isSome then s.emptyBank n x
  else
    match s.launchOf b.info.launch with
    | some l =>
      let s := s.excuseRow n l
      let s := if b.phase = .failed then s else s.modLaunch l.id fun l => l.noteFailed b.info.blk.toNat b.trapRec
      s.endBlock n x .failed
    | none => s.emptyBank n x

/-- A row retires: both banks stop with no capture, their blocks fail, messages it has queued are refused, and the row is wiped. A dead
die's requests in flight are dropped (R364). -/
def State.retireRow (s : State) (n cause : Nat) : State :=
  if (s.row n).retired then s
  else
    let s := if cause = 3 then { s with pend := s.pend.filter (·.row != n) } else s.drainRow n s.pend.length
    let s := s.modRegion (regionOf n) fun g => { g with requests := g.requests.filter (·.row != n) }
    let queued := (s.row n).arrivals
    let s := (s.modRow n fun r => { r with retired := true, cause := cause, arrivals := [] }).refuseMessages n queued
    let s := (s.failBank n .a).failBank n .b
    s.postError ⟨3, 0, false, cause, .die (dieFin n) ⟨n % 64, Nat.mod_lt _ (by decide)⟩ none, 0⟩

/-- One more uncorrectable error in structures 1-3 of a row's cores: the fourth within 24 h retires the row. -/
def State.countUe (s : State) (n : Nat) : State :=
  let day := 86400000000000
  let times := ((s.row n).ueTimes.filter fun t => s.time < t + day) ++ [s.time]
  let s := s.modRow n fun r => { r with ueTimes := times }
  if 4 ≤ times.length then s.retireRow n 2 else s

/-! ## Uncorrectable errors by structure (R365) -/

/-- A line of this panel becomes poisoned. -/
def State.poisonLine (s : State) (addr : Nat) : State := { s with poison := insertNat (physKey s.panelId.toNat addr / 64) s.poison }

/-- A register of structures 2 and 3 becomes uncorrectable: v 0-31, q 32-39 and tiles 40-47 of a core for code 2; s 0-31 of a core,
k 32-47 and control registers from 48 on for code 3. -/
def State.spoilRegister (s : State) (code n : Nat) (core : Fin 64) (x : Side) (entry : Nat) : State :=
  if code = 2 then
    if entry < 32 then s.modCoreBank n x core fun b => { b with badV := b.badV ||| BitVec.twoPow 32 entry }
    else if entry < 40 then s.modCoreBank n x core fun b => { b with badQ := b.badQ ||| BitVec.twoPow 8 (entry - 32) }
    else s.modCore n core fun c => { c with badT := c.badT ||| BitVec.twoPow 8 (entry - 40) }
  else if entry < 32 then s.modCoreBank n x core fun b => { b with badS := b.badS ||| BitVec.twoPow 32 entry }
  else if entry < 48 then s.modBank n x fun b => { b with badK := b.badK ||| BitVec.twoPow 16 (entry - 32) }
  else s.modBank n x fun b => { b with badC := true }

/-- A die cache's line is lost: clean it is dropped, dirty it is poisoned at its home. -/
def State.loseCacheLine (s : State) (d : Nat) (addr : Nat) : State :=
  let line := addr / 64
  match s.dies[dieNo d].lineState line with
  | some .m | some .o => (s.flushLine d line).poisonLine addr
  | _ => s.flushLine d line

/-- An entry of a row's translation cache, or past its 512 of the descriptor cache, is dropped. -/
def State.dropTranslation (s : State) (n entry : Nat) : State :=
  s.modRow n fun r =>
    if entry < 512 then { r with tcache := r.tcache.eraseIdx entry } else { r with dcache := r.dcache.eraseIdx (entry - 512) }

/-- An entry of a junction's directories is lost: every die of the region is back-invalidated for its set, and a line whose M or O holder
is no longer known is poisoned at its home.
(DEDUCED: log entry 83.) -/
def State.loseDirectory (s : State) (j : Fin 160) (addr : Nat) : State :=
  let line := addr / 64
  let dies := (List.range 10).map (10 * (j.val / 10) + ·)
  let dir := (dirFind s.juns[j].home line).orElse fun _ => dirFind s.juns[j].routes line
  let owned : Bool := match dir with
    | some ⟨_, .owned _, _, _⟩ => true
    | _ => false
  let set := ((s.juns[j].home ++ s.juns[j].routes).map (·.line)).filter fun l => l % 65536 == line % 65536
  let s := set.foldl (fun s l => dies.foldl (fun s d => s.flushLine d l) s) s
  let s := s.modJun j fun u => { u with home := dirDrop u.home line, routes := dirDrop u.routes line }
  if owned then s.poisonLine addr else s

/-- An entry of a core's queues and buffers carries poison onward: its load-data entries first, then its segment store buffer, then its
engine buffers. -/
def State.poisonBuffer (s : State) (n : Nat) (core : Fin 64) (x : Side) (entry : Nat) : State :=
  if entry < 16 then
    s.modCoreBank n x core fun b => { b with loads := b.loads.zipIdx.map fun p => if p.2 = entry then { p.1 with poison := true } else p.1 }
  else if entry < 80 then
    s.modCoreBank n x core fun b =>
      { b with segBuf := b.segBuf.zipIdx.map fun p => if p.2 + 16 = entry then { p.1 with poison := true } else p.1 }
  else
    match (s.pend.filter fun q => q.row == n && q.side == x && q.core == core)[entry - 80]? with
    | some p => { s with pend := s.pend.map fun q => if q.id = p.id then { q with poison := true } else q }
    | none => s

/-- The region, row and core an error stood at. -/
def placeRegion : ErrPlace → Nat
  | .die d .. => d.val / 10 | .junction j => j.val / 10 | .edge _ => 0
def placeRowNo : ErrPlace → Nat
  | .die d r _ => 64 * d.val + r.val | _ => 0
def placeCoreNo : ErrPlace → Fin 64
  | .die _ _ (some c) => c | _ => 0

/-- The effect of an uncorrectable error (R365); its record apart. A flit's destination is a line of a core's local store where the place names a
core, else a line of memory.
(DESIGN CHOICE: log entry 82.) -/
def State.strike (s : State) (e : ErrorReport) : State :=
  let n := placeRowNo e.place
  let core := placeCoreNo e.place
  let queue := queueNo (32 * placeRegion e.place + e.entry % 32)
  match e.structureCode.val, e.place with
  | 1, .die .. =>
    (s.modCore n core fun c => { c with poison := setLine c.poison (e.entry % 768) true }).countUe n
  | 2, .die .. => (s.spoilRegister 2 n core e.side e.entry).countUe n
  | 3, .die .. => (s.spoilRegister 3 n core e.side e.entry).countUe n
  | 4, .die .. | 5, .die .. => s.retireRow n 1
  | 6, .die d _ _ => s.loseCacheLine d.val e.address
  | 7, .die .. => s.dropTranslation n e.entry
  | 8, .junction j => s.loseDirectory j e.address
  | 10, .die _ _ (some _) => s.modCore n core fun c => { c with poison := setLine c.poison (e.entry % 768) true }
  | 9, _ | 10, _ => s.poisonLine e.address
  | 11, .die .. => s.poisonBuffer n core e.side e.entry
  | 12, _ => s.loseThread queue
  | 13, _ =>
    let r := e.entry / 32 - 1
    s.poisonQueue queue (if e.entry / 32 = 0 then none else some (⟨r % 8, Nat.mod_lt _ (by decide)⟩, r / 8 % 3))
  | 0, .die .. => s.modCoreBank n e.side core fun b => { b with residue := true }
  | _, _ => s

/-! ## Injection (R369, R370) -/

/-- The fields of an injection register. -/
def injArmed (w : Word) : Bool := w.getLsbD 63
def injCount (w : Word) : Nat := slice w.toNat 47 40
/-- The register after a forced report. -/
def injNext (w : Word) : Word :=
  let c := injCount w - 1
  BitVec.ofNat 64 (w.toNat - injCount w * 2 ^ 40 + c * 2 ^ 40 - (if c = 0 then 2 ^ 63 else 0))

/-- The injection register of a place. -/
def State.injection (s : State) : ErrPlace → Word
  | .die d .. => s.dies[d].inject
  | .junction j => s.juns[j].inject
  | .edge _ => 0
def State.setInjection (s : State) (p : ErrPlace) (w : Word) : State :=
  match p with
  | .die d .. => s.modDie d fun k => { k with inject := w }
  | .junction j => s.modJun j fun k => { k with inject := w }
  | .edge _ => s

/-- Whether an armed register forces the report of a detection: its structure, for codes 1-5 its row, for codes 2 and 3 the unit that reads
(R369).
(DEDUCED: log entry 85.) -/
def injMatches (w : Word) (e : ErrorReport) : Bool :=
  injArmed w && 0 < injCount w && slice w.toNat 39 32 == e.structureCode.val
  && (!(1 ≤ e.structureCode.val && e.structureCode.val ≤ 5) || slice w.toNat 29 24 == placeRowNo e.place % 64)
  && (!(e.structureCode.val = 2 || e.structureCode.val = 3) || w.getLsbD e.unit.val)

/-- A forced report takes the reporting path only: record, vector, counters, and for codes 12 and 13 the queue's error field. -/
def State.reportInjected (s : State) (e : ErrorReport) (w : Word) : State :=
  let s := s.setInjection e.place (injNext w)
  if w.getLsbD 62 then
    let q := queueNo (32 * placeRegion e.place + e.entry % 32)
    let s := match e.structureCode.val with
      | 12 => s.modQueue q fun k => { k with error := 4 }
      | 13 => s.modQueue q fun k => { k with error := 5 }
      | _ => s
    s.postError ⟨1, e.structureCode.val, true, 0, e.place, e.address⟩
  else s.postCorrected ⟨0, e.structureCode.val, true, 0, e.place, e.address⟩

/-- A flit error at a link die is counted by one of its ports (R314, R365 code 10).
(DESIGN CHOICE: log entry 113.) -/
def State.countFlit (s : State) (e : ErrorReport) : State :=
  match e.structureCode.val, e.place with
  | 10, .edge n =>
    let k := s.edges[n]
    let port (i : Nat) (p : LinkPort) : LinkPort :=
      if i != (Config.faultyPort s.time).val then p
      else if e.corrected then { p with corrected := p.corrected + 1 }
      else { p with uncorrected := p.uncorrected + 1 }
    { s with edges := s.edges.set n.val { k with ports := k.ports.zipIdx.map fun p => port p.2 p.1 } }
  | _, _ => s

/-- A detector reports an error (R365, R367, R370). -/
def State.detectError (s : State) (e : ErrorReport) : State :=
  let s := s.countFlit e
  let w := s.injection e.place
  if e.structureCode.val = 0 then (if e.corrected then s else s.strike e)
  else if injMatches w e then s.reportInjected e w
  else if e.corrected then s.postCorrected ⟨0, e.structureCode.val, false, 0, e.place, e.address⟩
  else (s.postError ⟨1, e.structureCode.val, false, 0, e.place, e.address⟩).strike e

/-- An injection register is written: in every life-cycle state but scrapped; reserved bits stay 0. -/
def State.armInjection (s : State) (p : InjPlace) (v : Word) : State :=
  let w : Word := v &&& 0xC000FFFF3F0000FF
  if s.station.life = .scrapped then s
  else
    match p with
    | .die d => s.modDie d fun k => { k with inject := w }
    | .junction j => s.modJun j fun k => { k with inject := w }

/-! ## Scrub (R368) -/

/-- The lines of a unit, and the physical address of one. -/
def unitLines (u : TierUnit) : Nat := unitFrames u * 1024
def unitLineAddr (u : TierUnit) (line : Nat) : Nat := unitBase u * 65536 + 64 * line
def State.scrubPos (s : State) : TierUnit → Nat
  | .junction j => s.juns[j].scrubPos
  | .siding d => s.sidings[d].scrubPos
  | .cxl _ | .host => 0

/-- The edge slot of a number below 72, and the place of the active station: where an error record of the station itself stands (R18, R367).
(DESIGN CHOICE: log entry 120.) -/
def slotFin (n : Nat) : Fin 72 := ⟨n % 72, Nat.mod_lt _ (by decide)⟩
def State.stationPlace (s : State) : ErrPlace := .edge (slotFin (stationSlot ((s.station.active.map (·.val)).getD 0)))

/-- The place an error record names for a unit: a junction, or the edge die of a siding. -/
def unitPlace : TierUnit → ErrPlace
  | .junction j => .junction j
  | .siding d => .edge (slotFin (sidingSlot d.val))
  | .cxl h => .edge (slotFin (hostSlot h.val))
  | .host => .edge (slotFin (hostSlot 0))

/-- A unit scrubs its next line: a corrected line is rewritten, an uncorrectable one poisoned, each with a record; under an armed injection
register the report is the forced one and the line is left alone (R368, R370). Only junctions and siding dies scrub.
(DEDUCED: log entry 85. DESIGN CHOICE: log entry 126.) -/
def State.scrub (s : State) (u : TierUnit) (r : ScrubResult) : State :=
  let line := s.scrubPos u
  let next := if line + 1 < unitLines u then line + 1 else 0
  let addr := unitLineAddr u line
  let seen : ErrorReport := ⟨9, unitPlace u, r != .uncorrectable, addr, 0, .a, 0⟩
  let armed := s.injection (unitPlace u)
  let note (s : State) : State := if injMatches armed seen then s.reportInjected seen armed else match r with
    | .clean => s
    | .corrected => s.postCorrected ⟨0, 9, false, 0, unitPlace u, addr⟩
    | .uncorrectable => (s.poisonLine addr).postError ⟨1, 9, false, 0, unitPlace u, addr⟩
  match u with
  | .junction j => note (s.modJun j fun k => { k with scrubPos := next })
  | .siding d => note { s with sidings := s.sidings.set d.val { s.sidings[d] with scrubPos := next } }
  | .cxl _ | .host => s

/-! ## Links, dead dies, lost switches (R356, R360, R361, R363, R364) -/

/-- A waking link is awake, and so is a sleeping one of a die that is not gated (R363).
(DEDUCED: log entry 92.) -/
def State.linkWake (s : State) (d : DieId) (j : JunId) : State :=
  if s.dies[d].link j.val = .waking || (s.dies[d].link j.val = .asleep && !s.dies[d].gated) then
    (s.modDie d (·.setLink j.val .awake)).flushWaiting
  else s

/-- Entries that a junction holds in its route directory and that name a die go back to their homes (R356). -/
def State.reclaimFrom (s : State) (j : Fin 160) (d : Nat) : State :=
  (s.juns[j].routes.filter fun e => e.dies.contains d).foldl (fun s e => s.reclaim (s.homeOf e.line) e.line) s

/-- A link that has not woken is marked failed; LINK_WAKE_FAIL is posted on the region's vector (R363). -/
def State.linkFail (s : State) (d : DieId) (j : JunId) : State :=
  if s.dies[d].link j.val = .asleep || s.dies[d].link j.val = .waking then
    (((s.modDie d (·.setLink j.val .failed)).reclaimFrom j d.val).raise (512 + d.val / 10)).flushWaiting
  else s

/-- A die is reached over some link that is awake: only there does its silence show that it is dead (R363). -/
def State.dieReached (s : State) (d : DieId) : Bool :=
  (junctionsOfDie d.val).any fun j => s.linked d.val j && (s.dies[d]).link j == .awake

/-- A die is dead: its copies are dropped, lines it held dirty are poisoned at their homes, entries delegated because of it are
reclaimed, its rows retire; DIE_DEAD is posted (R363, R364, R367, R373).
(DEDUCED: log entry 125.) -/
def State.killDie (s : State) (d : DieId) : State :=
  if s.dies[d].dead || !s.dieReached d then s
  else
    let s := (List.finRange 160).foldl (fun s j => s.reclaimFrom j d.val) s
    let s := s.dies[d].cache.foldl (fun (s : State) c =>
      let s := s.flushLine d.val c.line
      match c.state with
      | .m | .o => (s.poisonLine (64 * c.line)).postError ⟨1, 6, false, 0, .die d 0 none, 64 * c.line⟩
      | _ => s) s
    let s := (s.modDie d fun k => { k with dead := true, cache := [] }).raise (512 + d.val / 10)
    ((List.range 64).foldl (fun s i => s.retireRow (64 * d.val + i) 3) s).flushWaiting

/-- Dirty data that another panel returns stands in the line at its home, under the line's seal, and its frame has been written (R345, R360,
R361).
(DEDUCED: log entry 148.) -/
def State.returnLine (s : State) (line : Nat) (dirty : Option LineReturn) : State :=
  match dirty with
  | none => s
  | some d =>
    let t := s.reportGeneration (line / 1024)
    { t.keyWriteLine (physKey s.panelId.toNat (64 * line)) (bytesOfNat d.data.toNat 64) d.cipher d.poison with sealed := t.sealed }

/-- A pod switch recalls a line: its copies here are invalidated, its entry leaves state P, and the dirty data of a sharer panel comes home
(R360). -/
def State.switchRecall (s : State) (line : Nat) (dirty : Option LineReturn) : State :=
  let j := s.homeOf line
  match dirFind s.juns[j].home line with
  | some ⟨_, .pod _ _, _, _⟩ => (s.dropEntry j line).returnLine line dirty
  | _ => s

/-- A switch is lost: every line delegated through it is in recovery (R361). -/
def State.loseSwitch (s : State) (sw : Nat) : State :=
  let via (e : DirEntry) : Bool := match e.state with
    | .pod k _ => k == sw
    | _ => false
  let lines := s.juns.toList.flatMap fun j => (j.home.filter via).map (·.line)
  { s with pod := { s.pod with lost := insertNat sw s.pod.lost
                               recovery := s.pod.recovery ++ (lines.filter fun l => !s.pod.recovery.any (·.1 == l)).map fun l => (l, sw) } }

/-- A line's entry at its home once it is rebuilt: S, or X with its owner. -/
def rebuilt (e : DirEntry) (shared : Bool) : DirEntry :=
  { e with state := if shared then .shared else match e.sharers with
      | o :: _ => .owned o
      | [] => .shared }

/-- A line has been rebuilt at its home, with the dirty data that an answer returned; the end of a switch's recovery is signalled on vector
531 (R312, R361). -/
def State.recoverLine (s : State) (line : Nat) (outcome : Recovered) : State :=
  match s.pod.recovery.find? (·.1 == line) with
  | none => s
  | some p =>
    let j := s.homeOf line
    let s := (s.returnLine line outcome.dirty).modJun j fun u =>
      { u with home := u.home.map fun e => if e.line = line then rebuilt e outcome.shared else e }
    let rest := s.pod.recovery.filter (·.1 != line)
    let s := { s with pod := { s.pod with recovery := rest } }
    (if rest.any (·.2 == p.2) then s else s.raise 531).flushWaiting

/-- Some die of this panel owns a line: it holds it in M, O or E. -/
def State.ownedHere (s : State) (line : Nat) (dies : List Nat) : Bool :=
  dies.any fun d => match s.dies[dieNo d].lineState line with
    | some .s | none => false
    | _ => true

/-- A panel has not answered a recovery query for 1 ms and counts as failed: a line whose ownership was delegated, and whose owner is no die
of this panel nor, by the answers that the other panels gave, one of theirs, is poisoned, with DIRECTORY_LOST (R361).
(DEDUCED: log entry 84.) -/
def State.failPanel (s : State) (answers : PanelAnswers) : State :=
  let panel := answers.failed
  let s := { s with pod := { s.pod with failed := if s.pod.failed.contains panel then s.pod.failed else s.pod.failed ++ [panel] } }
  (s.pod.recovery.foldl (fun (s : State) p =>
    let j := s.homeOf p.1
    match dirFind s.juns[j].home p.1 with
    | some ⟨_, .pod _ true, sharers, _⟩ =>
      if answers.claimed.contains p.1 || s.ownedHere p.1 sharers then s
      else
        let s := (s.poisonLine (64 * p.1)).dropEntry j p.1
        let s := { s with pod := { s.pod with recovery := s.pod.recovery.filter (·.1 != p.1) } }
        (s.raise 531).postError ⟨1, 8, false, 0, .junction j, 64 * p.1⟩
    | _ => s) s).flushWaiting

/-! ## Key slots (R381, R386, R387) -/

/-- Every slot's key is erased and its epoch moves on. -/
def KeySlot.erase (k : KeySlot) : KeySlot := { key := none, epoch := k.epoch + 1 }
def State.eraseSlot (s : State) (n : Fin 64) : State := { s with slots := s.slots.set n.val (s.slots[n]).erase }

/-- Seals and opens with the slot that have not completed post KEY_REVOKED, and complete (R213, R386 step 1). -/
def State.cancelCipher (s : State) (n : Fin 64) : State :=
  let mine := s.pend.filter fun q => match q.op with
    | .cipher _ _ _ _ _ _ slot _ _ _ => slot == n
    | _ => false
  mine.foldl (fun (s : State) q =>
    match q.op with
    | .cipher number _ source _ _ _ _ _ _ _ => ((s.retire q).postEngine q .keyRevoked 5 number q.core (.ls q.row q.core source)).engineDone q q.core 5 number
    | _ => s) s

/-- Steps 2 and 3: no die cache holds a line tagged with the slot any more. -/
def State.flushSlot (s : State) (n : Fin 64) : State :=
  (List.range 160).foldl (fun (s : State) d =>
    ((s.dies[dieNo d].cache.filter (·.slot == some n)).map (·.line)).foldl (fun s l => s.flushLine d l) s) s

/-- key.status: busy, done, slot and epoch (R386).
(DEDUCED: log entry 38.) -/
def keyStatusWord (n : Fin 64) (epoch : Nat) (done busy : Bool) : Word :=
  BitVec.ofNat 64 (epoch % 65536 * 256 + n.val * 4 + (if done then 2 else 0) + (if busy then 1 else 0))
def State.keyBusy (s : State) : Bool := s.station.keyStatus.getLsbD 0

/-- key.revoke is written (R386). -/
def State.startRevocation (s : State) (v : Word) : State :=
  if s.keyBusy || !v.getLsbD 63 then s
  else
    let n : Fin 64 := ⟨v.toNat % 64, Nat.mod_lt _ (by decide)⟩
    let old := s.station.keyStatus
    ({ s with station := { s.station with
        keyRevoke := BitVec.ofNat 64 n.val
        keyStatus := keyStatusWord n (slice old.toNat 23 8) (old.getLsbD 1) true } }).cancelCipher n

/-- The revocation in progress completes: steps 2 to 5 and the record (R386); what was issued meanwhile has not completed either. -/
def State.endRevocation (s : State) : State :=
  if !s.keyBusy then s
  else
    let n : Fin 64 := ⟨slice s.station.keyStatus.toNat 7 2 % 64, Nat.mod_lt _ (by decide)⟩
    let s := ((s.flushSlot n).eraseSlot n).cancelCipher n
    ({ s with station := { s.station with keyStatus := keyStatusWord n (s.slots[n]).epoch.toNat true false } }).postError
      ⟨6, 0, false, 0, s.stationPlace, 0⟩

/-- A slot is revoked at once, with its status and record, after a revocation in progress (R383, R386). -/
def State.revokeNow (s : State) (n : Fin 64) : State :=
  let s := s.endRevocation
  let s := ((s.cancelCipher n).flushSlot n).eraseSlot n
  ({ s with station := { s.station with keyStatus := keyStatusWord n (s.slots[n]).epoch.toNat true false } }).postError
    ⟨6, 0, false, 0, s.stationPlace, 0⟩

/-- An erasing alarm erases every slot at once (R380); a revocation in progress is over with it, its steps 2 and 3 abandoned, and
what had issued under its slot has not completed before it (R213, R387).
(DEDUCED: log entry 91.) -/
def State.eraseAll (s : State) : State :=
  let t := { s with slots := s.slots.map KeySlot.erase }
  if !s.keyBusy then t
  else
    let n : Fin 64 := ⟨slice s.station.keyStatus.toNat 7 2 % 64, Nat.mod_lt _ (by decide)⟩
    let t := t.cancelCipher n
    { t with station := { t.station with keyStatus := keyStatusWord n (t.slots[n]).epoch.toNat true false } }

/-! ## Worlds (R383) -/

/-- A world is created: a number not in use, in deployed, no slot granted already; it has a release key of its own (R385). -/
def State.createWorld (s : State) (id : Byte) (rows : Nat) (slots : Word) : State :=
  if id = 0 || s.worlds.any (·.id == id) || s.station.life != .deployed || s.worlds.any (fun w => w.slots &&& slots != 0) then s
  else { s with nextId := s.nextId + 1, worlds := s.worlds ++ [⟨id, rows, slots, 0, false, some (Config.releaseKey s.nextId)⟩] }

/-- A world's rows drain: its launches end as killed, its armed banks become empty. -/
def State.drainWorld (s : State) (id : Byte) : State :=
  let s := (s.launches.filter (·.world == id)).foldl (fun (s : State) l => s.killLaunch l.id) s
  s.rows.foldl (fun (s : State) r =>
    [Side.a, Side.b].foldl (fun (s : State) x =>
      let b := s.bank r.1 x
      if b.armed.isSome && b.info.world = id then s.emptyBank r.1 x else s) s) s

/-- A world is destroyed: its rows drain and each of its slots is revoked.
(DEDUCED: log entry 77.) -/
def State.destroyWorld (s : State) (id : Byte) : State :=
  match s.worlds.find? (·.id == id) with
  | some w =>
    if id = 0 then s
    else
      let s := (s.drainWorld id)
      let s := (List.finRange 64).foldl (fun (s : State) n => if w.slots.getLsbD n.val then s.revokeNow n else s) s
      { s with worlds := s.worlds.filter (·.id != id) }
  | none => s

/-! ## Alarms (R380) -/

def alarmShift : AlarmSource → Nat
  | .supply => 0 | .temp => 2 | .mesh => 4

/-- alarm.policy is written. -/
def State.writePolicy (s : State) (v : Word) : State :=
  let f (w : Word) (i : Nat) : Nat := slice w.toNat (2 * i + 1) (2 * i)
  let bad := (List.range 3).any fun i => f v i = 3
  let lowers := s.station.life = .deployed && (List.range 3).any fun i => f v i < f s.station.alarms i || f v i < 1
  if bad || lowers then s else { s with station := { s.station with alarms := v &&& 0x3F } }

/-- An alarm: record only; erase; erase and retire the rows of confidential worlds.
(DEDUCED: log entry 81.) -/
def State.alarm (s : State) (source : AlarmSource) : State :=
  let policy := slice s.station.alarms.toNat (alarmShift source + 1) (alarmShift source)
  let s := s.postError ⟨5, 0, false, 0, s.stationPlace, 0⟩
  if policy = 0 then s
  else
    let s := s.eraseAll.postError ⟨6, 0, false, 0, s.stationPlace, 0⟩
    if policy = 1 then s
    else (s.rows.filter fun r => r.2.world.any (· != 0)).foldl (fun (s : State) r => s.retireRow r.1 4) s

/-! ## Boot, reset, life cycle (R374-R379) -/

/-- The lowest of four stations that a mask names. -/
def lowestStation (m : BitVec 4) : Option (Fin 4) := (List.finRange 4).find? fun i => m.getLsbD i.val

/-- The presence map (R377): a bit for each compute die, junction and edge slot in service. -/
def State.presenceMap (s : State) : List Byte :=
  let byteOf (f : Nat → Bool) : Byte := BitVec.ofNat 8 ((List.range 8).foldl (fun m i => if f i then m + 2 ^ i else m) 0)
  (List.range 20).map (fun k => byteOf fun i => let d := s.dies[dieNo (8 * k + i)]; !d.excluded && !d.dead)
  ++ (List.range 20).map (fun k => byteOf fun i => !(s.juns[junFin (8 * k + i)]).excluded)
  ++ (List.range 9).map (fun k => byteOf fun i => !s.edgeOut (8 * k + i))
  ++ List.replicate 23 0

def lifeCode : LifeCycle → Nat
  | .manufacture => 0 | .provisioned => 1 | .deployed => 2 | .returned => 3 | .scrapped => 4
def lifeOf (n : Nat) : Option LifeCycle :=
  match n with
  | 0 => some .manufacture | 1 => some .provisioned | 2 => some .deployed | 3 => some .returned | 4 => some .scrapped | _ => none

/-- The boot measurement: the digests of the verified images, the fused security version, the life-cycle state, the presence map (R377). -/
def State.measureBoot (s : State) : BitVec 512 :=
  sha3 ((s.station.running.parts.flatMap fun p => bytesOfNat p.digest.toNat 64) ++ bytesOfNat s.station.minVersion 8
    ++ [BitVec.ofNat 8 (lifeCode s.station.life)] ++ s.presenceMap)

/-- An address that the wipe of R378 covers: HBM4 or LPDDR-6 of this panel. -/
def State.wiped (s : State) (key : Nat) : Bool :=
  key / 2 ^ 52 == s.panelId.toNat &&
  (match rangeOf (key % 2 ^ 52) with
    | .hbm _ | .siding _ => true
    | _ => false)

/-- What the station mirror holds is wiped: the timetables, tt.seq and the staging state (R374, R378). -/
def State.wipeMirror (s : State) : State :=
  let s := { s with timing := { s.timing with inForce := none, pending := none, sequence := 0 }
                    station := { s.station with staged := none, mailbox := { s.station.mailbox with fwState := 0 } } }
  { s with timing := { s.timing with target := s.targetNow } }

/-- The wipe before any world runs: memory of the panel, caches, rows, the station mirror and key slots (R378). What CXL and host memory hold
sealed stays the cipher text it is.
(DEDUCED: log entry 86.) -/
def State.wipe (s : State) : State :=
  let s := (s.sealed.filter fun e => !s.wiped (64 * e.1)).foldl (fun (s : State) e => s.openLine none e.1) s
  let s := s.wipeMirror
  { s with mem := s.mem.filter fun e => !s.wiped e.1
           cipher := s.cipher.filter fun l => !s.wiped (64 * l)
           poison := s.poison.filter fun l => !s.wiped (64 * l)
           sealed := []
           rows := s.rows.filterMap fun r =>
             if r.2.retired then some (r.1, { Row.reset r.1 with retired := true, cause := r.2.cause, ueTimes := r.2.ueTimes }) else none
           dies := s.dies.map fun d => { d with cache := [] }
           juns := s.juns.map fun j => { j with home := [], routes := [] }
           slots := s.slots.map fun _ => ⟨none, 0⟩
           pend := [], moves := [], launches := [], tasks := [], released := [], waiting := []
           worlds := [⟨0, 10240, 0, 0, false, none⟩] }

/-- The retired rows of a panel after a reset: a row of a die in service that has a spare left takes one (R373).
(DEDUCED: log entry 79.) -/
def State.repair (s : State) : State :=
  s.rows.foldl (fun (s : State) r =>
    let d := dieFin r.1
    if !r.2.retired || s.dies[d].excluded || s.dies[d].spares = 0 then s
    else ({ s with rows := Sparse.del s.rows r.1 }).modDie d fun k => { k with spares := k.spares - 1 }) s

/-! ### Verified images (R375) -/

/-- A signature verifies under a key whose digest is fused (R316, R375, R379). -/
def fusedVerify (key digest : BitVec 512) (signature : List Byte) : Bool := key != 0 && Config.mldsaVerify key.toNat digest signature

/-- An image verifies: its signature under the vendor key, its security version not below the fused counter. -/
def State.imageOk (s : State) (image : List Byte) : Bool :=
  fusedVerify s.station.vendor (sha3 image) (Config.firmwareSignature image) && s.station.minVersion ≤ Config.firmwareVersion image

/-- What the root of trust holds of an image, and of firmware with its five components' images. -/
def readImage (image : List Byte) : Image := ⟨sha3 image, Config.firmwareVersion image⟩
def readFirmware (image : List Byte) : Firmware :=
  ⟨sha3 image, Config.firmwareVersion image, Config.firmwareCommit image,
    (List.range 5).map fun c => readImage (Config.firmwarePart c image)⟩

/-- The image that a component boots: the first of those stored that verifies. -/
def State.bootPart (s : State) (images : List (List Byte)) (c : Nat) : Option Image :=
  ((images.map (Config.firmwarePart c)).find? s.imageOk).map readImage
/-- The components for which no verified image remains. -/
def State.bootLacks (s : State) (images : List (List Byte)) : List Nat :=
  (List.range 5).filter fun c => (s.bootPart images c).isNone
/-- The firmware that a boot runs: each component's image; its digest and version are those of the firmware whose station image runs.
(DESIGN CHOICE: log entry 10.) -/
def State.bootFirmware (s : State) (images : List (List Byte)) : Firmware :=
  match images.find? fun im => s.imageOk (Config.firmwarePart 0 im) with
  | some im => { readFirmware im with parts := (List.range 5).filterMap (s.bootPart images) }
  | none => s.station.running

/-- Panel reset (R374-R378): the reset state, but for what fuses, drivers' memories and hardware keep; stations tested, images verified, the
reason posted where a component has none, dies that do not prove their identity excluded, spares used, measurement taken. Rows retired
because their die was dead or excluded return with it (R373). -/
def State.resetPanel (s : State) (stations : BitVec 4) (images : List (List Byte)) (deadDies : List DieId) (deadJunctions : List JunId)
    (deadEdges : List (Fin 72)) : State :=
  let old := s.wipe
  let back := s.rows.filterMap fun r =>
    if r.2.retired && r.2.cause != 3 then some (r.1, { Row.reset r.1 with retired := true, cause := r.2.cause }) else none
  let t : State := { State.reset with
    panelId := s.panelId, time := s.time, freeSeq := s.freeSeq, nextId := s.nextId
    mem := old.mem, cipher := old.cipher, poison := old.poison, sealed := old.sealed
    rows := back
    dies := tableOfFn fun d : Fin 160 => { Die.reset with spares := s.dies[d].spares, excluded := deadDies.contains d }
    juns := tableOfFn fun j : Fin 160 => { Junction.reset with excluded := deadJunctions.contains j }
    edges := tableOfFn fun e : Fin 72 => { EdgeDie.reset e.val with excluded := deadEdges.contains e }
    station := { Station.reset with
      active := lowestStation stations, healthy := stations, heartbeat := s.time
      booted := (s.bootLacks images).isEmpty && s.station.life != .scrapped && (lowestStation stations).isSome
      lacking := s.bootLacks images, linked := s.time
      life := s.station.life, returns := s.station.returns, minVersion := s.station.minVersion
      running := s.bootFirmware images, identity := s.station.identity
      vendor := s.station.vendor, facility := s.station.facility, owner := s.station.owner } }
  let t := t.repair
  let t := deadDies.foldl (fun (t : State) d =>
    ((List.range 64).foldl (fun (t : State) i =>
      t.modRow (64 * d.val + i) fun r => { r with retired := true, cause := if r.retired then r.cause else 3 }) t).postError
      ⟨4, 0, false, 0, .die d 0 none, 0⟩) t
  let t := deadJunctions.foldl (fun (t : State) j => t.postError ⟨4, 0, false, 0, .junction j, 0⟩) t
  let t := deadEdges.foldl (fun (t : State) e => t.postError ⟨4, 0, false, 0, .edge e, 0⟩) t
  { t with station := { t.station with bootDigest := t.measureBoot } }

/-- The fused identity key of a device, unless it has been erased (R376, R379): dies are numbered from 0, junctions from 160, edge slots from
320. -/
def State.identityKey (s : State) (device : Nat) : Option (BitVec 512) :=
  if s.station.identity then some (Config.identityKey device) else none
/-- The link key of a die and a junction, established at boot while both prove their identity (R376). -/
def State.linkKey (s : State) (d j : Nat) : Option (BitVec 256) :=
  if s.linked d j && (s.identityKey d).isSome && (s.identityKey (160 + j)).isSome then some (Config.linkKey s.station.linked d (160 + j)) else none

/-- The active station writes its heartbeat into the mirror (R374). -/
def State.beat (s : State) : State :=
  if s.station.active.isSome then { s with station := { s.station with heartbeat := s.time } } else s

/-- No heartbeat for 10 ms: the lowest healthy spare boots, its images verified; no station is active until it is ready, 200 ms later
(R374, R375).
(DEDUCED: log entry 127.) -/
def State.takeover (s : State) (spares : Spares) : State :=
  if s.time < s.station.heartbeat + 10000000 || s.station.standby.isSome then s
  else
    let spare := (List.finRange 4).find? fun i => spares.healthy.getLsbD i.val && s.station.active != some i
    let lacks := s.bootLacks spares.images
    let st := { s.station with
      active := none, healthy := spares.healthy, lacking := lacks
      standby := if lacks.isEmpty then spare else none
      running := if lacks.isEmpty then s.bootFirmware spares.images else s.station.running }
    let t := { s with station := st }
    if st.standby.isSome then t.schedule (s.time + 200000000) .stationReady else t

/-- The spare is ready: it is active, acts on contact changes from its next sample, and goes on with the timetable that the mirror holds
(R374). -/
def State.stationReady (s : State) : State :=
  match s.station.standby with
  | some i =>
    (({ s with
        station := { s.station with active := some i, standby := none, heartbeat := s.time }
        timing := { s.timing with lastS := s.timing.contactS, lastH := s.timing.contactH } }).schedule s.time .timetableInForce).schedule
      s.time .timetablePoint
  | none => s

/-! ## Firmware (R375, R388, R389) -/

/-- An image is staged: verified, its security version not below the fused counter; acknowledgements for another are void. -/
def State.stageFirmware (s : State) (addr : Nat) : State :=
  let image := s.physRead addr Config.firmwareLength
  let st := { s.station with mailbox := { s.station.mailbox with stage := BitVec.ofNat 64 addr } }
  if !s.imageOk image || s.station.mailbox.fwState = 2 then { s with station := st }
  else
    { s with
      station := { st with staged := some (readFirmware image), stagedAt := s.time
                           mailbox := { st.mailbox with fwState := 1 } }
      worlds := s.worlds.map fun w => { w with acked := false } }

/-- A tenant in RUN: its world holds a placed block or an armed bank (R389). -/
def State.inRun (s : State) (w : World) : Bool :=
  s.rows.any fun r => [Side.a, Side.b].any fun x => let b := r.2.bank x; b.phase != .empty && b.info.world == w.id

/-- Every tenant in RUN has acknowledged the staged image; the open world is none (R389). -/
def State.allAcked (s : State) : Bool := s.worlds.all fun (w : World) => w.acked || !s.inRun w || w.id == 0

/-- The commit of a staged image begins once every tenant in RUN has acknowledged it; it takes 500 us at most.
(DESIGN CHOICE: log entry 129.) -/
def State.activateFirmware (s : State) : State :=
  if s.station.mailbox.fwState = 1 && s.allAcked then
    ({ s with station := { s.station with stagedAt := s.time, mailbox := { s.station.mailbox with fwState := 2 } } }).schedule
      (s.time + 500000) .commitFirmware
  else s

/-- The commit ends: the staged image runs, and its flag raises the fused counter. -/
def State.commitFirmware (s : State) : State :=
  match s.station.staged with
  | some f =>
    if s.station.mailbox.fwState = 2 then
      { s with station := { s.station with
          running := f, staged := none
          minVersion := if f.commit then max s.station.minVersion f.version else s.station.minVersion
          mailbox := { s.station.mailbox with fwState := 0 } } }
    else s
  | none => s

/-- The window passes without every acknowledgement: the staging is discarded (R389). -/
def State.lapseStaging (s : State) : State :=
  if s.station.mailbox.fwState = 1 && !s.allAcked && s.station.stagedAt + s.station.mailbox.window * 1000000000 ≤ s.time then
    { s with station := { s.station with staged := none, mailbox := { s.station.mailbox with fwState := 0 } } }
  else s

/-! ## The mailbox (R379, R384, R385, R389, R390) -/

/-- The address field of a mailbox register, bits 51:6; its other bits hold nothing (R6, R390). -/
def mailAddr (addr : Word) : Nat := slice addr.toNat 51 6 * 64

/-- A command is entered: its code, session and block address. -/
def State.mailEnter (s : State) (command : Nat) (session : BitVec 32) (addr : Word) : State :=
  { s with station := { s.station with mailbox := { s.station.mailbox with
      command := BitVec.ofNat 8 command, session := session, data := BitVec.ofNat 64 (mailAddr addr) } } }
/-- A command completes, done or refused, and vector 530 is raised. -/
def State.mailEnd (s : State) (status : Nat) : State :=
  ({ s with station := { s.station with mailbox := { s.station.mailbox with status := status, retry := 0 } } }).raise 530
/-- BUSY while a commit runs, with the time left. -/
def State.mailBusy (s : State) : State :=
  let left := (s.station.stagedAt + 500000 - s.time) / 1000
  { s with station := { s.station with mailbox := { s.station.mailbox with status := 1, retry := max 1 (min 500 left) } } }

def State.mailBlock (s : State) (addr : Word) : List Byte := s.physRead (mailAddr addr) Config.requestLength

/-- measure: the running image's digest and security version. -/
def State.mailMeasure (s : State) (session : BitVec 32) (addr : Word) : State :=
  let s := s.mailEnter 1 session addr
  if s.station.mailbox.fwState = 2 then s.mailBusy
  else
    let content := bytesOfNat s.station.running.digest.toNat 64 ++ bytesOfNat s.station.running.version 8
    (s.agentWrite (mailAddr addr) (Config.answerBlock 1 content)).mailEnd 0

/-- What an attestation report of a world holds, its release key among it (R384, R385). -/
def State.report (s : State) (w : World) (nonce : List Byte) : List Byte :=
  nonce ++ bytesOfNat s.station.bootDigest.toNat 64 ++ s.presenceMap ++ bytesOfNat s.station.running.version 8
  ++ bytesOfNat s.station.running.digest.toNat 64 ++ [BitVec.ofNat 8 (lifeCode s.station.life), w.id]
  ++ bytesOfNat w.measurement.toNat 64 ++ bytesOfWord w.slots ++ (w.release.map Config.releasePublic).getD []

/-- attest: the signed report of the session's world, unless the keys have been erased (R379, R384). -/
def State.mailAttest (s : State) (session : BitVec 32) (addr : Word) : State :=
  let s := s.mailEnter 2 session addr
  if s.station.mailbox.fwState = 2 then s.mailBusy
  else
    match (if s.station.identity then s.worlds.find? (·.id == Config.sessionWorld session) else none) with
    | some w =>
      let r := s.report w (Config.requestBytes 2 0 (s.mailBlock addr))
      (s.agentWrite (mailAddr addr) (Config.answerBlock 2 (r ++ Config.mldsaSign r))).mailEnd 0
    | none => s.mailEnd 2

/-- release key: the key wrapped to the world's release key goes into its slot, or the command is refused (R385). -/
def State.mailRelease (s : State) (session : BitVec 32) (addr : Word) : State :=
  let s := s.mailEnter 3 session addr
  let block := s.mailBlock addr
  let n : Fin 64 := ⟨Config.requestField 3 0 block % 64, Nat.mod_lt _ (by decide)⟩
  let named := BitVec.ofNat 512 (Config.requestField 3 1 block)
  match s.worlds.find? (·.id == Config.sessionWorld session) with
  | none => s.mailEnd 2
  | some w =>
  match w.release.bind fun key => Config.mlkemUnwrap key (Config.requestBytes 3 2 block) with
  | none => s.mailEnd 2
  | some k =>
    if w.slots.getLsbD n.val && (s.slots[n]).key.isNone && w.measurement == named && s.station.life == .deployed then
      ({ s with slots := s.slots.set n.val { s.slots[n] with key := some k } }).mailEnd 0
    else s.mailEnd 2

/-- acknowledge: the session's world accepts the staged image by its digest (R389). -/
def State.mailAcknowledge (s : State) (session : BitVec 32) (addr : Word) : State :=
  let s := s.mailEnter 4 session addr
  let digest := BitVec.ofNat 512 (Config.requestField 4 0 (s.mailBlock addr))
  let id := Config.sessionWorld session
  if s.station.staged.any (·.digest == digest) && s.worlds.any (·.id == id) then
    ({ s with worlds := s.worlds.map fun (w : World) => if w.id = id then { w with acked := true } else w }).mailEnd 0
  else s.mailEnd 2

/-- The fused digests of the keys that authorise a change of life cycle: the vendor's, the owner's; none for a change that is not allowed. -/
def State.lifeKeys (s : State) (goal : LifeCycle) : List (BitVec 512) :=
  let vendor := s.station.vendor
  let owner := s.station.owner
  match s.station.life, goal with
  | .manufacture, .provisioned => [vendor]
  | .provisioned, .deployed => [owner]
  | .deployed, .returned => [owner]
  | .returned, .provisioned => if s.station.returns < 3 then [vendor] else []
  | .scrapped, _ => []
  | _, .scrapped => [vendor, owner]
  | _, _ => []

/-- life cycle: a signed change, with its wipe (R378, R379).
(DESIGN CHOICE: log entry 130.) -/
def State.mailLife (s : State) (session : BitVec 32) (addr : Word) : State :=
  let s := s.mailEnter 5 session addr
  let block := s.mailBlock addr
  match lifeOf (Config.requestField 5 0 block) with
  | none => s.mailEnd 2
  | some goal =>
    let signed := (s.lifeKeys goal).any fun k => fusedVerify k (sha3 (bytesOfNat (lifeCode goal) 1)) (Config.requestBytes 5 1 block)
    if !signed then s.mailEnd 2
    else
      let fuse := goal = .provisioned
      let s := s.wipe
      let st : Station := s.station
      let next : Station :=
        { st with
          life := goal
          returns := if st.life == .returned && goal == .provisioned then st.returns + 1 else st.returns
          booted := st.booted && goal != .scrapped
          identity := st.identity && goal != .scrapped
          vendor := if goal = .scrapped then 0 else st.vendor
          facility := if goal = .scrapped then 0 else if fuse then BitVec.ofNat 512 (Config.requestField 5 2 block) else st.facility
          owner := if goal = .scrapped then 0 else if fuse then BitVec.ofNat 512 (Config.requestField 5 3 block) else st.owner }
      ({ s with station := next }).mailEnd 0

end Sys2Proof.Machine
end

