-- ==== Sys2Proof/Machine/RowEvents.lean ====
section
/-! DEFINITION. The events of rows, banks and the operations they have outstanding: what exec does with each. An event that is not due
changes nothing: it has not happened (log entry 1). -/

namespace Sys2Proof.Machine

/-! ## Issue (R67, R77, R96, R126, R222) -/

/-- BUNDLE_ISSUE (R67): one cycle of the row. -/
def execBundleIssue (r : RowId) (s : State) : Host.Outcome State Fault Refusal := .next (s.rowCycle r.val)

/-- The bundle a frozen bank waits with no longer meets a freeze condition: it may be presented (R222). -/
def State.unfreezable (s : State) (n : Nat) (x : Side) : Bool :=
  s.presents n x && (s.bank n x).frozen.isSome && !(s.bank n x).awaitsPermit
  && (match s.bankPlan n x with
    | some (.freeze ..) | some (.ask ..) | some (.retouch ..) | some (.save ..) | some (.drain _) | some .hold => false
    | _ => true)

/-- ROW_UNFREEZE (R222): the freeze condition holds and the waiting bundle is presented. -/
def execRowUnfreeze (r : RowId) (s : State) : Host.Outcome State Fault Refusal :=
  let x := (s.row r.val).holder
  .next (if s.unfreezable r.val x then s.presentBundle r.val x else s)

/-- RESULT_LAND (R77): what is due at the bank's present issue cycle lands. -/
def execResultLand (r : RowId) (x : Side) (s : State) : Host.Outcome State Fault Refusal :=
  .next (s.landAll r.val x (s.bank r.val x).cycle)

/-- KVOTE_RESULT (R96): votes whose delivery is due are delivered, with everything else that is. -/
def execKvoteResult (r : RowId) (x : Side) (s : State) : Host.Outcome State Fault Refusal :=
  .next (s.landAll r.val x (s.bank r.val x).cycle)

/-- Held cycles pass until a verdict is known; `fuel` bounds them. -/
def State.runHeld (s : State) (n : Nat) (x : Side) : Nat → State
  | 0 => s
  | fuel + 1 =>
    let b := s.bank n x
    if b.phase = .run && b.verdict.isSome && b.heldLeft != 0 then (s.emptyCycle n x false).runHeld n x fuel else s

/-- CHK_VERDICT (R126): the held cycles of a guarded bundle end and its verdict is known. -/
def execChkVerdict (r : RowId) (x : Side) (s : State) : Host.Outcome State Fault Refusal :=
  .next (s.runHeld r.val x (s.bank r.val x).heldLeft)

/-- Whether the bank that holds the row presents a bundle that traps. -/
def State.trapDue (s : State) (n : Nat) (x : Side) : Bool :=
  s.presents n x && !(s.bank n x).awaitsPermit && (s.row n).holder == x
  && (match s.bankPlan n x with
    | none | some (.trap _) | some (.posted ..) | some (.consume _) | some (.late _) => true
    | _ => false)

/-- TRAP_ENTRY (R233): the trap of the bundle the bank presents, or the one its held cycles wait for, is taken. -/
def execTrapEntry (r : RowId) (x : Side) (s : State) : Host.Outcome State Fault Refusal :=
  .next (if (s.bank r.val x).verdict.isSome then s.runHeld r.val x (s.bank r.val x).heldLeft
    else if s.trapDue r.val x then s.presentBundle r.val x else s)

/-! ## Translation and memory (R180, R187-R193, R202, R211, R213, R238, R251, R253, R266, R277) -/

/-- TRANSLATION_WALK (R277): the oldest walk of the row ends. -/
def execTranslationWalk (r : RowId) (s : State) : Host.Outcome State Fault Refusal := .next (s.walkNext r.val)

/-- LOAD_DATA_RETURN (R180): a request's data enters its load-data queue. -/
def execLoadDataReturn (n : Nat) (s : State) : Host.Outcome State Fault Refusal :=
  .next (s.performId n fun | .load .. => true | _ => false)

/-- STORE_PERFORM (R251): a store reaches its performing point. -/
def execStorePerform (n : Nat) (s : State) : Host.Outcome State Fault Refusal :=
  .next (s.performId n fun | .store .. => true | _ => false)

/-- WRITE_ACKNOWLEDGE (R253): the oldest unacknowledged write of the bank to another panel is acknowledged. -/
def execWriteAcknowledge (r : RowId) (x : Side) (s : State) : Host.Outcome State Fault Refusal :=
  .next (match s.pend.find? (fun q => q.row == r.val && q.side == x && (match q.op with | .ack => true | _ => false)) with
    | some q => s.perform q
    | none => s)

/-- ATOMIC_PERFORM (R187): the atomics of a syllable act, in ascending core number. -/
def execAtomicPerform (n : Nat) (s : State) : Host.Outcome State Fault Refusal :=
  .next (s.performId n fun | .atom .. => true | _ => false)

/-- ARRIVE_PERFORM (R189): an arrival updates its phase object. -/
def execArrivePerform (n : Nat) (s : State) : Host.Outcome State Fault Refusal :=
  .next (s.performId n fun | .arrive .. => true | _ => false)

/-- LOCK_ACQUIRE (R192): lock words that are 0 become the owner tag. -/
def execLockAcquire (n : Nat) (s : State) : Host.Outcome State Fault Refusal :=
  .next (s.performId n fun | .lock .. => true | _ => false)

/-- A release that performs as its bundle issues: its bank presents that bundle, and nothing holds it back. -/
def State.releasing (s : State) (q : Pending) : Bool :=
  q.op.atIssue && s.presents q.row q.side && (s.row q.row).holder == q.side && !(s.bank q.row q.side).awaitsPermit
  && ((s.bankPlan q.row q.side).any Plan.isIssue)

/-- LOCK_RELEASE (R193): a release is complete and its lock words become 0, as its bundle issues. -/
def execLockRelease (n : Nat) (s : State) : Host.Outcome State Fault Refusal :=
  .next (match s.pend.find? (·.id == n) with
    | some q => if s.releasing q then s.presentBundle q.row q.side else s
    | none => s)

/-- DISCARD_PERFORM (R266): the lines become zero and plaintext. -/
def execDiscardPerform (n : Nat) (s : State) : Host.Outcome State Fault Refusal :=
  .next (s.performId n fun | .discard .. => true | _ => false)

/-- COPY_COMPLETE (R202): a copy channel's operation completes in its core. -/
def execCopyComplete (n : Nat) (s : State) : Host.Outcome State Fault Refusal :=
  .next (s.performId n fun | .copyIn .. | .copyOut .. | .copyLocal .. => true | _ => false)

/-- RED_PERFORM (R211): a reduction performs. -/
def execRedPerform (n : Nat) (s : State) : Host.Outcome State Fault Refusal :=
  .next (s.performId n fun | .red .. => true | _ => false)

/-- CIPHER_COMPLETE (R213): a seal or open completes or posts its error. -/
def execCipherComplete (n : Nat) (s : State) : Host.Outcome State Fault Refusal :=
  .next (s.performId n fun | .cipher .. => true | _ => false)

/-- MESSAGE_ARRIVAL (R238): a message reaches its target row. -/
def execMessageArrival (n : Nat) (s : State) : Host.Outcome State Fault Refusal :=
  .next (s.performId n fun | .send .. => true | _ => false)

/-! ## The matrix engine (R164, R165) -/

/-- MMA_STEP_BEGIN (R164): the step due at the bank's matrix time begins. -/
def execMmaStepBegin (r : RowId) (x : Side) (s : State) : Host.Outcome State Fault Refusal := .next (s.beginDue r.val x)

/-- MMA_STEP_LAND (R165): the steps due at the bank's matrix time land. -/
def execMmaStepLand (r : RowId) (x : Side) (s : State) : Host.Outcome State Fault Refusal := .next (s.landStepsDue r.val x)

/-! ## Banks (R217, R225-R230, R235, R240) -/

/-- SPAWN_ANSWER (R217): the command processor answers the bank's spawn or rerun. -/
def execSpawnAnswer (r : RowId) (x : Side) (s : State) : Host.Outcome State Fault Refusal := .next (s.answerRequest r.val x)

/-- BANK_SWITCH (R225): the row passes to its other bank, when that is due. -/
def execBankSwitch (r : RowId) (s : State) : Host.Outcome State Fault Refusal :=
  .next (match s.switchDue r.val with
    | .take c => s.switchTo r.val (otherSide (s.row r.val).holder) c
    | .stay => s)

/-- PREEMPTION (R230): the command processor asks a running bank to stop; it stops at its stop point. -/
def execPreemption (r : RowId) (x : Side) (s : State) : Host.Outcome State Fault Refusal :=
  let b := s.bank r.val x
  .next (if b.phase = .run && b.stopReq.isNone then s.modBank r.val x fun b => { b with stopReq := some .preempt } else s)

/-- Whether a bank stands at a bundle boundary (R227). -/
def Bank.atBoundary (b : Bank) : Bool := !b.inWindowHeld && b.waitLeft = 0

/-- BANK_STOP (R227): a bank that is asked to stop does, at a bundle boundary. -/
def execBankStop (r : RowId) (x : Side) (s : State) : Host.Outcome State Fault Refusal :=
  let b := s.bank r.val x
  .next (if b.phase = .run && b.stopReq.isSome && ((s.row r.val).holder != x || b.atBoundary) then s.stopIdle r.val x else s)

/-- BANK_RESUME (R229, R230): a pre-empted bank resumes at the command processor's word, a tile-faulted one once its frames are
resident. -/
def execBankResume (r : RowId) (x : Side) (s : State) : Host.Outcome State Fault Refusal :=
  .next (if (s.bank r.val x).phase = .stopped .preempt then s.resumeBank r.val x else s.resumeFaulted r.val x)

/-- FAILED_BANK_EMPTY (R235): a failed bank whose engines and requests are done becomes empty. -/
def execFailedBankEmpty (r : RowId) (x : Side) (s : State) : Host.Outcome State Fault Refusal := .next (s.emptyFailed r.val x)

/-- SEGMENT_COMMIT (R240): the bundle at hand ends the segment: the bank drains, and once drained its buffer commits, the bundle issues
and the checkpoint is taken. -/
def execSegmentCommit (r : RowId) (x : Side) (s : State) : Host.Outcome State Fault Refusal :=
  .next (if s.presents r.val x && (s.row r.val).holder == x then
      (match s.bankPlan r.val x with
        | some (.drain _) | some .endSegment | some .nextSegment => s.presentBundle r.val x
        | _ => s)
    else s)

/-! ## Blocks, launches, barriers (R114, R294, R297-R303) -/

/-- BLOCK_COMPLETE (R114): a halted block completes once all it has under way is done. -/
def execBlockComplete (r : RowId) (x : Side) (s : State) : Host.Outcome State Fault Refusal := .next (s.completeBlock r.val x)

/-- BLOCK_PLACE (R294): the dispatcher places the launch's next block, or a cohort's all, where it can. -/
def execBlockPlace (launch : BitVec 32) (s : State) : Host.Outcome State Fault Refusal := .next (s.advanceLaunch launch.toNat)

/-- LAUNCH_COMPLETE (R297): every block has ended and the completion record is written. -/
def execLaunchComplete (launch : BitVec 32) (s : State) : Host.Outcome State Fault Refusal := .next (s.completeLaunch launch.toNat)

/-- BARRIER_RELEASE (R299): the barrier the bank waits at is released once every unexcused row has arrived. -/
def execBarrierRelease (r : RowId) (x : Side) (s : State) : Host.Outcome State Fault Refusal :=
  .next (match (s.bank r.val x).atBar with
    | some b => s.releaseBar r.val x b.2.1 b.2.2
    | none => s)

/-- RENDEZVOUS_RELEASE (R303): the launch's open rendezvous is released once every unexcused row has arrived. -/
def execRendezvousRelease (launch : BitVec 32) (s : State) : Host.Outcome State Fault Refusal :=
  .next (s.releaseRendezvous launch.toNat)

/-- BARMASK_WRITE (R300): a barrier mask of a die is written. -/
def execBarmaskWrite (g : RegionId) (id : Fin 16) (die : Fin 10) (value : Word) (s : State) : Host.Outcome State Fault Refusal :=
  .next (s.writeBarmask g id.val die.val value)

/-- RETIREMENT_REQUEST (R373): the management complex has the row retired, cause 4. -/
def execRetirementRequest (r : RowId) (s : State) : Host.Outcome State Fault Refusal := .next (s.atStation (·.retireRow r.val 4))

end Sys2Proof.Machine
end

