-- ==== Sys2Proof/Machine/HostEvents.lean ====
section
/-! DEFINITION. The events of queues and packets, translation and tiers, timetable and power, reruns: what exec does with each, and
register writes (R219). An event that is not due changes nothing (log entry 1), and nothing of the station's takes place while none is active
(R19). -/

namespace Sys2Proof.Machine

/-! ## Queues (R304-R309) -/

/-- PACKET_TAKE (R305): the thread takes its next packet. -/
def execPacketTake (qn : QueueId) (s : State) : Host.Outcome State Fault Refusal := .next (s.takePacket qn)

/-- PACKET_START (R307): the oldest packet taken starts if its conditions allow. -/
def execPacketStart (qn : QueueId) (s : State) : Host.Outcome State Fault Refusal := .next (s.advanceQueue qn)

/-- LAUNCH packet (R306). -/
def execLaunchPacket (qn : QueueId) (h : PktHdr) (record : Word) (s : State) : Host.Outcome State Fault Refusal :=
  .next (s.givePacket qn h (.launch record))

/-- TASK packet (R306, R322). -/
def execTaskPacket (qn : QueueId) (h : PktHdr) (body : TaskBody) (s : State) : Host.Outcome State Fault Refusal :=
  .next (s.givePacket qn h (.task body))

/-- RERUN packet (R306, R347). -/
def execRerunPacket (qn : QueueId) (h : PktHdr) (header : Word) (s : State) : Host.Outcome State Fault Refusal :=
  .next (s.givePacket qn h (.rerun header))

/-- WAIT packet (R306). -/
def execWaitPacket (qn : QueueId) (h : PktHdr) (kind : Byte) (addr operand : Word) (s : State) : Host.Outcome State Fault Refusal :=
  .next (s.givePacket qn h (.wait kind addr operand))

/-- SIGNAL packet (R306). -/
def execSignalPacket (qn : QueueId) (h : PktHdr) (kind : Byte) (addr operand : Word) (s : State) : Host.Outcome State Fault Refusal :=
  .next (s.givePacket qn h (.signal kind addr operand))

/-- INDIRECT packet (R306, R308). -/
def execIndirectPacket (qn : QueueId) (h : PktHdr) (array : Word) (count : BitVec 32) (s : State) : Host.Outcome State Fault Refusal :=
  .next (s.givePacket qn h (.indirect array count))

/-- FENCE packet (R306). -/
def execFencePacket (qn : QueueId) (h : PktHdr) (scope : Byte) (s : State) : Host.Outcome State Fault Refusal :=
  .next (s.givePacket qn h (.fence scope))

/-- BUDGET packet (R306, R318). -/
def execBudgetPacket (qn : QueueId) (h : PktHdr) (addr : Word) (length : BitVec 32) (s : State) : Host.Outcome State Fault Refusal :=
  .next (s.givePacket qn h (.budget addr length))

/-- RING_DOORBELL (R304): ring.tail is written. -/
def execRingDoorbell (qn : QueueId) (ring : Fin 8) (tail : BitVec 32) (s : State) : Host.Outcome State Fault Refusal :=
  .next (s.doorbell qn ring tail)

/-- RING_BASE_WRITE (R304): ring.base is written. -/
def execRingBaseWrite (qn : QueueId) (ring : Fin 8) (value : Word) (s : State) : Host.Outcome State Fault Refusal :=
  .next (s.writeRingBase qn ring value)

/-- QUEUE_RESTART (R309): restart is written. -/
def execQueueRestart (qn : QueueId) (s : State) : Host.Outcome State Fault Refusal := .next (s.restartQueue qn)

/-- CP_RELOAD_COMPLETE (R371): the region's command processor is reloaded. -/
def execCpReloadComplete (g : RegionId) (s : State) : Host.Outcome State Fault Refusal := .next (s.reloadThreads g)

/-! ## Translation and tiers (R279, R282, R283, R285, R313) -/

def xinvBusy (sel : Word) : Bool := sel.getLsbD 63

/-- xinv.go is written: an invalidation of what xinv.sel selects starts, unless one is under way. -/
def State.startInvalidation (s : State) (tile : BitVec 32) : State :=
  if xinvBusy s.xinvSel then s
  else
    { s with
      xinvGo := tile.setWidth 64
      xinvSel := s.xinvSel ||| BitVec.twoPow 64 63
      xinvJob := some (s.xinvSel, tile.setWidth 64) }

/-- xinv.sel is written: its busy bit is not. -/
def State.writeXinvSel (s : State) (v : Word) : State :=
  { s with xinvSel := (s.xinvSel &&& BitVec.twoPow 64 63) ||| (v &&& 0x6000000FFFFFFFFF) }

/-- XINV_GO (R279). -/
def execXinvGo (tile : BitVec 32) (s : State) : Host.Outcome State Fault Refusal := .next (s.startInvalidation tile)

/-- INVALIDATION_COMPLETE (R279): the selected entries are gone and busy clears. -/
def execInvalidationComplete (s : State) : Host.Outcome State Fault Refusal :=
  .next (if xinvBusy s.xinvSel then s.invalidate else s)

/-- DEMOTION (R282, R283): a unit above its high mark demotes until it is at its low mark. -/
def execDemotion (unit : TierUnit) (s : State) : Host.Outcome State Fault Refusal := .next (s.demote unit)

/-- The done register of a host die is written: the entry of that request number is answered, with its handle, or with the frames wanted
(R283, R313).
(DEDUCED: log entry 88.) -/
def State.hostDone (s : State) (h : Fin 4) (request : Nat) (handle : BitVec 32) : State :=
  let ring := s.hostRings[h]
  if ring.entries.any (·.1 == request) then
    let s := if ring.entries.any (fun e => e.1 == request && e.2.1 == 0)
      then (Config.suppliedFrames request).foldl (fun (s : State) f => s.takeHostFrame f) s else s
    { s with hostRings := s.hostRings.set h.val { ring with done := BitVec.ofNat 64 (request % 2 ^ 32 + handle.toNat * 2 ^ 32)
                                                            entries := ring.entries.filter (·.1 != request) }
             moves := s.moves.map fun m => if m.id = request then { m with answer := some handle } else m }
  else s

/-- REQUEST_DONE (R313). -/
def execRequestDone (h : Fin 4) (request : Nat) (handle : BitVec 32) (s : State) : Host.Outcome State Fault Refusal :=
  .next (s.atStation (·.hostDone h request handle))

/-- MOVE_COMPLETE (R285): the move's final step. -/
def execMoveComplete (n : Nat) (s : State) : Host.Outcome State Fault Refusal := .next (s.completeMove n)

/-- One millisecond older, stopping at 255 (R283). -/
def FrameUse.older (u : FrameUse) : FrameUse := { u with age := min 255 (u.age + 1) }

/-- AGE_TICK (R283): every frame of every junction ages. -/
def execAgeTick (s : State) : Host.Outcome State Fault Refusal :=
  .next { s with juns := s.juns.map fun (j : Junction) => { j with frames := j.frames.map FrameUse.older } }

/-! ## Timetable, contacts, power (R316-R320, R325-R334) -/

/-- TIMETABLE_MESSAGE (R316): a message from the facility network. -/
def execTimetableMessage (bytes : List Byte) (s : State) : Host.Outcome State Fault Refusal := .next (s.atStation (·.receiveMessage bytes 0 0 0))

/-- The length in bytes of a message of `n` points: header, points, signature (R315). -/
def messageLength (n : Nat) : Nat := 64 + 16 * n + 4627

/-- tt.submit is written: the message at the address is submitted (R318, R320). -/
def State.submitMessage (s : State) (v : Word) : State :=
  let a := slice v.toNat 51 6 * 64
  let points := s.physNat (a + 2) 2
  ({ s with timing := { s.timing with submit := BitVec.ofNat 64 a } }).receiveMessage (s.physRead a (messageLength points)) 2 0 0

/-- TT_SUBMIT (R318). -/
def execTtSubmit (addr : Word) (s : State) : Host.Outcome State Fault Refusal := .next (s.atStation (·.submitMessage addr))

/-- TIMETABLE_IN_FORCE (R317): the pending timetable comes into force at its valid-from time. -/
def execTimetableInForce (s : State) : Host.Outcome State Fault Refusal := .next (s.atStation (·.pendingInForce))

/-- TIMETABLE_POINT (R317): the target moves to the next point. -/
def execTimetablePoint (s : State) : Host.Outcome State Fault Refusal := .next (s.atStation (·.reachPoint))

/-- KILL_COMPLETE (R334): the killed launch's waybill and completion record are written. -/
def execKillComplete (launch : BitVec 32) (s : State) : Host.Outcome State Fault Refusal := .next (s.killComplete launch.toNat)

/-- TASK_RESUME (R333): a parked task's banks come back from the siding. -/
def execTaskResume (task : Word) (s : State) : Host.Outcome State Fault Refusal := .next (s.resumeTask task)

/-- EV_BASE_WRITE (R320). -/
def execEvBaseWrite (value : Word) (s : State) : Host.Outcome State Fault Refusal := .next (s.atStation (·.writeEvBase value))

/-- CONTACT_SAMPLE (R330): open is 1. -/
def execContactSample (cs ch : Bool) (s : State) : Host.Outcome State Fault Refusal := .next (s.sampleContacts cs ch)

/-- TELEMETRY_SAMPLE (R325). -/
def execTelemetrySample (watts : List Nat) (s : State) : Host.Outcome State Fault Refusal := .next (s.atStation (·.sampleTelemetry watts))

/-- PERMIT_WINDOW (R327): a window starts at the governor. -/
def execPermitWindow (g : RegionId) (s : State) : Host.Outcome State Fault Refusal := .next (s.permitWindow g)

/-- DROOP_ALARM (R328). -/
def execDroopAlarm (g : RegionId) (s : State) : Host.Outcome State Fault Refusal := .next (s.droopAlarm g)

/-- DROOP_STRETCH_END (R328). -/
def execDroopStretchEnd (g : RegionId) (s : State) : Host.Outcome State Fault Refusal := .next (s.droopEnd g)

/-- DIE_GATE (R329): the governor gates its next drained die. -/
def execDieGate (g : RegionId) (s : State) : Host.Outcome State Fault Refusal := .next (s.gateNext g)

/-- DIE_UNGATE (R329): a gated die that something needs is ungated. -/
def execDieUngate (d : DieId) (s : State) : Host.Outcome State Fault Refusal := .next (if s.dieWanted d then s.ungate d else s)

/-- RERUN_ROUND (R348): the rerun's round ends and its next begins. -/
def execRerunRound (launch : BitVec 32) (s : State) : Host.Outcome State Fault Refusal := .next (s.nextRound launch.toNat)

end Sys2Proof.Machine
end

