-- ==== Sys2Proof/Machine/Registers.lean ====
section
/-! DEFINITION. The control and management range (R219): which register an address names, what a write to it does and what a read of it
gives. A write to a read-only register, to reserved bits, or to no register changes nothing; a read of no register gives zero. -/

namespace Sys2Proof.Machine

/-- The base of the control and management range, and the sizes of its blocks (R34, R219). -/
def controlBase : Nat := 0x200000000000
def regionBlock : Nat := 0x8000000
def stationBlock : Nat := 0x80000000

/-- A governor's registers (R326). -/
def State.writeGovernor (s : State) (g : RegionId) (o : Nat) (v : Word) : State :=
  if o = 0 then s.modRegion g fun r => { r with istep := v.setWidth 16 }
  else if o = 8 then s.modRegion g fun r => { r with chgLo := v }
  else if o = 16 then s.modRegion g fun r => { r with chgHi := v }
  else s

/-- A command processor's registers: ring `r` of thread `t` at t x 0x1000 + r x 0x40, its queue control register at + 0x800 (R304,
R309). -/
def State.writeProcessor (s : State) (g : RegionId) (o : Nat) (v : Word) : State :=
  let t := o / 0x1000
  let q := queueNo (32 * g.val + t % 32)
  let r : Fin 8 := ⟨o % 0x1000 / 0x40 % 8, Nat.mod_lt _ (by decide)⟩
  if 32 ≤ t then s
  else if o % 0x1000 = 0x800 then (if v.getLsbD 0 then s.restartQueue q else s)
  else if 0x200 ≤ o % 0x1000 then s
  else if o % 0x40 = 0 then s.writeRingBase q r v
  else if o % 0x40 = 8 then s.writeRingMirror q r v
  else if o % 0x40 = 16 then s.doorbell q r (v.setWidth 32)
  else s

/-- A barrier segment's registers (R216, R298): %barsel, %barmask under it, and each mask directly. -/
def State.writeSegment (s : State) (g : RegionId) (o : Nat) (v : Word) : State :=
  let sel := (s.regions[g]).barsel
  if o = 0 then (if crValueBad .barsel v then s else s.modRegion g fun r => { r with barsel := v.setWidth 8 })
  else if o = 8 then s.writeBarmask g (sel.toNat / 16) (sel.toNat % 16) v
  else if 0x100 ≤ o && o < 0x100 + 8 * 160 then s.writeBarmask g ((o - 0x100) / 8 / 10) ((o - 0x100) / 8 % 10) v
  else s

/-- The registers of a junction's or tier unit's block: watermarks, scrub (R282, R368). -/
def State.writeUnit (s : State) (u : TierUnit) (o : Nat) (v : Word) : State :=
  let hours (old : Nat) : Nat := if v.toNat % 256 = 0 then old else v.toNat % 256
  let thr := v.toNat % 2 ^ 32
  if o = 0 then s.setMarks u fun m => m.write true v.toNat
  else if o = 8 then s.setMarks u fun m => m.write false v.toNat
  else
    match u with
    | .junction j =>
      if o = 0x100 then s.modJun j fun k => { k with scrubHrs := hours k.scrubHrs }
      else if o = 0x108 then s.modJun j fun k => { k with scrubThr := thr }
      else s
    | .siding d =>
      let k := s.sidings[d]
      if o = 0x100 then { s with sidings := s.sidings.set d.val { k with scrubHrs := hours k.scrubHrs } }
      else if o = 0x108 then { s with sidings := s.sidings.set d.val { k with scrubThr := thr } }
      else s
    | .cxl _ | .host => s

/-- A region's block. -/
def State.writeRegion (s : State) (g : RegionId) (o : Nat) (v : Word) : State :=
  let i := o % 0x1000000 / 0x100000
  let low := o % 0x100000
  if o < 0x100000 then s.writeGovernor g o v
  else if o < 0x200000 then s.writeProcessor g low v
  else if o < 0x300000 then s.writeSegment g low v
  else if o < 0x400000 then
    (if low = 0 then s.writeXinvSel v else if low = 8 then s.startInvalidation (v.setWidth 32) else s)
  else if 10 ≤ i then s
  else if o / 0x1000000 = 1 then (if low = 0x80000 then s.armInjection (.die (dieNo (10 * g.val + i))) v else s)
  else if o / 0x1000000 = 2 then
    (if low = 0x80000 then s.armInjection (.junction (junFin (10 * g.val + i))) v else s.writeUnit (.junction (junFin (10 * g.val + i))) low v)
  else s

/-- A host die's request ring: its base, its done register (R313). -/
def State.writeHostRing (s : State) (h : Fin 4) (o : Nat) (v : Word) : State :=
  if o = 0 then { s with hostRings := s.hostRings.set h.val { s.hostRings[h] with base := v } }
  else if o = 16 then s.hostDone h (v.toNat % 2 ^ 32) (BitVec.ofNat 32 (v.toNat / 2 ^ 32))
  else s

/-- The mailbox command that a write of mbox.data starts: the code and session stand in mbox.cmd (R390). -/
def State.runMailbox (s : State) (addr : Word) : State :=
  let session := s.station.mailbox.session
  match s.station.mailbox.command.toNat with
  | 1 => s.mailMeasure session addr
  | 2 => s.mailAttest session addr
  | 3 => s.mailRelease session addr
  | 4 => s.mailAcknowledge session addr
  | 5 => s.mailLife session addr
  | _ => s

/-- The root of trust mailbox (R388-R390). -/
def State.writeMailbox (s : State) (o : Nat) (v : Word) : State :=
  let set (f : Mailbox → Mailbox) : State := { s with station := { s.station with mailbox := f s.station.mailbox } }
  if o = 0 then set fun m => { m with command := v.setWidth 8, session := BitVec.ofNat 32 (slice v.toNat 47 16) }
  else if o = 8 then s.runMailbox v
  else if o = 0x18 then s.stageFirmware (mailAddr v)
  else if o = 0x28 then
    (let n := v.toNat % 2 ^ 32
     if 1 ≤ n && n ≤ 86400 then set fun m => { m with window := n } else s)
  else s

/-- The active station's block (R282, R313, R320, R367, R380, R386, R390); with no station active nothing there accepts a write (R19). -/
def State.writeStation (s : State) (o : Nat) (v : Word) : State :=
  let unit := o % 0x100000 / 0x1000
  let low := o % 0x1000
  if s.station.active.isNone then s
  else if o = 0x10 then s.submitMessage v
  else if o = 0x18 then s.writeEvBase v
  else if o = 0x30 then s.writeLimit (v.setWidth 32)
  else if o = 0x1600010 then s.startRevocation v
  else if o = 0x1700010 then s.writePolicy v
  else if o = 0x1400000 then s.writeRasBase v
  else if o / 0x100000 = 0x10 then (if unit < 32 then s.writeUnit (.siding (sidingFin unit)) low v else s)
  else if o / 0x100000 = 0x11 then (if unit < 4 then s.writeUnit (.cxl (cxlFin unit)) low v else s)
  else if o / 0x100000 = 0x12 then (if unit = 0 then s.writeUnit .host low v else s)
  else if o / 0x100000 = 0x13 then (if unit < 4 then s.writeHostRing (cxlFin unit) low v else s)
  else if o / 0x100000 = 0x15 then s.writeMailbox (o % 0x100000) v
  else s

/-- A 64-bit write at an address of the control and management range. -/
def State.writeRegister (s : State) (addr : Nat) (v : Word) : State :=
  let o := addr - controlBase
  if addr < controlBase || addr % 8 != 0 then s
  else if o < stationBlock then s.writeRegion ⟨o / regionBlock % 16, Nat.mod_lt _ (by decide)⟩ (o % regionBlock) v
  else if o < stationBlock + 0x40000000 then s.writeStation (o - stationBlock) v
  else s

/-! ## Reads (R35, R219) -/

/-- A word of fields, each at its low bit. -/
def fieldWord (fs : List (Nat × Nat)) : Word := BitVec.ofNat 64 (fs.foldl (fun w f => w + f.1 * 2 ^ f.2) 0)

/-- A governor's registers (R326). -/
def State.governorWord (s : State) (g : RegionId) (o : Nat) : Word :=
  let r := s.regions[g]
  if o = 0 then r.istep.setWidth 64
  else if o = 8 then r.chgLo
  else if o = 16 then r.chgHi
  else if o = 24 then BitVec.ofNat 64 r.level.val
  else if o = 32 then fieldWord ((List.range 10).map fun i => (if s.dies[dieNo (10 * g.val + i)].gated then 1 else 0, i))
  else if o = 40 then fieldWord [(if r.droop then 1 else 0, 0), (r.droops.toNat, 32)]
  else 0

/-- A command processor's registers (R304, R309). -/
def State.processorWord (s : State) (g : RegionId) (o : Nat) : Word :=
  let k := s.queue (queueNo (32 * g.val + o / 0x1000 % 32))
  let r := k.rings[(⟨o % 0x1000 / 0x40 % 8, Nat.mod_lt _ (by decide)⟩ : Fin 8)]
  if 32 ≤ o / 0x1000 then 0
  else if o % 0x1000 = 0x800 then fieldWord [(k.state, 1), (k.error, 3), (k.stamp.toNat, 8)]
  else if 0x200 ≤ o % 0x1000 then 0
  else if o % 0x40 = 0 then r.base
  else if o % 0x40 = 8 then r.mirror
  else if o % 0x40 = 16 then r.tail.setWidth 64
  else if o % 0x40 = 24 then r.head.setWidth 64
  else 0

/-- A barrier segment's registers (R216, R298). -/
def State.segmentWord (s : State) (g : RegionId) (o : Nat) : Word :=
  let r := s.regions[g]
  if o = 0 then r.barsel.setWidth 64
  else if o = 8 then Sparse.get r.masks 0 (maskKey r.barsel)
  else if 0x100 ≤ o && o < 0x100 + 8 * 160 then Sparse.get r.masks 0 ((o - 0x100) / 8)
  else 0

/-- The registers of a junction's or tier unit's block (R282, R368). -/
def State.unitWord (s : State) (u : TierUnit) (o : Nat) : Word :=
  let m := s.unitMarks u
  let scrub (hours thr pos : Nat) : Word :=
    if o = 0x100 then BitVec.ofNat 64 hours else if o = 0x108 then BitVec.ofNat 64 thr else if o = 0x110 then BitVec.ofNat 64 pos else 0
  if o = 0 then BitVec.ofNat 64 m.high
  else if o = 8 then BitVec.ofNat 64 m.low
  else if o = 16 then BitVec.ofNat 64 m.used
  else
    match u with
    | .junction j => let k := s.juns[j]; scrub k.scrubHrs k.scrubThr k.scrubPos
    | .siding d => let k := s.sidings[d]; scrub k.scrubHrs k.scrubThr k.scrubPos
    | .cxl _ | .host => 0

/-- A region's block. -/
def State.regionWord (s : State) (g : RegionId) (o : Nat) : Word :=
  let i := o % 0x1000000 / 0x100000
  let low := o % 0x100000
  if o < 0x100000 then s.governorWord g o
  else if o < 0x200000 then s.processorWord g low
  else if o < 0x300000 then s.segmentWord g low
  else if o < 0x400000 then (if low = 0 then s.xinvSel else if low = 8 then s.xinvGo else 0)
  else if 10 ≤ i then 0
  else if o / 0x1000000 = 1 then (if low = 0x80000 then s.dies[dieNo (10 * g.val + i)].inject else 0)
  else if o / 0x1000000 = 2 then
    (if low = 0x80000 then (s.juns[junFin (10 * g.val + i)]).inject else s.unitWord (.junction (junFin (10 * g.val + i))) low)
  else 0

/-- The root of trust mailbox (R388, R390). -/
def State.mailboxWord (s : State) (o : Nat) : Word :=
  let m := s.station.mailbox
  if o = 0 then fieldWord [(m.command.toNat, 0), (m.session.toNat, 16)]
  else if o = 8 then m.data
  else if o = 16 then fieldWord [(m.status, 0), (m.retry, 16)]
  else if o = 24 then m.stage
  else if o = 32 then BitVec.ofNat 64 m.fwState
  else if o = 40 then BitVec.ofNat 64 m.window
  else 0

/-- The timetable unit's registers (R320). -/
def State.timingWord (s : State) (o : Nat) : Word :=
  let t := s.timing
  let g : Fin 16 := ⟨(o - 0x100) / 16 % 16, Nat.mod_lt _ (by decide)⟩
  if o = 0 then t.sequence
  else if o = 8 then BitVec.ofNat 64 t.target
  else if o = 0x10 then t.submit
  else if o = 0x18 then t.evBase
  else if o = 0x20 then t.evHead.setWidth 64
  else if o = 0x28 then fieldWord [(if t.contactS then 1 else 0, 0), (if t.contactH then 1 else 0, 1)]
  else if o = 0x30 then t.limit.setWidth 64
  else if o = 0x38 then t.power.setWidth 64
  else if 0x100 ≤ o && o < 0x200 then
    (if o % 16 = 0 then (s.regions[g]).power.setWidth 64 else if o % 16 = 8 then BitVec.ofNat 64 (s.regions[g]).level.val else 0)
  else 0

/-- The active station's block (R282, R313, R320, R367, R380, R386, R390); with no station active nothing there answers (R19). -/
def State.stationWord (s : State) (o : Nat) : Word :=
  let unit := o % 0x100000 / 0x1000
  let low := o % 0x1000
  if s.station.active.isNone then 0
  else if o < 0x200 then s.timingWord o
  else if o = 0x1400000 then s.errors.base
  else if o = 0x1400008 then s.errors.head.setWidth 64
  else if o = 0x1400010 then s.errors.count
  else if o = 0x1600010 then s.station.keyRevoke
  else if o = 0x1600018 then s.station.keyStatus
  else if o = 0x1700010 then s.station.alarms
  else if o / 0x100000 = 0x10 then (if unit < 32 then s.unitWord (.siding (sidingFin unit)) low else 0)
  else if o / 0x100000 = 0x11 then (if unit < 4 then s.unitWord (.cxl (cxlFin unit)) low else 0)
  else if o / 0x100000 = 0x12 then (if unit = 0 then s.unitWord .host low else 0)
  else if o / 0x100000 = 0x13 then
    (if 4 ≤ unit then 0
     else if low = 0 then (s.hostRings[cxlFin unit]).base else if low = 16 then (s.hostRings[cxlFin unit]).done else 0)
  else if o / 0x100000 = 0x15 then s.mailboxWord (o % 0x100000)
  else 0

/-- What a 64-bit read at an aligned address of the control and management range gives; zero where no register stands. -/
def State.readRegister (s : State) (addr : Nat) : Word :=
  let o := addr - controlBase
  if addr < controlBase || addr % 8 != 0 then 0
  else if o < stationBlock then s.regionWord ⟨o / regionBlock % 16, Nat.mod_lt _ (by decide)⟩ (o % regionBlock)
  else if o < stationBlock + 0x40000000 then s.stationWord (o - stationBlock)
  else 0

/-- REGISTER_WRITE (R216, R219): a driver's write to a register. -/
def execRegisterWrite (addr : Nat) (value : Word) (s : State) : Host.Outcome State Fault Refusal := .next (s.writeRegister addr value)

end Sys2Proof.Machine
end

