-- ==== Sys2Proof/Machine/PanelEvents.lean ====
section
/-! DEFINITION. The events of coherence, hosts, switches and links, errors, the station, worlds, keys and firmware, and what the agents
of the panel do when they are due. An event that is not due changes nothing (log entry 1), and nothing of the station's takes place while none
is active (R19). -/

namespace Sys2Proof.Machine

/-! ## Coherence and hosts (R267, R355-R363) -/

/-- COHERENCE_REQUEST (R355): a die that serves reads a line, or takes it for a write, at the line's resolving point, or a pod switch asks for
it (R359). A request for a line in recovery, or whose snoop is due at a die whose link is asleep, waits; the link wakes (R361, R363). -/
def execCoherenceRequest (asker : Requester) (line : Nat) (write : Bool) (s : State) : Host.Outcome State Fault Refusal :=
  .next (match asker with
    | .die d =>
      if !s.dieServes d.val then s
      else if s.lineWaits line (some d.val) write then s.wakeSnoops line (some d.val) write
      else if write then (s.ownLine d.val line none).reportOnce d.val line
      else s.readLine d.val line none
    | .switch k => if s.lineWaits line none write then s.wakeSnoops line none write else s.switchRequest k line write)

/-- The host holds a copy of host-bias lines it has accessed (R276, R358). -/
def State.hostCaches (s : State) (addr n : Nat) : State :=
  { s with hostCopies := ((linesOf addr n).filter s.hostBias).foldl (fun l x => insertNat x l) s.hostCopies }

/-- A host reads or writes HBM4 through the HDM range, at the home junction, which recalls die copies; while stabled, and while a line waits
for a link or a recovery, it is held (R267, R335, R361, R363). -/
def State.hostMemory (s : State) (addr : Nat) (write : Bool) (data : List Byte) : State :=
  if s.timing.stabled || s.agentWaits addr data.length then s
  else if write then (s.agentWrite addr data).hostCaches addr data.length
  else
    let s := ((linesOf addr data.length).foldl (fun (s : State) l => s.recallLine l) s).hostCaches addr data.length
    { s with hostData := s.physRead addr data.length }

/-- A host reads or writes a register through BAR0 (R219, R312): a write of eight aligned bytes, a read of any bytes.
(DESIGN CHOICE: log entry 112.) -/
def State.hostRegister (s : State) (addr : Nat) (write : Bool) (data : List Byte) : State :=
  if write then (if data.length = 8 then s.writeRegister addr (wordOfBytes data) else s)
  else
    { s with hostData := (List.range data.length).map fun i =>
        BitVec.ofNat 8 ((s.readRegister ((addr + i) / 8 * 8)).toNat / 2 ^ (8 * ((addr + i) % 8))) }

/-- HOST_ACCESS (R35, R267, R312): the HDM range maps the HBM4 range and BAR0 the control and management range. Any other address is no
address of either.
(DEDUCED: log entry 87. DEDUCED: log entry 96.) -/
def execHostAccess (addr : Nat) (write : Bool) (data : List Byte) (s : State) : Host.Outcome State Fault Refusal :=
  match rangeOf addr, rangeOf (addr + data.length - 1) with
  | .hbm _, .hbm _ => .next (s.hostMemory addr write data)
  | .control, .control => .next (s.hostRegister addr write data)
  | _, _ => .fault (.noSuchAddress addr)

/-- SWITCH_RECALL (R360): a switch recalls a line. -/
def execSwitchRecall (line : Nat) (dirty : Option LineReturn) (s : State) : Host.Outcome State Fault Refusal :=
  .next (s.switchRecall line dirty)

/-- SWITCH_LOSS (R361): lines delegated through the switch are in recovery. -/
def execSwitchLoss (sw : Nat) (s : State) : Host.Outcome State Fault Refusal := .next (s.loseSwitch sw)

/-- RECOVERY_COMPLETE (R361): a recovering line stands in S or X at its home. -/
def execRecoveryComplete (line : Nat) (outcome : Recovered) (s : State) : Host.Outcome State Fault Refusal :=
  .next (s.recoverLine line outcome)

/-- PANEL_ANSWER_TIMEOUT (R361): a panel has not answered for 1 ms. -/
def execPanelAnswerTimeout (answers : PanelAnswers) (s : State) : Host.Outcome State Fault Refusal := .next (s.failPanel answers)

/-- LINK_WAKE_COMPLETE (R363). -/
def execLinkWakeComplete (d : DieId) (j : JunId) (s : State) : Host.Outcome State Fault Refusal := .next (s.linkWake d j)

/-- LINK_WAKE_FAIL (R363). -/
def execLinkWakeFail (d : DieId) (j : JunId) (s : State) : Host.Outcome State Fault Refusal := .next (s.linkFail d j)

/-- DIE_DEAD (R363, R364). -/
def execDieDead (d : DieId) (s : State) : Host.Outcome State Fault Refusal := .next (s.killDie d)

/-! ## Errors (R365-R370) -/

/-- ERROR_DETECTED (R365). -/
def execErrorDetected (e : ErrorReport) (s : State) : Host.Outcome State Fault Refusal := .next (s.detectError e)

/-- RAS_BASE_WRITE (R367). -/
def execRasBaseWrite (value : Word) (s : State) : Host.Outcome State Fault Refusal := .next (s.atStation (·.writeRasBase value))

/-- SCRUB_STEP (R368). -/
def execScrubStep (unit : TierUnit) (result : ScrubResult) (s : State) : Host.Outcome State Fault Refusal := .next (s.scrub unit result)

/-- INJECTION_ARM (R369). -/
def execInjectionArm (place : InjPlace) (value : Word) (s : State) : Host.Outcome State Fault Refusal := .next (s.armInjection place value)

/-! ## The station (R374-R390) -/

/-- PANEL_RESET (R374-R378). -/
def execPanelReset (stations : BitVec 4) (images : List (List Byte)) (deadDies : List DieId) (deadJunctions : List JunId) (deadEdges : List (Fin 72))
    (s : State) : Host.Outcome State Fault Refusal := .next (s.resetPanel stations images deadDies deadJunctions deadEdges)

/-- HEARTBEAT (R374). -/
def execHeartbeat (s : State) : Host.Outcome State Fault Refusal := .next s.beat

/-- STATION_TAKEOVER (R374): no heartbeat for 10 ms. -/
def execStationTakeover (spares : Spares) (s : State) : Host.Outcome State Fault Refusal := .next (s.takeover spares)

/-- ALARM (R380). -/
def execAlarm (source : AlarmSource) (s : State) : Host.Outcome State Fault Refusal := .next (s.atStation (·.alarm source))

/-- ALARM_POLICY_WRITE (R380). -/
def execAlarmPolicyWrite (value : Word) (s : State) : Host.Outcome State Fault Refusal := .next (s.atStation (·.writePolicy value))

/-- WORLD_CREATE (R383). -/
def execWorldCreate (world : Byte) (rows : Nat) (slots : Word) (s : State) : Host.Outcome State Fault Refusal :=
  .next (s.atStation (·.createWorld world rows slots))

/-- WORLD_DESTROY (R383). -/
def execWorldDestroy (world : Byte) (s : State) : Host.Outcome State Fault Refusal := .next (s.atStation (·.destroyWorld world))

/-- MEASURE (R390). -/
def execMeasure (session : BitVec 32) (addr : Word) (s : State) : Host.Outcome State Fault Refusal := .next (s.atStation (·.mailMeasure session addr))

/-- ATTEST (R384). -/
def execAttest (session : BitVec 32) (addr : Word) (s : State) : Host.Outcome State Fault Refusal := .next (s.atStation (·.mailAttest session addr))

/-- RELEASE_KEY (R385). -/
def execReleaseKey (session : BitVec 32) (addr : Word) (s : State) : Host.Outcome State Fault Refusal := .next (s.atStation (·.mailRelease session addr))

/-- ACKNOWLEDGE (R389). -/
def execAcknowledge (session : BitVec 32) (addr : Word) (s : State) : Host.Outcome State Fault Refusal := .next (s.atStation (·.mailAcknowledge session addr))

/-- LIFE_CYCLE (R379). -/
def execLifeCycle (session : BitVec 32) (addr : Word) (s : State) : Host.Outcome State Fault Refusal := .next (s.atStation (·.mailLife session addr))

/-- KEY_REVOKE (R386). -/
def execKeyRevoke (value : Word) (s : State) : Host.Outcome State Fault Refusal := .next (s.atStation (·.startRevocation value))

/-- REVOCATION_COMPLETE (R386). -/
def execRevocationComplete (s : State) : Host.Outcome State Fault Refusal := .next (s.atStation (·.endRevocation))

/-- FW_STAGE (R388). -/
def execFwStage (addr : Word) (s : State) : Host.Outcome State Fault Refusal := .next (s.atStation (·.stageFirmware (mailAddr addr)))

/-- FW_ACTIVATE (R389). -/
def execFwActivate (s : State) : Host.Outcome State Fault Refusal := .next (s.atStation (·.activateFirmware))

/-- STAGING_LAPSE (R389). -/
def execStagingLapse (s : State) : Host.Outcome State Fault Refusal := .next (s.atStation (·.lapseStaging))

/-! ## What agents do when due -/

/-- What an agent of the panel has become due to do is done; what comes from outside is an instruction of its own and not done here. -/
def State.runDeed (s : State) : Deed → State
  | .outside _ => s
  | .permitWindow g => s.permitWindow g
  | .answerSpawn n x => s.answerRequest n x
  | .spawnIssued n x => s.issueRequest n x
  | .takePacket q => s.takePacket q
  | .startPacket q => s.advanceQueue q
  | .placeBlock l => s.advanceLaunch l
  | .completeLaunch l => s.completeLaunch l
  | .rerunRound l => s.nextRound l
  | .killComplete l => s.killComplete l
  | .ungateDie d => if s.dieWanted d then s.ungate d else s
  | .gateDies g => s.gateNext g
  | .ungateDies g => s.ungateNext g
  | .resumeTask t => s.resumeTask t
  | .timetableInForce => s.atStation (·.pendingInForce)
  | .timetablePoint => s.atStation (·.reachPoint)
  | .headroom => s.atStation fun s => s.raiseTasks (EventRecord.start s.time ((s.timing.inForce.map (·.sequence)).getD 0) 5)
  | .commitFirmware => s.commitFirmware
  | .stationReady => s.stationReady

end Sys2Proof.Machine
end

