-- ==== Sys2Proof/Machine/Dispatch.lean ====
section
/-! DEFINITION. The one map from an instruction or event to its meaning. -/

namespace Sys2Proof.Machine

/-- What an instruction, presented by the bank that holds the current row, or an event does. -/
def exec (i : Instr) (s : State) : Host.Outcome State Fault Refusal :=
  match i with
  | .add u d a b q => Sys2Proof.Machine.execAdd u d a b q s
  | .sub u d a b q => Sys2Proof.Machine.execSub u d a b q s
  | .mul u d a b q => Sys2Proof.Machine.execMul u d a b q s
  | .mulh u d a b q => Sys2Proof.Machine.execMulh u d a b q s
  | .mulhn u d a b q => Sys2Proof.Machine.execMulhn u d a b q s
  | .div u d a b q => Sys2Proof.Machine.execDiv u d a b q s
  | .divn u d a b q => Sys2Proof.Machine.execDivn u d a b q s
  | .rem u d a b q => Sys2Proof.Machine.execRem u d a b q s
  | .remn u d a b q => Sys2Proof.Machine.execRemn u d a b q s
  | .and u d a b q => Sys2Proof.Machine.execAnd u d a b q s
  | .or u d a b q => Sys2Proof.Machine.execOr u d a b q s
  | .xor u d a b q => Sys2Proof.Machine.execXor u d a b q s
  | .andn u d a b q => Sys2Proof.Machine.execAndn u d a b q s
  | .shl u d a b q => Sys2Proof.Machine.execShl u d a b q s
  | .shr u d a b q => Sys2Proof.Machine.execShr u d a b q s
  | .sar u d a b q => Sys2Proof.Machine.execSar u d a b q s
  | .rol u d a b q => Sys2Proof.Machine.execRol u d a b q s
  | .min u d a b q => Sys2Proof.Machine.execMin u d a b q s
  | .max u d a b q => Sys2Proof.Machine.execMax u d a b q s
  | .minn u d a b q => Sys2Proof.Machine.execMinn u d a b q s
  | .maxn u d a b q => Sys2Proof.Machine.execMaxn u d a b q s
  | .slt u d a b q => Sys2Proof.Machine.execSlt u d a b q s
  | .sltn u d a b q => Sys2Proof.Machine.execSltn u d a b q s
  | .seq u d a b q => Sys2Proof.Machine.execSeq u d a b q s
  | .sne u d a b q => Sys2Proof.Machine.execSne u d a b q s
  | .sel u d a b q => Sys2Proof.Machine.execSel u d a b q s
  | .clz u d a q => Sys2Proof.Machine.execClz u d a q s
  | .ctz u d a q => Sys2Proof.Machine.execCtz u d a q s
  | .popc u d a q => Sys2Proof.Machine.execPopc u d a q s
  | .sext u d a q m => Sys2Proof.Machine.execSext u d a q m s
  | .zext u d a q m => Sys2Proof.Machine.execZext u d a q m s
  | .mfs u d c => Sys2Proof.Machine.execMfs u d c s
  | .chk u a b q m => Sys2Proof.Machine.execChk u a b q m s
  | .addi u d a imm => Sys2Proof.Machine.execAddi u d a imm s
  | .andi u d a imm => Sys2Proof.Machine.execAndi u d a imm s
  | .ori u d a imm => Sys2Proof.Machine.execOri u d a imm s
  | .xori u d a imm => Sys2Proof.Machine.execXori u d a imm s
  | .shli u d a n => Sys2Proof.Machine.execShli u d a n s
  | .shri u d a n => Sys2Proof.Machine.execShri u d a n s
  | .sari u d a n => Sys2Proof.Machine.execSari u d a n s
  | .li u d imm => Sys2Proof.Machine.execLi u d imm s
  | .lui u d imm => Sys2Proof.Machine.execLui u d imm s
  | .vadd u d a b q w t => Sys2Proof.Machine.execVadd u d a b q w t s
  | .vsub u d a b q w t => Sys2Proof.Machine.execVsub u d a b q w t s
  | .vmul u d a b q w t => Sys2Proof.Machine.execVmul u d a b q w t s
  | .vmulh u d a b q w t => Sys2Proof.Machine.execVmulh u d a b q w t s
  | .vmin u d a b q w t => Sys2Proof.Machine.execVmin u d a b q w t s
  | .vmax u d a b q w t => Sys2Proof.Machine.execVmax u d a b q w t s
  | .vabs u d a q w t => Sys2Proof.Machine.execVabs u d a q w t s
  | .vneg u d a q w t => Sys2Proof.Machine.execVneg u d a q w t s
  | .vand u d a b q w => Sys2Proof.Machine.execVand u d a b q w s
  | .vor u d a b q w => Sys2Proof.Machine.execVor u d a b q w s
  | .vxor u d a b q w => Sys2Proof.Machine.execVxor u d a b q w s
  | .vandn u d a b q w => Sys2Proof.Machine.execVandn u d a b q w s
  | .vshl u d a b q w t => Sys2Proof.Machine.execVshl u d a b q w t s
  | .vshr u d a b q w t => Sys2Proof.Machine.execVshr u d a b q w t s
  | .vsar u d a b q w t => Sys2Proof.Machine.execVsar u d a b q w t s
  | .vadds u d a b q w t => Sys2Proof.Machine.execVadds u d a b q w t s
  | .vsubs u d a b q w t => Sys2Proof.Machine.execVsubs u d a b q w t s
  | .vfadd u d a b q w f => Sys2Proof.Machine.execVfadd u d a b q w f s
  | .vfsub u d a b q w f => Sys2Proof.Machine.execVfsub u d a b q w f s
  | .vfmul u d a b q w f => Sys2Proof.Machine.execVfmul u d a b q w f s
  | .vfma u d a b q w f => Sys2Proof.Machine.execVfma u d a b q w f s
  | .vfms u d a b q w f => Sys2Proof.Machine.execVfms u d a b q w f s
  | .vfmin u d a b q w f => Sys2Proof.Machine.execVfmin u d a b q w f s
  | .vfmax u d a b q w f => Sys2Proof.Machine.execVfmax u d a b q w f s
  | .vfabs u d a q w f => Sys2Proof.Machine.execVfabs u d a q w f s
  | .vfneg u d a q w f => Sys2Proof.Machine.execVfneg u d a q w f s
  | .vexp2 u d a q w f => Sys2Proof.Machine.execVexp2 u d a q w f s
  | .vlog2 u d a q w f => Sys2Proof.Machine.execVlog2 u d a q w f s
  | .vrcp u d a q w f => Sys2Proof.Machine.execVrcp u d a q w f s
  | .vrsqrt u d a q w f => Sys2Proof.Machine.execVrsqrt u d a q w f s
  | .vcmp u d a b c w t => Sys2Proof.Machine.execVcmp u d a b c w t s
  | .vfcmp u d a b c w f => Sys2Proof.Machine.execVfcmp u d a b c w f s
  | .qand u d a b w => Sys2Proof.Machine.execQand u d a b w s
  | .qor u d a b w => Sys2Proof.Machine.execQor u d a b w s
  | .qxor u d a b w => Sys2Proof.Machine.execQxor u d a b w s
  | .qnot u d a w => Sys2Proof.Machine.execQnot u d a w s
  | .qcnt u d a w => Sys2Proof.Machine.execQcnt u d a w s
  | .vsel u d a b q w => Sys2Proof.Machine.execVsel u d a b q w s
  | .vcvt u d a c q w m => Sys2Proof.Machine.execVcvt u d a c q w m s
  | .vbcast u d a q w t => Sys2Proof.Machine.execVbcast u d a q w t s
  | .vext u d a b w t => Sys2Proof.Machine.execVext u d a b w t s
  | .vperm u d a b q w t => Sys2Proof.Machine.execVperm u d a b q w t s
  | .vred u d a o q w => Sys2Proof.Machine.execVred u d a o q w s
  | .vscan u d a o q w => Sys2Proof.Machine.execVscan u d a o q w s
  | .vpack u d a q w => Sys2Proof.Machine.execVpack u d a q w s
  | .vunpack u d a b q w f => Sys2Proof.Machine.execVunpack u d a b q w f s
  | .vchk u a b q w c => Sys2Proof.Machine.execVchk u a b q w c s
  | .ldLS d a off => Sys2Proof.Machine.execLdLS d a off s
  | .ldLV d a off => Sys2Proof.Machine.execLdLV d a off s
  | .stLS d a off => Sys2Proof.Machine.execStLS d a off s
  | .stLV d a off => Sys2Proof.Machine.execStLV d a off s
  | .ldQS d a off => Sys2Proof.Machine.execLdQS d a off s
  | .ldQV d a off => Sys2Proof.Machine.execLdQV d a off s
  | .stQS d a off => Sys2Proof.Machine.execStQS d a off s
  | .stQV d a off => Sys2Proof.Machine.execStQV d a off s
  | .ldt a b v => Sys2Proof.Machine.execLdt a b v s
  | .stt d a b v => Sys2Proof.Machine.execStt d a b v s
  | .ldg a v off => Sys2Proof.Machine.execLdg a v off s
  | .stg d a v off => Sys2Proof.Machine.execStg d a v off s
  | .tagq d a q => Sys2Proof.Machine.execTagq d a q s
  | .tagset a b q => Sys2Proof.Machine.execTagset a b q s
  | .tagclr a q => Sys2Proof.Machine.execTagclr a q s
  | .tagclrAll q => Sys2Proof.Machine.execTagclrAll q s
  | .atomAdd a b sc ret t => Sys2Proof.Machine.execAtomAdd a b sc ret t s
  | .atomMin a b sc ret t => Sys2Proof.Machine.execAtomMin a b sc ret t s
  | .atomMax a b sc ret t => Sys2Proof.Machine.execAtomMax a b sc ret t s
  | .atomAnd a b sc ret t => Sys2Proof.Machine.execAtomAnd a b sc ret t s
  | .atomOr a b sc ret t => Sys2Proof.Machine.execAtomOr a b sc ret t s
  | .atomXor a b sc ret t => Sys2Proof.Machine.execAtomXor a b sc ret t s
  | .atomSwap a b sc ret t => Sys2Proof.Machine.execAtomSwap a b sc ret t s
  | .atomCas d a b sc ret t => Sys2Proof.Machine.execAtomCas d a b sc ret t s
  | .arrive a b sc row => Sys2Proof.Machine.execArrive a b sc row s
  | .waitp d a b sc => Sys2Proof.Machine.execWaitp d a b sc s
  | .acq a sc row => Sys2Proof.Machine.execAcq a sc row s
  | .rel a sc row => Sys2Proof.Machine.execRel a sc row s
  | .discard a b n => Sys2Proof.Machine.execDiscard a b n s
  | .pref a b w n => Sys2Proof.Machine.execPref a b w n s
  | .vpush d a p => Sys2Proof.Machine.execVpush d a p s
  | .mma d a b kb ka => Sys2Proof.Machine.execMma d a b kb ka s
  | .mmaZ d a b kb ka => Sys2Proof.Machine.execMmaZ d a b kb ka s
  | .mmaSat d a b kb ka => Sys2Proof.Machine.execMmaSat d a b kb ka s
  | .mmaN d kb ka a z b n => Sys2Proof.Machine.execMmaN d kb ka a z b n s
  | .tcfg d t c r => Sys2Proof.Machine.execTcfg d t c r s
  | .tzero d => Sys2Proof.Machine.execTzero d s
  | .trowW d a ix q hi => Sys2Proof.Machine.execTrowW d a ix q hi s
  | .trowR d a ix q hi => Sys2Proof.Machine.execTrowR d a ix q hi s
  | .tcolW d a ix q hi => Sys2Proof.Machine.execTcolW d a ix q hi s
  | .tcolR d a ix q hi => Sys2Proof.Machine.execTcolR d a ix q hi s
  | .tld d a b => Sys2Proof.Machine.execTld d a b s
  | .tst d a b => Sys2Proof.Machine.execTst d a b s
  | .cpyIn d a b h n => Sys2Proof.Machine.execCpyIn d a b h n s
  | .cpyInR d a b h => Sys2Proof.Machine.execCpyInR d a b h s
  | .cpyOut d a b h n => Sys2Proof.Machine.execCpyOut d a b h n s
  | .cpyGat d a b h n => Sys2Proof.Machine.execCpyGat d a b h n s
  | .cpySct d a b h n => Sys2Proof.Machine.execCpySct d a b h n s
  | .cpyLl d a b h qw => Sys2Proof.Machine.execCpyLl d a b h qw s
  | .send d a b q => Sys2Proof.Machine.execSend d a b q s
  | .red d a b t sc => Sys2Proof.Machine.execRed d a b t sc s
  | .seal d a b => Sys2Proof.Machine.execSeal d a b s
  | .opn d a b => Sys2Proof.Machine.execOpn d a b s
  | .nop n => Sys2Proof.Machine.execNop n s
  | .kli d imm => Sys2Proof.Machine.execKli d imm s
  | .kadd d a b => Sys2Proof.Machine.execKadd d a b s
  | .ksub d a b => Sys2Proof.Machine.execKsub d a b s
  | .kaddi d a imm => Sys2Proof.Machine.execKaddi d a imm s
  | .kand d a b => Sys2Proof.Machine.execKand d a b s
  | .kor d a b => Sys2Proof.Machine.execKor d a b s
  | .kshl d a b => Sys2Proof.Machine.execKshl d a b s
  | .kshr d a b => Sys2Proof.Machine.execKshr d a b s
  | .kget d c => Sys2Proof.Machine.execKget d c s
  | .kset a c => Sys2Proof.Machine.execKset a c s
  | .kvote d a q m => Sys2Proof.Machine.execKvote d a q m s
  | .br t => Sys2Proof.Machine.execBr t s
  | .bz c t => Sys2Proof.Machine.execBz c t s
  | .bnz c t => Sys2Proof.Machine.execBnz c t s
  | .beq d a off => Sys2Proof.Machine.execBeq d a off s
  | .bne d a off => Sys2Proof.Machine.execBne d a off s
  | .blt d a off => Sys2Proof.Machine.execBlt d a off s
  | .bge d a off => Sys2Proof.Machine.execBge d a off s
  | .call t => Sys2Proof.Machine.execCall t s
  | .ret => Sys2Proof.Machine.execRet s
  | .loop c l => Sys2Proof.Machine.execLoop c l s
  | .loopImmediate n l => Sys2Proof.Machine.execLoopImmediate n l s
  | .lbreak c => Sys2Proof.Machine.execLbreak c s
  | .lbreakUnconditional => Sys2Proof.Machine.execLbreakUnconditional s
  | .sfmt a => Sys2Proof.Machine.execSfmt a s
  | .wait d a => Sys2Proof.Machine.execWait d a s
  | .bar id sc => Sys2Proof.Machine.execBar id sc s
  | .fence sc => Sys2Proof.Machine.execFence sc s
  | .lstep n e => Sys2Proof.Machine.execLstep n e s
  | .leaveReq c => Sys2Proof.Machine.execLeaveReq c s
  | .leaveRet => Sys2Proof.Machine.execLeaveRet s
  | .seg => Sys2Proof.Machine.execSeg s
  | .rdv id => Sys2Proof.Machine.execRdv id s
  | .trap code => Sys2Proof.Machine.execTrap code s
  | .halt => Sys2Proof.Machine.execHalt s
  | .tret => Sys2Proof.Machine.execTret s
  | .tretSkip => Sys2Proof.Machine.execTretSkip s
  | .mtcr a c => Sys2Proof.Machine.execMtcr a c s
  | .mfcr d c => Sys2Proof.Machine.execMfcr d c s
  | .spawn d a => Sys2Proof.Machine.execSpawn d a s
  | .rerun d a => Sys2Proof.Machine.execRerun d a s
  | .bankctlYield => Sys2Proof.Machine.execBankctlYield s
  | .bankctlHold => Sys2Proof.Machine.execBankctlHold s
  | .bankctlRelease => Sys2Proof.Machine.execBankctlRelease s
  | .bankctlArm a => Sys2Proof.Machine.execBankctlArm a s
  | .bankctlDisarm => Sys2Proof.Machine.execBankctlDisarm s
  | .panelReset stations images deadDies deadJunctions deadEdges => Sys2Proof.Machine.execPanelReset stations images deadDies deadJunctions deadEdges s
  | .bundleIssue r => Sys2Proof.Machine.execBundleIssue r s
  | .rowUnfreeze r => Sys2Proof.Machine.execRowUnfreeze r s
  | .resultLand r x => Sys2Proof.Machine.execResultLand r x s
  | .kvoteResult r x => Sys2Proof.Machine.execKvoteResult r x s
  | .chkVerdict r x => Sys2Proof.Machine.execChkVerdict r x s
  | .translationWalk r => Sys2Proof.Machine.execTranslationWalk r s
  | .loadDataReturn n => Sys2Proof.Machine.execLoadDataReturn n s
  | .storePerform n => Sys2Proof.Machine.execStorePerform n s
  | .writeAcknowledge r x => Sys2Proof.Machine.execWriteAcknowledge r x s
  | .atomicPerform n => Sys2Proof.Machine.execAtomicPerform n s
  | .arrivePerform n => Sys2Proof.Machine.execArrivePerform n s
  | .lockAcquire n => Sys2Proof.Machine.execLockAcquire n s
  | .lockRelease n => Sys2Proof.Machine.execLockRelease n s
  | .discardPerform n => Sys2Proof.Machine.execDiscardPerform n s
  | .copyComplete n => Sys2Proof.Machine.execCopyComplete n s
  | .redPerform n => Sys2Proof.Machine.execRedPerform n s
  | .cipherComplete n => Sys2Proof.Machine.execCipherComplete n s
  | .mmaStepBegin r x => Sys2Proof.Machine.execMmaStepBegin r x s
  | .mmaStepLand r x => Sys2Proof.Machine.execMmaStepLand r x s
  | .messageArrival n => Sys2Proof.Machine.execMessageArrival n s
  | .spawnAnswer r x => Sys2Proof.Machine.execSpawnAnswer r x s
  | .bankSwitch r => Sys2Proof.Machine.execBankSwitch r s
  | .preemption r x => Sys2Proof.Machine.execPreemption r x s
  | .bankStop r x => Sys2Proof.Machine.execBankStop r x s
  | .bankResume r x => Sys2Proof.Machine.execBankResume r x s
  | .trapEntry r x => Sys2Proof.Machine.execTrapEntry r x s
  | .failedBankEmpty r x => Sys2Proof.Machine.execFailedBankEmpty r x s
  | .segmentCommit r x => Sys2Proof.Machine.execSegmentCommit r x s
  | .blockComplete r x => Sys2Proof.Machine.execBlockComplete r x s
  | .blockPlace launch => Sys2Proof.Machine.execBlockPlace launch s
  | .launchComplete launch => Sys2Proof.Machine.execLaunchComplete launch s
  | .barrierRelease r x => Sys2Proof.Machine.execBarrierRelease r x s
  | .rendezvousRelease launch => Sys2Proof.Machine.execRendezvousRelease launch s
  | .barmaskWrite g id die value => Sys2Proof.Machine.execBarmaskWrite g id die value s
  | .packetTake qn => Sys2Proof.Machine.execPacketTake qn s
  | .packetStart qn => Sys2Proof.Machine.execPacketStart qn s
  | .launchPacket qn h record => Sys2Proof.Machine.execLaunchPacket qn h record s
  | .taskPacket qn h body => Sys2Proof.Machine.execTaskPacket qn h body s
  | .rerunPacket qn h header => Sys2Proof.Machine.execRerunPacket qn h header s
  | .waitPacket qn h kind addr operand => Sys2Proof.Machine.execWaitPacket qn h kind addr operand s
  | .signalPacket qn h kind addr operand => Sys2Proof.Machine.execSignalPacket qn h kind addr operand s
  | .indirectPacket qn h array count => Sys2Proof.Machine.execIndirectPacket qn h array count s
  | .fencePacket qn h scope => Sys2Proof.Machine.execFencePacket qn h scope s
  | .budgetPacket qn h addr length => Sys2Proof.Machine.execBudgetPacket qn h addr length s
  | .ringDoorbell qn ring tail => Sys2Proof.Machine.execRingDoorbell qn ring tail s
  | .ringBaseWrite qn ring value => Sys2Proof.Machine.execRingBaseWrite qn ring value s
  | .queueRestart qn => Sys2Proof.Machine.execQueueRestart qn s
  | .xinvGo tile => Sys2Proof.Machine.execXinvGo tile s
  | .invalidationComplete => Sys2Proof.Machine.execInvalidationComplete s
  | .demotion unit => Sys2Proof.Machine.execDemotion unit s
  | .requestDone h request handle => Sys2Proof.Machine.execRequestDone h request handle s
  | .moveComplete n => Sys2Proof.Machine.execMoveComplete n s
  | .ageTick => Sys2Proof.Machine.execAgeTick s
  | .timetableMessage bytes => Sys2Proof.Machine.execTimetableMessage bytes s
  | .ttSubmit addr => Sys2Proof.Machine.execTtSubmit addr s
  | .timetableInForce => Sys2Proof.Machine.execTimetableInForce s
  | .timetablePoint => Sys2Proof.Machine.execTimetablePoint s
  | .killComplete launch => Sys2Proof.Machine.execKillComplete launch s
  | .taskResume task => Sys2Proof.Machine.execTaskResume task s
  | .evBaseWrite value => Sys2Proof.Machine.execEvBaseWrite value s
  | .contactSample cs ch => Sys2Proof.Machine.execContactSample cs ch s
  | .telemetrySample watts => Sys2Proof.Machine.execTelemetrySample watts s
  | .permitWindow g => Sys2Proof.Machine.execPermitWindow g s
  | .droopAlarm g => Sys2Proof.Machine.execDroopAlarm g s
  | .droopStretchEnd g => Sys2Proof.Machine.execDroopStretchEnd g s
  | .dieGate g => Sys2Proof.Machine.execDieGate g s
  | .dieUngate d => Sys2Proof.Machine.execDieUngate d s
  | .rerunRound launch => Sys2Proof.Machine.execRerunRound launch s
  | .coherenceRequest asker line write => Sys2Proof.Machine.execCoherenceRequest asker line write s
  | .hostAccess addr write data => Sys2Proof.Machine.execHostAccess addr write data s
  | .switchRecall line dirty => Sys2Proof.Machine.execSwitchRecall line dirty s
  | .switchLoss sw => Sys2Proof.Machine.execSwitchLoss sw s
  | .recoveryComplete line outcome => Sys2Proof.Machine.execRecoveryComplete line outcome s
  | .panelAnswerTimeout answers => Sys2Proof.Machine.execPanelAnswerTimeout answers s
  | .linkWakeComplete d j => Sys2Proof.Machine.execLinkWakeComplete d j s
  | .linkWakeFail d j => Sys2Proof.Machine.execLinkWakeFail d j s
  | .dieDead d => Sys2Proof.Machine.execDieDead d s
  | .errorDetected e => Sys2Proof.Machine.execErrorDetected e s
  | .cpReloadComplete g => Sys2Proof.Machine.execCpReloadComplete g s
  | .rasBaseWrite value => Sys2Proof.Machine.execRasBaseWrite value s
  | .scrubStep unit result => Sys2Proof.Machine.execScrubStep unit result s
  | .injectionArm place value => Sys2Proof.Machine.execInjectionArm place value s
  | .heartbeat => Sys2Proof.Machine.execHeartbeat s
  | .stationTakeover spares => Sys2Proof.Machine.execStationTakeover spares s
  | .alarm source => Sys2Proof.Machine.execAlarm source s
  | .alarmPolicyWrite value => Sys2Proof.Machine.execAlarmPolicyWrite value s
  | .worldCreate world rows slots => Sys2Proof.Machine.execWorldCreate world rows slots s
  | .worldDestroy world => Sys2Proof.Machine.execWorldDestroy world s
  | .measure session addr => Sys2Proof.Machine.execMeasure session addr s
  | .attest session addr => Sys2Proof.Machine.execAttest session addr s
  | .releaseKey session addr => Sys2Proof.Machine.execReleaseKey session addr s
  | .acknowledge session addr => Sys2Proof.Machine.execAcknowledge session addr s
  | .lifeCycle session addr => Sys2Proof.Machine.execLifeCycle session addr s
  | .keyRevoke value => Sys2Proof.Machine.execKeyRevoke value s
  | .revocationComplete => Sys2Proof.Machine.execRevocationComplete s
  | .fwStage addr => Sys2Proof.Machine.execFwStage addr s
  | .fwActivate => Sys2Proof.Machine.execFwActivate s
  | .stagingLapse => Sys2Proof.Machine.execStagingLapse s
  | .registerWrite addr value => Sys2Proof.Machine.execRegisterWrite addr value s
  | .retirementRequest r => Sys2Proof.Machine.execRetirementRequest r s

end Sys2Proof.Machine
end

