-- ==== Sys2Proof/Machine/Step.lean ====
section
/-! DEFINITION. One step of the panel, and the placing of an instruction where the next step fetches. -/

namespace Sys2Proof.Machine

/-- One step. The agents outside the rows act first, each at its time: an operation or event from outside, which is never a syllable, or
what an agent has become due to do. With none due, the current row has a cycle: the instruction due there is run by exec and the boundary
follows; a cycle that presents no bundle of one syllable is the row's own. Then the turn passes to the next row (log entry 1).
(DESIGN CHOICE: log entry 54.) -/
def step (s : State) : Host.Outcome State Fault Refusal :=
  match s.agenda with
  | (t, d) :: rest =>
    let s := { s with agenda := rest, time := max s.time t }
    match d with
    | .outside e => if (sylOf e).isSome then .next s else exec e s
    | d => .next (s.runDeed d)
  | [] =>
    match s.due with
    | some i =>
      match exec i s with
      | .next t => .next (t.rowBoundary s.cur).turn
      | .fault f => .fault f
      | .refused r => .refused r
    | none => .next (s.rowCycle s.cur).turn

/-- The state with one syllable, ending its bundle (E = 1), stored where the bank that holds the current row fetches next, that bank
running and at a bundle boundary outside any loop, and nothing due outside the rows (log entry 15). -/
def State.withFetchWord (s : State) (nbits w : Nat) : State :=
  let word : BitVec 32 := BitVec.ofNat 32 (w % 2 ^ nbits) ||| BitVec.twoPow 32 31
  let n := s.cur
  let x := (s.row n).holder
  let b := s.bank n x
  let t := s.modRow n fun r =>
    { r with retired := false, switch := 0, istore := Sparse.put r.istore ((b.info.codeBase + b.pc.toNat) % 32768) word }
  let t := t.modBank n x fun b =>
    { b with phase := .run, frames := [], nopLeft := 0, heldLeft := 0, voteHeld := false, waitLeft := 0, retouch := false, late := none
             verdict := none, stopReq := none, permit := .none }
  { t with agenda := [], blocked := [] }

end Sys2Proof.Machine
end

