-- ==== Sys2Proof/Laws/State.lean ====
section
/-! SUPPORT. What each update of the state leaves alone, field by field, and the row and bank an update reads back. -/

namespace Sys2Proof.Machine

/-! ## setRow -/

@[simp] theorem State.setRow_agenda (s : State) (n : Nat) (r : Row) : (s.setRow n r).agenda = s.agenda := rfl
@[simp] theorem State.setRow_cur (s : State) (n : Nat) (r : Row) : (s.setRow n r).cur = s.cur := rfl
@[simp] theorem State.setRow_blocked (s : State) (n : Nat) (r : Row) : (s.setRow n r).blocked = s.blocked := rfl
@[simp] theorem State.setRow_freeSeq (s : State) (n : Nat) (r : Row) : (s.setRow n r).freeSeq = s.freeSeq := rfl
@[simp] theorem State.setRow_nextId (s : State) (n : Nat) (r : Row) : (s.setRow n r).nextId = s.nextId := rfl
@[simp] theorem State.setRow_time (s : State) (n : Nat) (r : Row) : (s.setRow n r).time = s.time := rfl
@[simp] theorem State.setRow_panelId (s : State) (n : Nat) (r : Row) : (s.setRow n r).panelId = s.panelId := rfl
@[simp] theorem State.setRow_mem (s : State) (n : Nat) (r : Row) : (s.setRow n r).mem = s.mem := rfl
@[simp] theorem State.setRow_cipher (s : State) (n : Nat) (r : Row) : (s.setRow n r).cipher = s.cipher := rfl
@[simp] theorem State.setRow_poison (s : State) (n : Nat) (r : Row) : (s.setRow n r).poison = s.poison := rfl
@[simp] theorem State.setRow_sealed (s : State) (n : Nat) (r : Row) : (s.setRow n r).sealed = s.sealed := rfl
@[simp] theorem State.setRow_pend (s : State) (n : Nat) (r : Row) : (s.setRow n r).pend = s.pend := rfl
@[simp] theorem State.setRow_moves (s : State) (n : Nat) (r : Row) : (s.setRow n r).moves = s.moves := rfl
@[simp] theorem State.setRow_dies (s : State) (n : Nat) (r : Row) : (s.setRow n r).dies = s.dies := rfl
@[simp] theorem State.setRow_juns (s : State) (n : Nat) (r : Row) : (s.setRow n r).juns = s.juns := rfl
@[simp] theorem State.setRow_sidings (s : State) (n : Nat) (r : Row) : (s.setRow n r).sidings = s.sidings := rfl
@[simp] theorem State.setRow_cxl (s : State) (n : Nat) (r : Row) : (s.setRow n r).cxl = s.cxl := rfl
@[simp] theorem State.setRow_host (s : State) (n : Nat) (r : Row) : (s.setRow n r).host = s.host := rfl
@[simp] theorem State.setRow_hostPool (s : State) (n : Nat) (r : Row) : (s.setRow n r).hostPool = s.hostPool := rfl
@[simp] theorem State.setRow_hostCopies (s : State) (n : Nat) (r : Row) : (s.setRow n r).hostCopies = s.hostCopies := rfl
@[simp] theorem State.setRow_waiting (s : State) (n : Nat) (r : Row) : (s.setRow n r).waiting = s.waiting := rfl
@[simp] theorem State.setRow_edges (s : State) (n : Nat) (r : Row) : (s.setRow n r).edges = s.edges := rfl
@[simp] theorem State.setRow_hostRings (s : State) (n : Nat) (r : Row) : (s.setRow n r).hostRings = s.hostRings := rfl
@[simp] theorem State.setRow_regions (s : State) (n : Nat) (r : Row) : (s.setRow n r).regions = s.regions := rfl
@[simp] theorem State.setRow_xinvSel (s : State) (n : Nat) (r : Row) : (s.setRow n r).xinvSel = s.xinvSel := rfl
@[simp] theorem State.setRow_xinvGo (s : State) (n : Nat) (r : Row) : (s.setRow n r).xinvGo = s.xinvGo := rfl
@[simp] theorem State.setRow_xinvJob (s : State) (n : Nat) (r : Row) : (s.setRow n r).xinvJob = s.xinvJob := rfl
@[simp] theorem State.setRow_wgen (s : State) (n : Nat) (r : Row) : (s.setRow n r).wgen = s.wgen := rfl
@[simp] theorem State.setRow_lastId (s : State) (n : Nat) (r : Row) : (s.setRow n r).lastId = s.lastId := rfl
@[simp] theorem State.setRow_launches (s : State) (n : Nat) (r : Row) : (s.setRow n r).launches = s.launches := rfl
@[simp] theorem State.setRow_released (s : State) (n : Nat) (r : Row) : (s.setRow n r).released = s.released := rfl
@[simp] theorem State.setRow_worlds (s : State) (n : Nat) (r : Row) : (s.setRow n r).worlds = s.worlds := rfl
@[simp] theorem State.setRow_tasks (s : State) (n : Nat) (r : Row) : (s.setRow n r).tasks = s.tasks := rfl
@[simp] theorem State.setRow_timing (s : State) (n : Nat) (r : Row) : (s.setRow n r).timing = s.timing := rfl
@[simp] theorem State.setRow_errors (s : State) (n : Nat) (r : Row) : (s.setRow n r).errors = s.errors := rfl
@[simp] theorem State.setRow_station (s : State) (n : Nat) (r : Row) : (s.setRow n r).station = s.station := rfl
@[simp] theorem State.setRow_slots (s : State) (n : Nat) (r : Row) : (s.setRow n r).slots = s.slots := rfl
@[simp] theorem State.setRow_msix (s : State) (n : Nat) (r : Row) : (s.setRow n r).msix = s.msix := rfl
@[simp] theorem State.setRow_hostData (s : State) (n : Nat) (r : Row) : (s.setRow n r).hostData = s.hostData := rfl
@[simp] theorem State.setRow_interrupts (s : State) (n : Nat) (r : Row) : (s.setRow n r).interrupts = s.interrupts := rfl
@[simp] theorem State.setRow_vectors (s : State) (n : Nat) (r : Row) : (s.setRow n r).vectors = s.vectors := rfl
@[simp] theorem State.setRow_pod (s : State) (n : Nat) (r : Row) : (s.setRow n r).pod = s.pod := rfl

/-! ## modRow -/

@[simp] theorem State.modRow_agenda (s : State) (n : Nat) (f : Row → Row) : (s.modRow n f).agenda = s.agenda := rfl
@[simp] theorem State.modRow_cur (s : State) (n : Nat) (f : Row → Row) : (s.modRow n f).cur = s.cur := rfl
@[simp] theorem State.modRow_blocked (s : State) (n : Nat) (f : Row → Row) : (s.modRow n f).blocked = s.blocked := rfl
@[simp] theorem State.modRow_freeSeq (s : State) (n : Nat) (f : Row → Row) : (s.modRow n f).freeSeq = s.freeSeq := rfl
@[simp] theorem State.modRow_nextId (s : State) (n : Nat) (f : Row → Row) : (s.modRow n f).nextId = s.nextId := rfl
@[simp] theorem State.modRow_time (s : State) (n : Nat) (f : Row → Row) : (s.modRow n f).time = s.time := rfl
@[simp] theorem State.modRow_panelId (s : State) (n : Nat) (f : Row → Row) : (s.modRow n f).panelId = s.panelId := rfl
@[simp] theorem State.modRow_mem (s : State) (n : Nat) (f : Row → Row) : (s.modRow n f).mem = s.mem := rfl
@[simp] theorem State.modRow_cipher (s : State) (n : Nat) (f : Row → Row) : (s.modRow n f).cipher = s.cipher := rfl
@[simp] theorem State.modRow_poison (s : State) (n : Nat) (f : Row → Row) : (s.modRow n f).poison = s.poison := rfl
@[simp] theorem State.modRow_sealed (s : State) (n : Nat) (f : Row → Row) : (s.modRow n f).sealed = s.sealed := rfl
@[simp] theorem State.modRow_pend (s : State) (n : Nat) (f : Row → Row) : (s.modRow n f).pend = s.pend := rfl
@[simp] theorem State.modRow_moves (s : State) (n : Nat) (f : Row → Row) : (s.modRow n f).moves = s.moves := rfl
@[simp] theorem State.modRow_dies (s : State) (n : Nat) (f : Row → Row) : (s.modRow n f).dies = s.dies := rfl
@[simp] theorem State.modRow_juns (s : State) (n : Nat) (f : Row → Row) : (s.modRow n f).juns = s.juns := rfl
@[simp] theorem State.modRow_sidings (s : State) (n : Nat) (f : Row → Row) : (s.modRow n f).sidings = s.sidings := rfl
@[simp] theorem State.modRow_cxl (s : State) (n : Nat) (f : Row → Row) : (s.modRow n f).cxl = s.cxl := rfl
@[simp] theorem State.modRow_host (s : State) (n : Nat) (f : Row → Row) : (s.modRow n f).host = s.host := rfl
@[simp] theorem State.modRow_hostPool (s : State) (n : Nat) (f : Row → Row) : (s.modRow n f).hostPool = s.hostPool := rfl
@[simp] theorem State.modRow_hostCopies (s : State) (n : Nat) (f : Row → Row) : (s.modRow n f).hostCopies = s.hostCopies := rfl
@[simp] theorem State.modRow_waiting (s : State) (n : Nat) (f : Row → Row) : (s.modRow n f).waiting = s.waiting := rfl
@[simp] theorem State.modRow_edges (s : State) (n : Nat) (f : Row → Row) : (s.modRow n f).edges = s.edges := rfl
@[simp] theorem State.modRow_hostRings (s : State) (n : Nat) (f : Row → Row) : (s.modRow n f).hostRings = s.hostRings := rfl
@[simp] theorem State.modRow_regions (s : State) (n : Nat) (f : Row → Row) : (s.modRow n f).regions = s.regions := rfl
@[simp] theorem State.modRow_xinvSel (s : State) (n : Nat) (f : Row → Row) : (s.modRow n f).xinvSel = s.xinvSel := rfl
@[simp] theorem State.modRow_xinvGo (s : State) (n : Nat) (f : Row → Row) : (s.modRow n f).xinvGo = s.xinvGo := rfl
@[simp] theorem State.modRow_xinvJob (s : State) (n : Nat) (f : Row → Row) : (s.modRow n f).xinvJob = s.xinvJob := rfl
@[simp] theorem State.modRow_wgen (s : State) (n : Nat) (f : Row → Row) : (s.modRow n f).wgen = s.wgen := rfl
@[simp] theorem State.modRow_lastId (s : State) (n : Nat) (f : Row → Row) : (s.modRow n f).lastId = s.lastId := rfl
@[simp] theorem State.modRow_launches (s : State) (n : Nat) (f : Row → Row) : (s.modRow n f).launches = s.launches := rfl
@[simp] theorem State.modRow_released (s : State) (n : Nat) (f : Row → Row) : (s.modRow n f).released = s.released := rfl
@[simp] theorem State.modRow_worlds (s : State) (n : Nat) (f : Row → Row) : (s.modRow n f).worlds = s.worlds := rfl
@[simp] theorem State.modRow_tasks (s : State) (n : Nat) (f : Row → Row) : (s.modRow n f).tasks = s.tasks := rfl
@[simp] theorem State.modRow_timing (s : State) (n : Nat) (f : Row → Row) : (s.modRow n f).timing = s.timing := rfl
@[simp] theorem State.modRow_errors (s : State) (n : Nat) (f : Row → Row) : (s.modRow n f).errors = s.errors := rfl
@[simp] theorem State.modRow_station (s : State) (n : Nat) (f : Row → Row) : (s.modRow n f).station = s.station := rfl
@[simp] theorem State.modRow_slots (s : State) (n : Nat) (f : Row → Row) : (s.modRow n f).slots = s.slots := rfl
@[simp] theorem State.modRow_msix (s : State) (n : Nat) (f : Row → Row) : (s.modRow n f).msix = s.msix := rfl
@[simp] theorem State.modRow_hostData (s : State) (n : Nat) (f : Row → Row) : (s.modRow n f).hostData = s.hostData := rfl
@[simp] theorem State.modRow_interrupts (s : State) (n : Nat) (f : Row → Row) : (s.modRow n f).interrupts = s.interrupts := rfl
@[simp] theorem State.modRow_vectors (s : State) (n : Nat) (f : Row → Row) : (s.modRow n f).vectors = s.vectors := rfl
@[simp] theorem State.modRow_pod (s : State) (n : Nat) (f : Row → Row) : (s.modRow n f).pod = s.pod := rfl

/-! ## modBank -/

@[simp] theorem State.modBank_agenda (s : State) (n : Nat) (x : Side) (f : Bank → Bank) : (s.modBank n x f).agenda = s.agenda := rfl
@[simp] theorem State.modBank_cur (s : State) (n : Nat) (x : Side) (f : Bank → Bank) : (s.modBank n x f).cur = s.cur := rfl
@[simp] theorem State.modBank_blocked (s : State) (n : Nat) (x : Side) (f : Bank → Bank) : (s.modBank n x f).blocked = s.blocked := rfl
@[simp] theorem State.modBank_freeSeq (s : State) (n : Nat) (x : Side) (f : Bank → Bank) : (s.modBank n x f).freeSeq = s.freeSeq := rfl
@[simp] theorem State.modBank_nextId (s : State) (n : Nat) (x : Side) (f : Bank → Bank) : (s.modBank n x f).nextId = s.nextId := rfl
@[simp] theorem State.modBank_time (s : State) (n : Nat) (x : Side) (f : Bank → Bank) : (s.modBank n x f).time = s.time := rfl
@[simp] theorem State.modBank_panelId (s : State) (n : Nat) (x : Side) (f : Bank → Bank) : (s.modBank n x f).panelId = s.panelId := rfl
@[simp] theorem State.modBank_mem (s : State) (n : Nat) (x : Side) (f : Bank → Bank) : (s.modBank n x f).mem = s.mem := rfl
@[simp] theorem State.modBank_cipher (s : State) (n : Nat) (x : Side) (f : Bank → Bank) : (s.modBank n x f).cipher = s.cipher := rfl
@[simp] theorem State.modBank_poison (s : State) (n : Nat) (x : Side) (f : Bank → Bank) : (s.modBank n x f).poison = s.poison := rfl
@[simp] theorem State.modBank_sealed (s : State) (n : Nat) (x : Side) (f : Bank → Bank) : (s.modBank n x f).sealed = s.sealed := rfl
@[simp] theorem State.modBank_pend (s : State) (n : Nat) (x : Side) (f : Bank → Bank) : (s.modBank n x f).pend = s.pend := rfl
@[simp] theorem State.modBank_moves (s : State) (n : Nat) (x : Side) (f : Bank → Bank) : (s.modBank n x f).moves = s.moves := rfl
@[simp] theorem State.modBank_dies (s : State) (n : Nat) (x : Side) (f : Bank → Bank) : (s.modBank n x f).dies = s.dies := rfl
@[simp] theorem State.modBank_juns (s : State) (n : Nat) (x : Side) (f : Bank → Bank) : (s.modBank n x f).juns = s.juns := rfl
@[simp] theorem State.modBank_sidings (s : State) (n : Nat) (x : Side) (f : Bank → Bank) : (s.modBank n x f).sidings = s.sidings := rfl
@[simp] theorem State.modBank_cxl (s : State) (n : Nat) (x : Side) (f : Bank → Bank) : (s.modBank n x f).cxl = s.cxl := rfl
@[simp] theorem State.modBank_host (s : State) (n : Nat) (x : Side) (f : Bank → Bank) : (s.modBank n x f).host = s.host := rfl
@[simp] theorem State.modBank_hostPool (s : State) (n : Nat) (x : Side) (f : Bank → Bank) : (s.modBank n x f).hostPool = s.hostPool := rfl
@[simp] theorem State.modBank_hostCopies (s : State) (n : Nat) (x : Side) (f : Bank → Bank) : (s.modBank n x f).hostCopies = s.hostCopies := rfl
@[simp] theorem State.modBank_waiting (s : State) (n : Nat) (x : Side) (f : Bank → Bank) : (s.modBank n x f).waiting = s.waiting := rfl
@[simp] theorem State.modBank_edges (s : State) (n : Nat) (x : Side) (f : Bank → Bank) : (s.modBank n x f).edges = s.edges := rfl
@[simp] theorem State.modBank_hostRings (s : State) (n : Nat) (x : Side) (f : Bank → Bank) : (s.modBank n x f).hostRings = s.hostRings := rfl
@[simp] theorem State.modBank_regions (s : State) (n : Nat) (x : Side) (f : Bank → Bank) : (s.modBank n x f).regions = s.regions := rfl
@[simp] theorem State.modBank_xinvSel (s : State) (n : Nat) (x : Side) (f : Bank → Bank) : (s.modBank n x f).xinvSel = s.xinvSel := rfl
@[simp] theorem State.modBank_xinvGo (s : State) (n : Nat) (x : Side) (f : Bank → Bank) : (s.modBank n x f).xinvGo = s.xinvGo := rfl
@[simp] theorem State.modBank_xinvJob (s : State) (n : Nat) (x : Side) (f : Bank → Bank) : (s.modBank n x f).xinvJob = s.xinvJob := rfl
@[simp] theorem State.modBank_wgen (s : State) (n : Nat) (x : Side) (f : Bank → Bank) : (s.modBank n x f).wgen = s.wgen := rfl
@[simp] theorem State.modBank_lastId (s : State) (n : Nat) (x : Side) (f : Bank → Bank) : (s.modBank n x f).lastId = s.lastId := rfl
@[simp] theorem State.modBank_launches (s : State) (n : Nat) (x : Side) (f : Bank → Bank) : (s.modBank n x f).launches = s.launches := rfl
@[simp] theorem State.modBank_released (s : State) (n : Nat) (x : Side) (f : Bank → Bank) : (s.modBank n x f).released = s.released := rfl
@[simp] theorem State.modBank_worlds (s : State) (n : Nat) (x : Side) (f : Bank → Bank) : (s.modBank n x f).worlds = s.worlds := rfl
@[simp] theorem State.modBank_tasks (s : State) (n : Nat) (x : Side) (f : Bank → Bank) : (s.modBank n x f).tasks = s.tasks := rfl
@[simp] theorem State.modBank_timing (s : State) (n : Nat) (x : Side) (f : Bank → Bank) : (s.modBank n x f).timing = s.timing := rfl
@[simp] theorem State.modBank_errors (s : State) (n : Nat) (x : Side) (f : Bank → Bank) : (s.modBank n x f).errors = s.errors := rfl
@[simp] theorem State.modBank_station (s : State) (n : Nat) (x : Side) (f : Bank → Bank) : (s.modBank n x f).station = s.station := rfl
@[simp] theorem State.modBank_slots (s : State) (n : Nat) (x : Side) (f : Bank → Bank) : (s.modBank n x f).slots = s.slots := rfl
@[simp] theorem State.modBank_msix (s : State) (n : Nat) (x : Side) (f : Bank → Bank) : (s.modBank n x f).msix = s.msix := rfl
@[simp] theorem State.modBank_hostData (s : State) (n : Nat) (x : Side) (f : Bank → Bank) : (s.modBank n x f).hostData = s.hostData := rfl
@[simp] theorem State.modBank_interrupts (s : State) (n : Nat) (x : Side) (f : Bank → Bank) : (s.modBank n x f).interrupts = s.interrupts := rfl
@[simp] theorem State.modBank_vectors (s : State) (n : Nat) (x : Side) (f : Bank → Bank) : (s.modBank n x f).vectors = s.vectors := rfl
@[simp] theorem State.modBank_pod (s : State) (n : Nat) (x : Side) (f : Bank → Bank) : (s.modBank n x f).pod = s.pod := rfl

/-! ## modCore -/

@[simp] theorem State.modCore_agenda (s : State) (n : Nat) (c : Fin 64) (f : Core → Core) : (s.modCore n c f).agenda = s.agenda := rfl
@[simp] theorem State.modCore_cur (s : State) (n : Nat) (c : Fin 64) (f : Core → Core) : (s.modCore n c f).cur = s.cur := rfl
@[simp] theorem State.modCore_blocked (s : State) (n : Nat) (c : Fin 64) (f : Core → Core) : (s.modCore n c f).blocked = s.blocked := rfl
@[simp] theorem State.modCore_freeSeq (s : State) (n : Nat) (c : Fin 64) (f : Core → Core) : (s.modCore n c f).freeSeq = s.freeSeq := rfl
@[simp] theorem State.modCore_nextId (s : State) (n : Nat) (c : Fin 64) (f : Core → Core) : (s.modCore n c f).nextId = s.nextId := rfl
@[simp] theorem State.modCore_time (s : State) (n : Nat) (c : Fin 64) (f : Core → Core) : (s.modCore n c f).time = s.time := rfl
@[simp] theorem State.modCore_panelId (s : State) (n : Nat) (c : Fin 64) (f : Core → Core) : (s.modCore n c f).panelId = s.panelId := rfl
@[simp] theorem State.modCore_mem (s : State) (n : Nat) (c : Fin 64) (f : Core → Core) : (s.modCore n c f).mem = s.mem := rfl
@[simp] theorem State.modCore_cipher (s : State) (n : Nat) (c : Fin 64) (f : Core → Core) : (s.modCore n c f).cipher = s.cipher := rfl
@[simp] theorem State.modCore_poison (s : State) (n : Nat) (c : Fin 64) (f : Core → Core) : (s.modCore n c f).poison = s.poison := rfl
@[simp] theorem State.modCore_sealed (s : State) (n : Nat) (c : Fin 64) (f : Core → Core) : (s.modCore n c f).sealed = s.sealed := rfl
@[simp] theorem State.modCore_pend (s : State) (n : Nat) (c : Fin 64) (f : Core → Core) : (s.modCore n c f).pend = s.pend := rfl
@[simp] theorem State.modCore_moves (s : State) (n : Nat) (c : Fin 64) (f : Core → Core) : (s.modCore n c f).moves = s.moves := rfl
@[simp] theorem State.modCore_dies (s : State) (n : Nat) (c : Fin 64) (f : Core → Core) : (s.modCore n c f).dies = s.dies := rfl
@[simp] theorem State.modCore_juns (s : State) (n : Nat) (c : Fin 64) (f : Core → Core) : (s.modCore n c f).juns = s.juns := rfl
@[simp] theorem State.modCore_sidings (s : State) (n : Nat) (c : Fin 64) (f : Core → Core) : (s.modCore n c f).sidings = s.sidings := rfl
@[simp] theorem State.modCore_cxl (s : State) (n : Nat) (c : Fin 64) (f : Core → Core) : (s.modCore n c f).cxl = s.cxl := rfl
@[simp] theorem State.modCore_host (s : State) (n : Nat) (c : Fin 64) (f : Core → Core) : (s.modCore n c f).host = s.host := rfl
@[simp] theorem State.modCore_hostPool (s : State) (n : Nat) (c : Fin 64) (f : Core → Core) : (s.modCore n c f).hostPool = s.hostPool := rfl
@[simp] theorem State.modCore_hostCopies (s : State) (n : Nat) (c : Fin 64) (f : Core → Core) : (s.modCore n c f).hostCopies = s.hostCopies := rfl
@[simp] theorem State.modCore_waiting (s : State) (n : Nat) (c : Fin 64) (f : Core → Core) : (s.modCore n c f).waiting = s.waiting := rfl
@[simp] theorem State.modCore_edges (s : State) (n : Nat) (c : Fin 64) (f : Core → Core) : (s.modCore n c f).edges = s.edges := rfl
@[simp] theorem State.modCore_hostRings (s : State) (n : Nat) (c : Fin 64) (f : Core → Core) : (s.modCore n c f).hostRings = s.hostRings := rfl
@[simp] theorem State.modCore_regions (s : State) (n : Nat) (c : Fin 64) (f : Core → Core) : (s.modCore n c f).regions = s.regions := rfl
@[simp] theorem State.modCore_xinvSel (s : State) (n : Nat) (c : Fin 64) (f : Core → Core) : (s.modCore n c f).xinvSel = s.xinvSel := rfl
@[simp] theorem State.modCore_xinvGo (s : State) (n : Nat) (c : Fin 64) (f : Core → Core) : (s.modCore n c f).xinvGo = s.xinvGo := rfl
@[simp] theorem State.modCore_xinvJob (s : State) (n : Nat) (c : Fin 64) (f : Core → Core) : (s.modCore n c f).xinvJob = s.xinvJob := rfl
@[simp] theorem State.modCore_wgen (s : State) (n : Nat) (c : Fin 64) (f : Core → Core) : (s.modCore n c f).wgen = s.wgen := rfl
@[simp] theorem State.modCore_lastId (s : State) (n : Nat) (c : Fin 64) (f : Core → Core) : (s.modCore n c f).lastId = s.lastId := rfl
@[simp] theorem State.modCore_launches (s : State) (n : Nat) (c : Fin 64) (f : Core → Core) : (s.modCore n c f).launches = s.launches := rfl
@[simp] theorem State.modCore_released (s : State) (n : Nat) (c : Fin 64) (f : Core → Core) : (s.modCore n c f).released = s.released := rfl
@[simp] theorem State.modCore_worlds (s : State) (n : Nat) (c : Fin 64) (f : Core → Core) : (s.modCore n c f).worlds = s.worlds := rfl
@[simp] theorem State.modCore_tasks (s : State) (n : Nat) (c : Fin 64) (f : Core → Core) : (s.modCore n c f).tasks = s.tasks := rfl
@[simp] theorem State.modCore_timing (s : State) (n : Nat) (c : Fin 64) (f : Core → Core) : (s.modCore n c f).timing = s.timing := rfl
@[simp] theorem State.modCore_errors (s : State) (n : Nat) (c : Fin 64) (f : Core → Core) : (s.modCore n c f).errors = s.errors := rfl
@[simp] theorem State.modCore_station (s : State) (n : Nat) (c : Fin 64) (f : Core → Core) : (s.modCore n c f).station = s.station := rfl
@[simp] theorem State.modCore_slots (s : State) (n : Nat) (c : Fin 64) (f : Core → Core) : (s.modCore n c f).slots = s.slots := rfl
@[simp] theorem State.modCore_msix (s : State) (n : Nat) (c : Fin 64) (f : Core → Core) : (s.modCore n c f).msix = s.msix := rfl
@[simp] theorem State.modCore_hostData (s : State) (n : Nat) (c : Fin 64) (f : Core → Core) : (s.modCore n c f).hostData = s.hostData := rfl
@[simp] theorem State.modCore_interrupts (s : State) (n : Nat) (c : Fin 64) (f : Core → Core) : (s.modCore n c f).interrupts = s.interrupts := rfl
@[simp] theorem State.modCore_vectors (s : State) (n : Nat) (c : Fin 64) (f : Core → Core) : (s.modCore n c f).vectors = s.vectors := rfl
@[simp] theorem State.modCore_pod (s : State) (n : Nat) (c : Fin 64) (f : Core → Core) : (s.modCore n c f).pod = s.pod := rfl

/-! ## modCoreBank -/

@[simp] theorem State.modCoreBank_agenda (s : State) (n : Nat) (x : Side) (c : Fin 64) (f : CoreBank → CoreBank) : (s.modCoreBank n x c f).agenda = s.agenda := rfl
@[simp] theorem State.modCoreBank_cur (s : State) (n : Nat) (x : Side) (c : Fin 64) (f : CoreBank → CoreBank) : (s.modCoreBank n x c f).cur = s.cur := rfl
@[simp] theorem State.modCoreBank_blocked (s : State) (n : Nat) (x : Side) (c : Fin 64) (f : CoreBank → CoreBank) : (s.modCoreBank n x c f).blocked = s.blocked := rfl
@[simp] theorem State.modCoreBank_freeSeq (s : State) (n : Nat) (x : Side) (c : Fin 64) (f : CoreBank → CoreBank) : (s.modCoreBank n x c f).freeSeq = s.freeSeq := rfl
@[simp] theorem State.modCoreBank_nextId (s : State) (n : Nat) (x : Side) (c : Fin 64) (f : CoreBank → CoreBank) : (s.modCoreBank n x c f).nextId = s.nextId := rfl
@[simp] theorem State.modCoreBank_time (s : State) (n : Nat) (x : Side) (c : Fin 64) (f : CoreBank → CoreBank) : (s.modCoreBank n x c f).time = s.time := rfl
@[simp] theorem State.modCoreBank_panelId (s : State) (n : Nat) (x : Side) (c : Fin 64) (f : CoreBank → CoreBank) : (s.modCoreBank n x c f).panelId = s.panelId := rfl
@[simp] theorem State.modCoreBank_mem (s : State) (n : Nat) (x : Side) (c : Fin 64) (f : CoreBank → CoreBank) : (s.modCoreBank n x c f).mem = s.mem := rfl
@[simp] theorem State.modCoreBank_cipher (s : State) (n : Nat) (x : Side) (c : Fin 64) (f : CoreBank → CoreBank) : (s.modCoreBank n x c f).cipher = s.cipher := rfl
@[simp] theorem State.modCoreBank_poison (s : State) (n : Nat) (x : Side) (c : Fin 64) (f : CoreBank → CoreBank) : (s.modCoreBank n x c f).poison = s.poison := rfl
@[simp] theorem State.modCoreBank_sealed (s : State) (n : Nat) (x : Side) (c : Fin 64) (f : CoreBank → CoreBank) : (s.modCoreBank n x c f).sealed = s.sealed := rfl
@[simp] theorem State.modCoreBank_pend (s : State) (n : Nat) (x : Side) (c : Fin 64) (f : CoreBank → CoreBank) : (s.modCoreBank n x c f).pend = s.pend := rfl
@[simp] theorem State.modCoreBank_moves (s : State) (n : Nat) (x : Side) (c : Fin 64) (f : CoreBank → CoreBank) : (s.modCoreBank n x c f).moves = s.moves := rfl
@[simp] theorem State.modCoreBank_dies (s : State) (n : Nat) (x : Side) (c : Fin 64) (f : CoreBank → CoreBank) : (s.modCoreBank n x c f).dies = s.dies := rfl
@[simp] theorem State.modCoreBank_juns (s : State) (n : Nat) (x : Side) (c : Fin 64) (f : CoreBank → CoreBank) : (s.modCoreBank n x c f).juns = s.juns := rfl
@[simp] theorem State.modCoreBank_sidings (s : State) (n : Nat) (x : Side) (c : Fin 64) (f : CoreBank → CoreBank) : (s.modCoreBank n x c f).sidings = s.sidings := rfl
@[simp] theorem State.modCoreBank_cxl (s : State) (n : Nat) (x : Side) (c : Fin 64) (f : CoreBank → CoreBank) : (s.modCoreBank n x c f).cxl = s.cxl := rfl
@[simp] theorem State.modCoreBank_host (s : State) (n : Nat) (x : Side) (c : Fin 64) (f : CoreBank → CoreBank) : (s.modCoreBank n x c f).host = s.host := rfl
@[simp] theorem State.modCoreBank_hostPool (s : State) (n : Nat) (x : Side) (c : Fin 64) (f : CoreBank → CoreBank) : (s.modCoreBank n x c f).hostPool = s.hostPool := rfl
@[simp] theorem State.modCoreBank_hostCopies (s : State) (n : Nat) (x : Side) (c : Fin 64) (f : CoreBank → CoreBank) : (s.modCoreBank n x c f).hostCopies = s.hostCopies := rfl
@[simp] theorem State.modCoreBank_waiting (s : State) (n : Nat) (x : Side) (c : Fin 64) (f : CoreBank → CoreBank) : (s.modCoreBank n x c f).waiting = s.waiting := rfl
@[simp] theorem State.modCoreBank_edges (s : State) (n : Nat) (x : Side) (c : Fin 64) (f : CoreBank → CoreBank) : (s.modCoreBank n x c f).edges = s.edges := rfl
@[simp] theorem State.modCoreBank_hostRings (s : State) (n : Nat) (x : Side) (c : Fin 64) (f : CoreBank → CoreBank) : (s.modCoreBank n x c f).hostRings = s.hostRings := rfl
@[simp] theorem State.modCoreBank_regions (s : State) (n : Nat) (x : Side) (c : Fin 64) (f : CoreBank → CoreBank) : (s.modCoreBank n x c f).regions = s.regions := rfl
@[simp] theorem State.modCoreBank_xinvSel (s : State) (n : Nat) (x : Side) (c : Fin 64) (f : CoreBank → CoreBank) : (s.modCoreBank n x c f).xinvSel = s.xinvSel := rfl
@[simp] theorem State.modCoreBank_xinvGo (s : State) (n : Nat) (x : Side) (c : Fin 64) (f : CoreBank → CoreBank) : (s.modCoreBank n x c f).xinvGo = s.xinvGo := rfl
@[simp] theorem State.modCoreBank_xinvJob (s : State) (n : Nat) (x : Side) (c : Fin 64) (f : CoreBank → CoreBank) : (s.modCoreBank n x c f).xinvJob = s.xinvJob := rfl
@[simp] theorem State.modCoreBank_wgen (s : State) (n : Nat) (x : Side) (c : Fin 64) (f : CoreBank → CoreBank) : (s.modCoreBank n x c f).wgen = s.wgen := rfl
@[simp] theorem State.modCoreBank_lastId (s : State) (n : Nat) (x : Side) (c : Fin 64) (f : CoreBank → CoreBank) : (s.modCoreBank n x c f).lastId = s.lastId := rfl
@[simp] theorem State.modCoreBank_launches (s : State) (n : Nat) (x : Side) (c : Fin 64) (f : CoreBank → CoreBank) : (s.modCoreBank n x c f).launches = s.launches := rfl
@[simp] theorem State.modCoreBank_released (s : State) (n : Nat) (x : Side) (c : Fin 64) (f : CoreBank → CoreBank) : (s.modCoreBank n x c f).released = s.released := rfl
@[simp] theorem State.modCoreBank_worlds (s : State) (n : Nat) (x : Side) (c : Fin 64) (f : CoreBank → CoreBank) : (s.modCoreBank n x c f).worlds = s.worlds := rfl
@[simp] theorem State.modCoreBank_tasks (s : State) (n : Nat) (x : Side) (c : Fin 64) (f : CoreBank → CoreBank) : (s.modCoreBank n x c f).tasks = s.tasks := rfl
@[simp] theorem State.modCoreBank_timing (s : State) (n : Nat) (x : Side) (c : Fin 64) (f : CoreBank → CoreBank) : (s.modCoreBank n x c f).timing = s.timing := rfl
@[simp] theorem State.modCoreBank_errors (s : State) (n : Nat) (x : Side) (c : Fin 64) (f : CoreBank → CoreBank) : (s.modCoreBank n x c f).errors = s.errors := rfl
@[simp] theorem State.modCoreBank_station (s : State) (n : Nat) (x : Side) (c : Fin 64) (f : CoreBank → CoreBank) : (s.modCoreBank n x c f).station = s.station := rfl
@[simp] theorem State.modCoreBank_slots (s : State) (n : Nat) (x : Side) (c : Fin 64) (f : CoreBank → CoreBank) : (s.modCoreBank n x c f).slots = s.slots := rfl
@[simp] theorem State.modCoreBank_msix (s : State) (n : Nat) (x : Side) (c : Fin 64) (f : CoreBank → CoreBank) : (s.modCoreBank n x c f).msix = s.msix := rfl
@[simp] theorem State.modCoreBank_hostData (s : State) (n : Nat) (x : Side) (c : Fin 64) (f : CoreBank → CoreBank) : (s.modCoreBank n x c f).hostData = s.hostData := rfl
@[simp] theorem State.modCoreBank_interrupts (s : State) (n : Nat) (x : Side) (c : Fin 64) (f : CoreBank → CoreBank) : (s.modCoreBank n x c f).interrupts = s.interrupts := rfl
@[simp] theorem State.modCoreBank_vectors (s : State) (n : Nat) (x : Side) (c : Fin 64) (f : CoreBank → CoreBank) : (s.modCoreBank n x c f).vectors = s.vectors := rfl
@[simp] theorem State.modCoreBank_pod (s : State) (n : Nat) (x : Side) (c : Fin 64) (f : CoreBank → CoreBank) : (s.modCoreBank n x c f).pod = s.pod := rfl

/-! ## modRegion -/

@[simp] theorem State.modRegion_agenda (s : State) (g : Fin 16) (f : Region → Region) : (s.modRegion g f).agenda = s.agenda := rfl
@[simp] theorem State.modRegion_cur (s : State) (g : Fin 16) (f : Region → Region) : (s.modRegion g f).cur = s.cur := rfl
@[simp] theorem State.modRegion_blocked (s : State) (g : Fin 16) (f : Region → Region) : (s.modRegion g f).blocked = s.blocked := rfl
@[simp] theorem State.modRegion_freeSeq (s : State) (g : Fin 16) (f : Region → Region) : (s.modRegion g f).freeSeq = s.freeSeq := rfl
@[simp] theorem State.modRegion_nextId (s : State) (g : Fin 16) (f : Region → Region) : (s.modRegion g f).nextId = s.nextId := rfl
@[simp] theorem State.modRegion_time (s : State) (g : Fin 16) (f : Region → Region) : (s.modRegion g f).time = s.time := rfl
@[simp] theorem State.modRegion_panelId (s : State) (g : Fin 16) (f : Region → Region) : (s.modRegion g f).panelId = s.panelId := rfl
@[simp] theorem State.modRegion_rows (s : State) (g : Fin 16) (f : Region → Region) : (s.modRegion g f).rows = s.rows := rfl
@[simp] theorem State.modRegion_mem (s : State) (g : Fin 16) (f : Region → Region) : (s.modRegion g f).mem = s.mem := rfl
@[simp] theorem State.modRegion_cipher (s : State) (g : Fin 16) (f : Region → Region) : (s.modRegion g f).cipher = s.cipher := rfl
@[simp] theorem State.modRegion_poison (s : State) (g : Fin 16) (f : Region → Region) : (s.modRegion g f).poison = s.poison := rfl
@[simp] theorem State.modRegion_sealed (s : State) (g : Fin 16) (f : Region → Region) : (s.modRegion g f).sealed = s.sealed := rfl
@[simp] theorem State.modRegion_pend (s : State) (g : Fin 16) (f : Region → Region) : (s.modRegion g f).pend = s.pend := rfl
@[simp] theorem State.modRegion_moves (s : State) (g : Fin 16) (f : Region → Region) : (s.modRegion g f).moves = s.moves := rfl
@[simp] theorem State.modRegion_dies (s : State) (g : Fin 16) (f : Region → Region) : (s.modRegion g f).dies = s.dies := rfl
@[simp] theorem State.modRegion_juns (s : State) (g : Fin 16) (f : Region → Region) : (s.modRegion g f).juns = s.juns := rfl
@[simp] theorem State.modRegion_sidings (s : State) (g : Fin 16) (f : Region → Region) : (s.modRegion g f).sidings = s.sidings := rfl
@[simp] theorem State.modRegion_cxl (s : State) (g : Fin 16) (f : Region → Region) : (s.modRegion g f).cxl = s.cxl := rfl
@[simp] theorem State.modRegion_host (s : State) (g : Fin 16) (f : Region → Region) : (s.modRegion g f).host = s.host := rfl
@[simp] theorem State.modRegion_hostPool (s : State) (g : Fin 16) (f : Region → Region) : (s.modRegion g f).hostPool = s.hostPool := rfl
@[simp] theorem State.modRegion_hostCopies (s : State) (g : Fin 16) (f : Region → Region) : (s.modRegion g f).hostCopies = s.hostCopies := rfl
@[simp] theorem State.modRegion_waiting (s : State) (g : Fin 16) (f : Region → Region) : (s.modRegion g f).waiting = s.waiting := rfl
@[simp] theorem State.modRegion_edges (s : State) (g : Fin 16) (f : Region → Region) : (s.modRegion g f).edges = s.edges := rfl
@[simp] theorem State.modRegion_hostRings (s : State) (g : Fin 16) (f : Region → Region) : (s.modRegion g f).hostRings = s.hostRings := rfl
@[simp] theorem State.modRegion_xinvSel (s : State) (g : Fin 16) (f : Region → Region) : (s.modRegion g f).xinvSel = s.xinvSel := rfl
@[simp] theorem State.modRegion_xinvGo (s : State) (g : Fin 16) (f : Region → Region) : (s.modRegion g f).xinvGo = s.xinvGo := rfl
@[simp] theorem State.modRegion_xinvJob (s : State) (g : Fin 16) (f : Region → Region) : (s.modRegion g f).xinvJob = s.xinvJob := rfl
@[simp] theorem State.modRegion_wgen (s : State) (g : Fin 16) (f : Region → Region) : (s.modRegion g f).wgen = s.wgen := rfl
@[simp] theorem State.modRegion_lastId (s : State) (g : Fin 16) (f : Region → Region) : (s.modRegion g f).lastId = s.lastId := rfl
@[simp] theorem State.modRegion_launches (s : State) (g : Fin 16) (f : Region → Region) : (s.modRegion g f).launches = s.launches := rfl
@[simp] theorem State.modRegion_released (s : State) (g : Fin 16) (f : Region → Region) : (s.modRegion g f).released = s.released := rfl
@[simp] theorem State.modRegion_worlds (s : State) (g : Fin 16) (f : Region → Region) : (s.modRegion g f).worlds = s.worlds := rfl
@[simp] theorem State.modRegion_tasks (s : State) (g : Fin 16) (f : Region → Region) : (s.modRegion g f).tasks = s.tasks := rfl
@[simp] theorem State.modRegion_timing (s : State) (g : Fin 16) (f : Region → Region) : (s.modRegion g f).timing = s.timing := rfl
@[simp] theorem State.modRegion_errors (s : State) (g : Fin 16) (f : Region → Region) : (s.modRegion g f).errors = s.errors := rfl
@[simp] theorem State.modRegion_station (s : State) (g : Fin 16) (f : Region → Region) : (s.modRegion g f).station = s.station := rfl
@[simp] theorem State.modRegion_slots (s : State) (g : Fin 16) (f : Region → Region) : (s.modRegion g f).slots = s.slots := rfl
@[simp] theorem State.modRegion_msix (s : State) (g : Fin 16) (f : Region → Region) : (s.modRegion g f).msix = s.msix := rfl
@[simp] theorem State.modRegion_hostData (s : State) (g : Fin 16) (f : Region → Region) : (s.modRegion g f).hostData = s.hostData := rfl
@[simp] theorem State.modRegion_interrupts (s : State) (g : Fin 16) (f : Region → Region) : (s.modRegion g f).interrupts = s.interrupts := rfl
@[simp] theorem State.modRegion_vectors (s : State) (g : Fin 16) (f : Region → Region) : (s.modRegion g f).vectors = s.vectors := rfl
@[simp] theorem State.modRegion_pod (s : State) (g : Fin 16) (f : Region → Region) : (s.modRegion g f).pod = s.pod := rfl

/-! ## modDie -/

@[simp] theorem State.modDie_agenda (s : State) (d : Fin 160) (f : Die → Die) : (s.modDie d f).agenda = s.agenda := rfl
@[simp] theorem State.modDie_cur (s : State) (d : Fin 160) (f : Die → Die) : (s.modDie d f).cur = s.cur := rfl
@[simp] theorem State.modDie_blocked (s : State) (d : Fin 160) (f : Die → Die) : (s.modDie d f).blocked = s.blocked := rfl
@[simp] theorem State.modDie_freeSeq (s : State) (d : Fin 160) (f : Die → Die) : (s.modDie d f).freeSeq = s.freeSeq := rfl
@[simp] theorem State.modDie_nextId (s : State) (d : Fin 160) (f : Die → Die) : (s.modDie d f).nextId = s.nextId := rfl
@[simp] theorem State.modDie_time (s : State) (d : Fin 160) (f : Die → Die) : (s.modDie d f).time = s.time := rfl
@[simp] theorem State.modDie_panelId (s : State) (d : Fin 160) (f : Die → Die) : (s.modDie d f).panelId = s.panelId := rfl
@[simp] theorem State.modDie_rows (s : State) (d : Fin 160) (f : Die → Die) : (s.modDie d f).rows = s.rows := rfl
@[simp] theorem State.modDie_mem (s : State) (d : Fin 160) (f : Die → Die) : (s.modDie d f).mem = s.mem := rfl
@[simp] theorem State.modDie_cipher (s : State) (d : Fin 160) (f : Die → Die) : (s.modDie d f).cipher = s.cipher := rfl
@[simp] theorem State.modDie_poison (s : State) (d : Fin 160) (f : Die → Die) : (s.modDie d f).poison = s.poison := rfl
@[simp] theorem State.modDie_sealed (s : State) (d : Fin 160) (f : Die → Die) : (s.modDie d f).sealed = s.sealed := rfl
@[simp] theorem State.modDie_pend (s : State) (d : Fin 160) (f : Die → Die) : (s.modDie d f).pend = s.pend := rfl
@[simp] theorem State.modDie_moves (s : State) (d : Fin 160) (f : Die → Die) : (s.modDie d f).moves = s.moves := rfl
@[simp] theorem State.modDie_juns (s : State) (d : Fin 160) (f : Die → Die) : (s.modDie d f).juns = s.juns := rfl
@[simp] theorem State.modDie_sidings (s : State) (d : Fin 160) (f : Die → Die) : (s.modDie d f).sidings = s.sidings := rfl
@[simp] theorem State.modDie_cxl (s : State) (d : Fin 160) (f : Die → Die) : (s.modDie d f).cxl = s.cxl := rfl
@[simp] theorem State.modDie_host (s : State) (d : Fin 160) (f : Die → Die) : (s.modDie d f).host = s.host := rfl
@[simp] theorem State.modDie_hostPool (s : State) (d : Fin 160) (f : Die → Die) : (s.modDie d f).hostPool = s.hostPool := rfl
@[simp] theorem State.modDie_hostCopies (s : State) (d : Fin 160) (f : Die → Die) : (s.modDie d f).hostCopies = s.hostCopies := rfl
@[simp] theorem State.modDie_waiting (s : State) (d : Fin 160) (f : Die → Die) : (s.modDie d f).waiting = s.waiting := rfl
@[simp] theorem State.modDie_edges (s : State) (d : Fin 160) (f : Die → Die) : (s.modDie d f).edges = s.edges := rfl
@[simp] theorem State.modDie_hostRings (s : State) (d : Fin 160) (f : Die → Die) : (s.modDie d f).hostRings = s.hostRings := rfl
@[simp] theorem State.modDie_regions (s : State) (d : Fin 160) (f : Die → Die) : (s.modDie d f).regions = s.regions := rfl
@[simp] theorem State.modDie_xinvSel (s : State) (d : Fin 160) (f : Die → Die) : (s.modDie d f).xinvSel = s.xinvSel := rfl
@[simp] theorem State.modDie_xinvGo (s : State) (d : Fin 160) (f : Die → Die) : (s.modDie d f).xinvGo = s.xinvGo := rfl
@[simp] theorem State.modDie_xinvJob (s : State) (d : Fin 160) (f : Die → Die) : (s.modDie d f).xinvJob = s.xinvJob := rfl
@[simp] theorem State.modDie_wgen (s : State) (d : Fin 160) (f : Die → Die) : (s.modDie d f).wgen = s.wgen := rfl
@[simp] theorem State.modDie_lastId (s : State) (d : Fin 160) (f : Die → Die) : (s.modDie d f).lastId = s.lastId := rfl
@[simp] theorem State.modDie_launches (s : State) (d : Fin 160) (f : Die → Die) : (s.modDie d f).launches = s.launches := rfl
@[simp] theorem State.modDie_released (s : State) (d : Fin 160) (f : Die → Die) : (s.modDie d f).released = s.released := rfl
@[simp] theorem State.modDie_worlds (s : State) (d : Fin 160) (f : Die → Die) : (s.modDie d f).worlds = s.worlds := rfl
@[simp] theorem State.modDie_tasks (s : State) (d : Fin 160) (f : Die → Die) : (s.modDie d f).tasks = s.tasks := rfl
@[simp] theorem State.modDie_timing (s : State) (d : Fin 160) (f : Die → Die) : (s.modDie d f).timing = s.timing := rfl
@[simp] theorem State.modDie_errors (s : State) (d : Fin 160) (f : Die → Die) : (s.modDie d f).errors = s.errors := rfl
@[simp] theorem State.modDie_station (s : State) (d : Fin 160) (f : Die → Die) : (s.modDie d f).station = s.station := rfl
@[simp] theorem State.modDie_slots (s : State) (d : Fin 160) (f : Die → Die) : (s.modDie d f).slots = s.slots := rfl
@[simp] theorem State.modDie_msix (s : State) (d : Fin 160) (f : Die → Die) : (s.modDie d f).msix = s.msix := rfl
@[simp] theorem State.modDie_hostData (s : State) (d : Fin 160) (f : Die → Die) : (s.modDie d f).hostData = s.hostData := rfl
@[simp] theorem State.modDie_interrupts (s : State) (d : Fin 160) (f : Die → Die) : (s.modDie d f).interrupts = s.interrupts := rfl
@[simp] theorem State.modDie_vectors (s : State) (d : Fin 160) (f : Die → Die) : (s.modDie d f).vectors = s.vectors := rfl
@[simp] theorem State.modDie_pod (s : State) (d : Fin 160) (f : Die → Die) : (s.modDie d f).pod = s.pod := rfl

/-! ## modJun -/

@[simp] theorem State.modJun_agenda (s : State) (j : Fin 160) (f : Junction → Junction) : (s.modJun j f).agenda = s.agenda := rfl
@[simp] theorem State.modJun_cur (s : State) (j : Fin 160) (f : Junction → Junction) : (s.modJun j f).cur = s.cur := rfl
@[simp] theorem State.modJun_blocked (s : State) (j : Fin 160) (f : Junction → Junction) : (s.modJun j f).blocked = s.blocked := rfl
@[simp] theorem State.modJun_freeSeq (s : State) (j : Fin 160) (f : Junction → Junction) : (s.modJun j f).freeSeq = s.freeSeq := rfl
@[simp] theorem State.modJun_nextId (s : State) (j : Fin 160) (f : Junction → Junction) : (s.modJun j f).nextId = s.nextId := rfl
@[simp] theorem State.modJun_time (s : State) (j : Fin 160) (f : Junction → Junction) : (s.modJun j f).time = s.time := rfl
@[simp] theorem State.modJun_panelId (s : State) (j : Fin 160) (f : Junction → Junction) : (s.modJun j f).panelId = s.panelId := rfl
@[simp] theorem State.modJun_rows (s : State) (j : Fin 160) (f : Junction → Junction) : (s.modJun j f).rows = s.rows := rfl
@[simp] theorem State.modJun_mem (s : State) (j : Fin 160) (f : Junction → Junction) : (s.modJun j f).mem = s.mem := rfl
@[simp] theorem State.modJun_cipher (s : State) (j : Fin 160) (f : Junction → Junction) : (s.modJun j f).cipher = s.cipher := rfl
@[simp] theorem State.modJun_poison (s : State) (j : Fin 160) (f : Junction → Junction) : (s.modJun j f).poison = s.poison := rfl
@[simp] theorem State.modJun_sealed (s : State) (j : Fin 160) (f : Junction → Junction) : (s.modJun j f).sealed = s.sealed := rfl
@[simp] theorem State.modJun_pend (s : State) (j : Fin 160) (f : Junction → Junction) : (s.modJun j f).pend = s.pend := rfl
@[simp] theorem State.modJun_moves (s : State) (j : Fin 160) (f : Junction → Junction) : (s.modJun j f).moves = s.moves := rfl
@[simp] theorem State.modJun_dies (s : State) (j : Fin 160) (f : Junction → Junction) : (s.modJun j f).dies = s.dies := rfl
@[simp] theorem State.modJun_sidings (s : State) (j : Fin 160) (f : Junction → Junction) : (s.modJun j f).sidings = s.sidings := rfl
@[simp] theorem State.modJun_cxl (s : State) (j : Fin 160) (f : Junction → Junction) : (s.modJun j f).cxl = s.cxl := rfl
@[simp] theorem State.modJun_host (s : State) (j : Fin 160) (f : Junction → Junction) : (s.modJun j f).host = s.host := rfl
@[simp] theorem State.modJun_hostPool (s : State) (j : Fin 160) (f : Junction → Junction) : (s.modJun j f).hostPool = s.hostPool := rfl
@[simp] theorem State.modJun_hostCopies (s : State) (j : Fin 160) (f : Junction → Junction) : (s.modJun j f).hostCopies = s.hostCopies := rfl
@[simp] theorem State.modJun_waiting (s : State) (j : Fin 160) (f : Junction → Junction) : (s.modJun j f).waiting = s.waiting := rfl
@[simp] theorem State.modJun_edges (s : State) (j : Fin 160) (f : Junction → Junction) : (s.modJun j f).edges = s.edges := rfl
@[simp] theorem State.modJun_hostRings (s : State) (j : Fin 160) (f : Junction → Junction) : (s.modJun j f).hostRings = s.hostRings := rfl
@[simp] theorem State.modJun_regions (s : State) (j : Fin 160) (f : Junction → Junction) : (s.modJun j f).regions = s.regions := rfl
@[simp] theorem State.modJun_xinvSel (s : State) (j : Fin 160) (f : Junction → Junction) : (s.modJun j f).xinvSel = s.xinvSel := rfl
@[simp] theorem State.modJun_xinvGo (s : State) (j : Fin 160) (f : Junction → Junction) : (s.modJun j f).xinvGo = s.xinvGo := rfl
@[simp] theorem State.modJun_xinvJob (s : State) (j : Fin 160) (f : Junction → Junction) : (s.modJun j f).xinvJob = s.xinvJob := rfl
@[simp] theorem State.modJun_wgen (s : State) (j : Fin 160) (f : Junction → Junction) : (s.modJun j f).wgen = s.wgen := rfl
@[simp] theorem State.modJun_lastId (s : State) (j : Fin 160) (f : Junction → Junction) : (s.modJun j f).lastId = s.lastId := rfl
@[simp] theorem State.modJun_launches (s : State) (j : Fin 160) (f : Junction → Junction) : (s.modJun j f).launches = s.launches := rfl
@[simp] theorem State.modJun_released (s : State) (j : Fin 160) (f : Junction → Junction) : (s.modJun j f).released = s.released := rfl
@[simp] theorem State.modJun_worlds (s : State) (j : Fin 160) (f : Junction → Junction) : (s.modJun j f).worlds = s.worlds := rfl
@[simp] theorem State.modJun_tasks (s : State) (j : Fin 160) (f : Junction → Junction) : (s.modJun j f).tasks = s.tasks := rfl
@[simp] theorem State.modJun_timing (s : State) (j : Fin 160) (f : Junction → Junction) : (s.modJun j f).timing = s.timing := rfl
@[simp] theorem State.modJun_errors (s : State) (j : Fin 160) (f : Junction → Junction) : (s.modJun j f).errors = s.errors := rfl
@[simp] theorem State.modJun_station (s : State) (j : Fin 160) (f : Junction → Junction) : (s.modJun j f).station = s.station := rfl
@[simp] theorem State.modJun_slots (s : State) (j : Fin 160) (f : Junction → Junction) : (s.modJun j f).slots = s.slots := rfl
@[simp] theorem State.modJun_msix (s : State) (j : Fin 160) (f : Junction → Junction) : (s.modJun j f).msix = s.msix := rfl
@[simp] theorem State.modJun_hostData (s : State) (j : Fin 160) (f : Junction → Junction) : (s.modJun j f).hostData = s.hostData := rfl
@[simp] theorem State.modJun_interrupts (s : State) (j : Fin 160) (f : Junction → Junction) : (s.modJun j f).interrupts = s.interrupts := rfl
@[simp] theorem State.modJun_vectors (s : State) (j : Fin 160) (f : Junction → Junction) : (s.modJun j f).vectors = s.vectors := rfl
@[simp] theorem State.modJun_pod (s : State) (j : Fin 160) (f : Junction → Junction) : (s.modJun j f).pod = s.pod := rfl

/-! ## raise -/

@[simp] theorem State.raise_agenda (s : State) (v : Nat) : (s.raise v).agenda = s.agenda := rfl
@[simp] theorem State.raise_cur (s : State) (v : Nat) : (s.raise v).cur = s.cur := rfl
@[simp] theorem State.raise_blocked (s : State) (v : Nat) : (s.raise v).blocked = s.blocked := rfl
@[simp] theorem State.raise_freeSeq (s : State) (v : Nat) : (s.raise v).freeSeq = s.freeSeq := rfl
@[simp] theorem State.raise_nextId (s : State) (v : Nat) : (s.raise v).nextId = s.nextId := rfl
@[simp] theorem State.raise_time (s : State) (v : Nat) : (s.raise v).time = s.time := rfl
@[simp] theorem State.raise_panelId (s : State) (v : Nat) : (s.raise v).panelId = s.panelId := rfl
@[simp] theorem State.raise_rows (s : State) (v : Nat) : (s.raise v).rows = s.rows := rfl
@[simp] theorem State.raise_mem (s : State) (v : Nat) : (s.raise v).mem = s.mem := rfl
@[simp] theorem State.raise_cipher (s : State) (v : Nat) : (s.raise v).cipher = s.cipher := rfl
@[simp] theorem State.raise_poison (s : State) (v : Nat) : (s.raise v).poison = s.poison := rfl
@[simp] theorem State.raise_sealed (s : State) (v : Nat) : (s.raise v).sealed = s.sealed := rfl
@[simp] theorem State.raise_pend (s : State) (v : Nat) : (s.raise v).pend = s.pend := rfl
@[simp] theorem State.raise_moves (s : State) (v : Nat) : (s.raise v).moves = s.moves := rfl
@[simp] theorem State.raise_dies (s : State) (v : Nat) : (s.raise v).dies = s.dies := rfl
@[simp] theorem State.raise_juns (s : State) (v : Nat) : (s.raise v).juns = s.juns := rfl
@[simp] theorem State.raise_sidings (s : State) (v : Nat) : (s.raise v).sidings = s.sidings := rfl
@[simp] theorem State.raise_cxl (s : State) (v : Nat) : (s.raise v).cxl = s.cxl := rfl
@[simp] theorem State.raise_host (s : State) (v : Nat) : (s.raise v).host = s.host := rfl
@[simp] theorem State.raise_hostPool (s : State) (v : Nat) : (s.raise v).hostPool = s.hostPool := rfl
@[simp] theorem State.raise_hostCopies (s : State) (v : Nat) : (s.raise v).hostCopies = s.hostCopies := rfl
@[simp] theorem State.raise_waiting (s : State) (v : Nat) : (s.raise v).waiting = s.waiting := rfl
@[simp] theorem State.raise_edges (s : State) (v : Nat) : (s.raise v).edges = s.edges := rfl
@[simp] theorem State.raise_hostRings (s : State) (v : Nat) : (s.raise v).hostRings = s.hostRings := rfl
@[simp] theorem State.raise_regions (s : State) (v : Nat) : (s.raise v).regions = s.regions := rfl
@[simp] theorem State.raise_xinvSel (s : State) (v : Nat) : (s.raise v).xinvSel = s.xinvSel := rfl
@[simp] theorem State.raise_xinvGo (s : State) (v : Nat) : (s.raise v).xinvGo = s.xinvGo := rfl
@[simp] theorem State.raise_xinvJob (s : State) (v : Nat) : (s.raise v).xinvJob = s.xinvJob := rfl
@[simp] theorem State.raise_wgen (s : State) (v : Nat) : (s.raise v).wgen = s.wgen := rfl
@[simp] theorem State.raise_lastId (s : State) (v : Nat) : (s.raise v).lastId = s.lastId := rfl
@[simp] theorem State.raise_launches (s : State) (v : Nat) : (s.raise v).launches = s.launches := rfl
@[simp] theorem State.raise_released (s : State) (v : Nat) : (s.raise v).released = s.released := rfl
@[simp] theorem State.raise_worlds (s : State) (v : Nat) : (s.raise v).worlds = s.worlds := rfl
@[simp] theorem State.raise_tasks (s : State) (v : Nat) : (s.raise v).tasks = s.tasks := rfl
@[simp] theorem State.raise_timing (s : State) (v : Nat) : (s.raise v).timing = s.timing := rfl
@[simp] theorem State.raise_errors (s : State) (v : Nat) : (s.raise v).errors = s.errors := rfl
@[simp] theorem State.raise_station (s : State) (v : Nat) : (s.raise v).station = s.station := rfl
@[simp] theorem State.raise_slots (s : State) (v : Nat) : (s.raise v).slots = s.slots := rfl
@[simp] theorem State.raise_msix (s : State) (v : Nat) : (s.raise v).msix = s.msix := rfl
@[simp] theorem State.raise_hostData (s : State) (v : Nat) : (s.raise v).hostData = s.hostData := rfl
@[simp] theorem State.raise_pod (s : State) (v : Nat) : (s.raise v).pod = s.pod := rfl

/-! ## schedule -/

@[simp] theorem State.schedule_cur (s : State) (t : Nat) (e : Deed) : (s.schedule t e).cur = s.cur := rfl
@[simp] theorem State.schedule_blocked (s : State) (t : Nat) (e : Deed) : (s.schedule t e).blocked = s.blocked := rfl
@[simp] theorem State.schedule_freeSeq (s : State) (t : Nat) (e : Deed) : (s.schedule t e).freeSeq = s.freeSeq := rfl
@[simp] theorem State.schedule_nextId (s : State) (t : Nat) (e : Deed) : (s.schedule t e).nextId = s.nextId := rfl
@[simp] theorem State.schedule_time (s : State) (t : Nat) (e : Deed) : (s.schedule t e).time = s.time := rfl
@[simp] theorem State.schedule_panelId (s : State) (t : Nat) (e : Deed) : (s.schedule t e).panelId = s.panelId := rfl
@[simp] theorem State.schedule_rows (s : State) (t : Nat) (e : Deed) : (s.schedule t e).rows = s.rows := rfl
@[simp] theorem State.schedule_mem (s : State) (t : Nat) (e : Deed) : (s.schedule t e).mem = s.mem := rfl
@[simp] theorem State.schedule_cipher (s : State) (t : Nat) (e : Deed) : (s.schedule t e).cipher = s.cipher := rfl
@[simp] theorem State.schedule_poison (s : State) (t : Nat) (e : Deed) : (s.schedule t e).poison = s.poison := rfl
@[simp] theorem State.schedule_sealed (s : State) (t : Nat) (e : Deed) : (s.schedule t e).sealed = s.sealed := rfl
@[simp] theorem State.schedule_pend (s : State) (t : Nat) (e : Deed) : (s.schedule t e).pend = s.pend := rfl
@[simp] theorem State.schedule_moves (s : State) (t : Nat) (e : Deed) : (s.schedule t e).moves = s.moves := rfl
@[simp] theorem State.schedule_dies (s : State) (t : Nat) (e : Deed) : (s.schedule t e).dies = s.dies := rfl
@[simp] theorem State.schedule_juns (s : State) (t : Nat) (e : Deed) : (s.schedule t e).juns = s.juns := rfl
@[simp] theorem State.schedule_sidings (s : State) (t : Nat) (e : Deed) : (s.schedule t e).sidings = s.sidings := rfl
@[simp] theorem State.schedule_cxl (s : State) (t : Nat) (e : Deed) : (s.schedule t e).cxl = s.cxl := rfl
@[simp] theorem State.schedule_host (s : State) (t : Nat) (e : Deed) : (s.schedule t e).host = s.host := rfl
@[simp] theorem State.schedule_hostPool (s : State) (t : Nat) (e : Deed) : (s.schedule t e).hostPool = s.hostPool := rfl
@[simp] theorem State.schedule_hostCopies (s : State) (t : Nat) (e : Deed) : (s.schedule t e).hostCopies = s.hostCopies := rfl
@[simp] theorem State.schedule_waiting (s : State) (t : Nat) (e : Deed) : (s.schedule t e).waiting = s.waiting := rfl
@[simp] theorem State.schedule_edges (s : State) (t : Nat) (e : Deed) : (s.schedule t e).edges = s.edges := rfl
@[simp] theorem State.schedule_hostRings (s : State) (t : Nat) (e : Deed) : (s.schedule t e).hostRings = s.hostRings := rfl
@[simp] theorem State.schedule_regions (s : State) (t : Nat) (e : Deed) : (s.schedule t e).regions = s.regions := rfl
@[simp] theorem State.schedule_xinvSel (s : State) (t : Nat) (e : Deed) : (s.schedule t e).xinvSel = s.xinvSel := rfl
@[simp] theorem State.schedule_xinvGo (s : State) (t : Nat) (e : Deed) : (s.schedule t e).xinvGo = s.xinvGo := rfl
@[simp] theorem State.schedule_xinvJob (s : State) (t : Nat) (e : Deed) : (s.schedule t e).xinvJob = s.xinvJob := rfl
@[simp] theorem State.schedule_wgen (s : State) (t : Nat) (e : Deed) : (s.schedule t e).wgen = s.wgen := rfl
@[simp] theorem State.schedule_lastId (s : State) (t : Nat) (e : Deed) : (s.schedule t e).lastId = s.lastId := rfl
@[simp] theorem State.schedule_launches (s : State) (t : Nat) (e : Deed) : (s.schedule t e).launches = s.launches := rfl
@[simp] theorem State.schedule_released (s : State) (t : Nat) (e : Deed) : (s.schedule t e).released = s.released := rfl
@[simp] theorem State.schedule_worlds (s : State) (t : Nat) (e : Deed) : (s.schedule t e).worlds = s.worlds := rfl
@[simp] theorem State.schedule_tasks (s : State) (t : Nat) (e : Deed) : (s.schedule t e).tasks = s.tasks := rfl
@[simp] theorem State.schedule_timing (s : State) (t : Nat) (e : Deed) : (s.schedule t e).timing = s.timing := rfl
@[simp] theorem State.schedule_errors (s : State) (t : Nat) (e : Deed) : (s.schedule t e).errors = s.errors := rfl
@[simp] theorem State.schedule_station (s : State) (t : Nat) (e : Deed) : (s.schedule t e).station = s.station := rfl
@[simp] theorem State.schedule_slots (s : State) (t : Nat) (e : Deed) : (s.schedule t e).slots = s.slots := rfl
@[simp] theorem State.schedule_msix (s : State) (t : Nat) (e : Deed) : (s.schedule t e).msix = s.msix := rfl
@[simp] theorem State.schedule_hostData (s : State) (t : Nat) (e : Deed) : (s.schedule t e).hostData = s.hostData := rfl
@[simp] theorem State.schedule_interrupts (s : State) (t : Nat) (e : Deed) : (s.schedule t e).interrupts = s.interrupts := rfl
@[simp] theorem State.schedule_vectors (s : State) (t : Nat) (e : Deed) : (s.schedule t e).vectors = s.vectors := rfl
@[simp] theorem State.schedule_pod (s : State) (t : Nat) (e : Deed) : (s.schedule t e).pod = s.pod := rfl

/-! ## post -/

@[simp] theorem State.post_agenda (s : State) (n : Nat) (x : Side) (p : Posted) : (s.post n x p).agenda = s.agenda := rfl
@[simp] theorem State.post_cur (s : State) (n : Nat) (x : Side) (p : Posted) : (s.post n x p).cur = s.cur := rfl
@[simp] theorem State.post_blocked (s : State) (n : Nat) (x : Side) (p : Posted) : (s.post n x p).blocked = s.blocked := rfl
@[simp] theorem State.post_freeSeq (s : State) (n : Nat) (x : Side) (p : Posted) : (s.post n x p).freeSeq = s.freeSeq := rfl
@[simp] theorem State.post_nextId (s : State) (n : Nat) (x : Side) (p : Posted) : (s.post n x p).nextId = s.nextId := rfl
@[simp] theorem State.post_time (s : State) (n : Nat) (x : Side) (p : Posted) : (s.post n x p).time = s.time := rfl
@[simp] theorem State.post_panelId (s : State) (n : Nat) (x : Side) (p : Posted) : (s.post n x p).panelId = s.panelId := rfl
@[simp] theorem State.post_mem (s : State) (n : Nat) (x : Side) (p : Posted) : (s.post n x p).mem = s.mem := rfl
@[simp] theorem State.post_cipher (s : State) (n : Nat) (x : Side) (p : Posted) : (s.post n x p).cipher = s.cipher := rfl
@[simp] theorem State.post_poison (s : State) (n : Nat) (x : Side) (p : Posted) : (s.post n x p).poison = s.poison := rfl
@[simp] theorem State.post_sealed (s : State) (n : Nat) (x : Side) (p : Posted) : (s.post n x p).sealed = s.sealed := rfl
@[simp] theorem State.post_pend (s : State) (n : Nat) (x : Side) (p : Posted) : (s.post n x p).pend = s.pend := rfl
@[simp] theorem State.post_moves (s : State) (n : Nat) (x : Side) (p : Posted) : (s.post n x p).moves = s.moves := rfl
@[simp] theorem State.post_dies (s : State) (n : Nat) (x : Side) (p : Posted) : (s.post n x p).dies = s.dies := rfl
@[simp] theorem State.post_juns (s : State) (n : Nat) (x : Side) (p : Posted) : (s.post n x p).juns = s.juns := rfl
@[simp] theorem State.post_sidings (s : State) (n : Nat) (x : Side) (p : Posted) : (s.post n x p).sidings = s.sidings := rfl
@[simp] theorem State.post_cxl (s : State) (n : Nat) (x : Side) (p : Posted) : (s.post n x p).cxl = s.cxl := rfl
@[simp] theorem State.post_host (s : State) (n : Nat) (x : Side) (p : Posted) : (s.post n x p).host = s.host := rfl
@[simp] theorem State.post_hostPool (s : State) (n : Nat) (x : Side) (p : Posted) : (s.post n x p).hostPool = s.hostPool := rfl
@[simp] theorem State.post_hostCopies (s : State) (n : Nat) (x : Side) (p : Posted) : (s.post n x p).hostCopies = s.hostCopies := rfl
@[simp] theorem State.post_waiting (s : State) (n : Nat) (x : Side) (p : Posted) : (s.post n x p).waiting = s.waiting := rfl
@[simp] theorem State.post_edges (s : State) (n : Nat) (x : Side) (p : Posted) : (s.post n x p).edges = s.edges := rfl
@[simp] theorem State.post_hostRings (s : State) (n : Nat) (x : Side) (p : Posted) : (s.post n x p).hostRings = s.hostRings := rfl
@[simp] theorem State.post_regions (s : State) (n : Nat) (x : Side) (p : Posted) : (s.post n x p).regions = s.regions := rfl
@[simp] theorem State.post_xinvSel (s : State) (n : Nat) (x : Side) (p : Posted) : (s.post n x p).xinvSel = s.xinvSel := rfl
@[simp] theorem State.post_xinvGo (s : State) (n : Nat) (x : Side) (p : Posted) : (s.post n x p).xinvGo = s.xinvGo := rfl
@[simp] theorem State.post_xinvJob (s : State) (n : Nat) (x : Side) (p : Posted) : (s.post n x p).xinvJob = s.xinvJob := rfl
@[simp] theorem State.post_wgen (s : State) (n : Nat) (x : Side) (p : Posted) : (s.post n x p).wgen = s.wgen := rfl
@[simp] theorem State.post_lastId (s : State) (n : Nat) (x : Side) (p : Posted) : (s.post n x p).lastId = s.lastId := rfl
@[simp] theorem State.post_launches (s : State) (n : Nat) (x : Side) (p : Posted) : (s.post n x p).launches = s.launches := rfl
@[simp] theorem State.post_released (s : State) (n : Nat) (x : Side) (p : Posted) : (s.post n x p).released = s.released := rfl
@[simp] theorem State.post_worlds (s : State) (n : Nat) (x : Side) (p : Posted) : (s.post n x p).worlds = s.worlds := rfl
@[simp] theorem State.post_tasks (s : State) (n : Nat) (x : Side) (p : Posted) : (s.post n x p).tasks = s.tasks := rfl
@[simp] theorem State.post_timing (s : State) (n : Nat) (x : Side) (p : Posted) : (s.post n x p).timing = s.timing := rfl
@[simp] theorem State.post_errors (s : State) (n : Nat) (x : Side) (p : Posted) : (s.post n x p).errors = s.errors := rfl
@[simp] theorem State.post_station (s : State) (n : Nat) (x : Side) (p : Posted) : (s.post n x p).station = s.station := rfl
@[simp] theorem State.post_slots (s : State) (n : Nat) (x : Side) (p : Posted) : (s.post n x p).slots = s.slots := rfl
@[simp] theorem State.post_msix (s : State) (n : Nat) (x : Side) (p : Posted) : (s.post n x p).msix = s.msix := rfl
@[simp] theorem State.post_hostData (s : State) (n : Nat) (x : Side) (p : Posted) : (s.post n x p).hostData = s.hostData := rfl
@[simp] theorem State.post_interrupts (s : State) (n : Nat) (x : Side) (p : Posted) : (s.post n x p).interrupts = s.interrupts := rfl
@[simp] theorem State.post_vectors (s : State) (n : Nat) (x : Side) (p : Posted) : (s.post n x p).vectors = s.vectors := rfl
@[simp] theorem State.post_pod (s : State) (n : Nat) (x : Side) (p : Posted) : (s.post n x p).pod = s.pod := rfl

/-! ## Rows and banks read back -/

theorem Sparse.find_put_same {α : Type} (m : Sparse α) (k : Nat) (x : α) : Sparse.find (Sparse.put m k x) k = some x := by
  induction m with
  | nil => simp [Sparse.put, Sparse.find]
  | cons e m ih =>
    obtain ⟨a, y⟩ := e
    simp only [Sparse.put]
    split_ifs with h1 h2
    · simp [Sparse.find, ih, Nat.ne_of_lt h1]
    · simp [Sparse.find]
    · simp [Sparse.find]
theorem Sparse.find_put_other {α : Type} (m : Sparse α) (k j : Nat) (x : α) (h : j ≠ k) :
    Sparse.find (Sparse.put m k x) j = Sparse.find m j := by
  induction m with
  | nil => simp [Sparse.put, Sparse.find, Ne.symm h]
  | cons e m ih =>
    obtain ⟨a, y⟩ := e
    simp only [Sparse.put]
    split_ifs with h1 h2
    · simp [Sparse.find, ih]
    · subst h2; simp [Sparse.find, Ne.symm h]
    · simp [Sparse.find, Ne.symm h]

@[simp] theorem State.row_setRow (s : State) (n : Nat) (r : Row) : (s.setRow n r).row n = r := by
  simp [State.row, State.setRow, Sparse.find_put_same]
theorem State.row_setRow_other (s : State) (n j : Nat) (r : Row) (h : j ≠ n) : (s.setRow n r).row j = s.row j := by
  simp [State.row, State.setRow, Sparse.find_put_other _ _ _ _ h]
@[simp] theorem State.row_modRow (s : State) (n : Nat) (f : Row → Row) : (s.modRow n f).row n = f (s.row n) := s.row_setRow n _
theorem State.row_modRow_other (s : State) (n j : Nat) (f : Row → Row) (h : j ≠ n) : (s.modRow n f).row j = s.row j :=
  s.row_setRow_other n j _ h
@[simp] theorem Row.bank_modBank (r : Row) (x : Side) (f : Bank → Bank) : (r.modBank x f).bank x = f (r.bank x) := by
  cases x <;> rfl
theorem Row.bank_modBank_other (r : Row) (x y : Side) (f : Bank → Bank) (h : y ≠ x) : (r.modBank x f).bank y = r.bank y := by
  cases x <;> cases y <;> first | rfl | exact absurd rfl h
@[simp] theorem Row.cores_modBank (r : Row) (x : Side) (f : Bank → Bank) : (r.modBank x f).cores = r.cores := by cases x <;> rfl
@[simp] theorem Row.holder_modBank (r : Row) (x : Side) (f : Bank → Bank) : (r.modBank x f).holder = r.holder := by cases x <;> rfl
@[simp] theorem State.bank_modBank (s : State) (n : Nat) (x : Side) (f : Bank → Bank) : (s.modBank n x f).bank n x = f (s.bank n x) := by
  simp [State.bank, State.modBank]
theorem State.bank_modBank_other (s : State) (n j : Nat) (x y : Side) (f : Bank → Bank) (h : j ≠ n ∨ y ≠ x) :
    (s.modBank n x f).bank j y = s.bank j y := by
  by_cases hj : j = n
  · subst hj
    simp [State.bank, State.modBank, Row.bank_modBank_other _ _ _ _ (h.resolve_left (by simp))]
  · simp [State.bank, State.modBank, State.row_modRow_other _ _ _ _ hj]
@[simp] theorem State.region_modRegion (s : State) (g : Fin 16) (f : Region → Region) : (s.modRegion g f).regions[g] = f s.regions[g] := by
  simp [State.modRegion]
@[simp] theorem State.die_modDie (s : State) (d : Fin 160) (f : Die → Die) : (s.modDie d f).dies[d] = f s.dies[d] := by
  simp [State.modDie]
@[simp] theorem State.jun_modJun (s : State) (j : Fin 160) (f : Junction → Junction) : (s.modJun j f).juns[j] = f s.juns[j] := by
  simp [State.modJun]

end Sys2Proof.Machine
end

