-- ==== Sys2Proof/Safety.lean ====
section
/-! DEFINITION. The terms in which claims speak of the panel: the bank whose turn it is, a bank with nothing under way, the operands a
syllable reads, and the state after a bundle has issued whole. -/

namespace Sys2Proof.Machine

/-! ## The bank whose turn it is -/

/-- The bank that holds the current row. -/
def State.side (s : State) : Side := (s.row s.cur).holder
/-- Its part in the row's sequencer. -/
def State.here (s : State) : Bank := s.bank s.cur s.side
/-- A core of the current row. -/
def State.coreHere (s : State) (c : Fin 64) : Core := (s.row s.cur).cores[c]
/-- A core's part for the bank that holds the current row. -/
def State.partHere (s : State) (c : Fin 64) : CoreBank := (s.row s.cur).cb s.side c

/-! ## A bank with nothing under way -/

/-- Nothing of the bank is in flight in the core, latched or buffered, and neither a register of it nor a datapath check has an
uncorrectable error. -/
def CoreBank.calm (b : CoreBank) : Bool :=
  b.flights.isEmpty && b.latches.isEmpty && b.segBuf.isEmpty && b.badS == 0 && b.badV == 0 && b.badQ == 0 && !b.residue

/-- Nothing of the bank is in flight in the sequencer, the matrix engine is idle, no error is posted, uncorrected or still to be met in the
skew line, check mode is off and the bank is not in segmented mode. -/
def Bank.calm (b : Bank) : Bool :=
  b.seq.isEmpty && b.votes.isEmpty && b.fmtNext.isEmpty && b.matOps.isEmpty && b.posted.isEmpty && !b.chk && b.segment.isNone
  && b.badK == 0 && !b.badC && b.late.isNone

/-- The bank that holds the current row presents a bundle in this cycle and has nothing under way: the states in which a syllable's own
conditions alone decide whether it issues. -/
def State.calm (s : State) : Bool :=
  s.presents s.cur s.side && s.here.calm
  && allCores.all (fun c => (s.partHere c).calm && (s.coreHere c).badT == 0)
  && s.pend.all (fun q => !(q.row == s.cur && q.side == s.side && ((q.due.isSome && !q.op.atIssue) || q.op.isLock)))

/-! ## What a syllable reads -/

/-- What a core reads for sources in fields D, A and B, with pops in that order (R66). -/
def State.operands (s : State) (d a b : Src) (c : Fin 64) : Rd := s.readFor s.cur s.side { unit := 7, d := d, a := a, b := b } (0, 0) c

/-- Every pop of the sources finds, in every core, an entry whose data has come, plaintext and clean (R67, R180, R181). -/
def State.popsReady (s : State) (d a b : Src) : Bool :=
  allCores.all fun c =>
    (poppedBy (s.partHere c) (0, 0) { unit := 7, d := d, a := a, b := b }).all fun e =>
      e.any fun r => r.data.isSome && !r.cipher && !r.poison

/-- How many scalar and vector entries sources pop. -/
def popCount (d a b : Src) : Nat × Nat := (d.pops.1 + a.pops.1 + b.pops.1, d.pops.2 + a.pops.2 + b.pops.2)
/-- Whether sources pop. -/
def pops (d a b : Src) : Bool := popCount d a b != (0, 0)

/-- The view of a syllable that is a bundle of its own. -/
def State.lone (s : State) (y : Syl) : Issue := s.issueOf s.cur s.side (s.here.pc + 1) [⟨y, 0⟩] [] y s

/-- Whether a condition is clear. -/
def Verdict.isClear : Verdict → Bool
  | .clear => true
  | _ => false

/-- A syllable's own conditions, all clear: its interval, its description's conditions, those on translated frames, its pops, room for its
requests and for its writes to other panels, no save or restore due for its tile, and no poisoned line among those it reads (R67, R154,
R169, R176, R180, R243, R253). -/
def State.accepts (s : State) (y : Syl) : Bool :=
  (y.interval.isNone || decide (s.here.mmaFree ≤ s.here.cycle)) && (y.check (s.lone y)).isClear && (y.frames (s.lone y) false).isClear
  && !s.acksOver s.cur s.side (s.writesDue s.cur s.side [(⟨y, 0⟩, s.lone y)]) && s.popsReady y.d y.a y.b
  && (y.requests == 0 || allCores.all fun c => decide ((s.partHere c).loads.length - (y.pops.1 + y.pops.2) + y.requests ≤ 16))
  && (y.touch.all fun t => allCores.all fun c => !(s.coreHere c).saveDue s.side t && !(s.coreHere c).restoreDue s.side t)
  && allCores.all fun c => (y.lsRead (s.lone y) c).all fun t => !(s.coreHere t.1).anyPoison t.2.1 t.2.2

/-! ## After a bundle -/

/-- The sequencer's part once a bundle of one syllable has issued and its issue cycle has passed: pc and loops moved on, one issue cycle
and one cycle of matrix time gone by, and under skew 63 S held cycles to come after a guarded bundle (R67, R99, R167, R221). -/
def Bank.moved (b : Bank) (guarded : Bool) : Bank :=
  { b.passBundle (b.pc + 1) with
      frozen := none, frozenFor := 0, asked := false, asking := none, go := false, answer := none, request := none
      voteHeld := false, retouch := false
      heldLeft := if guarded then 63 * b.info.skew.val else 0
      cycle := b.cycle + 1, since := b.since + 1, matTime := b.matTime + 1 }

/-- The panel once the bank that holds the current row has issued a bundle of one syllable that changes each core's part of the bank by
`f` and nothing else but the sequencer's movement and, under skew, the skew line. -/
def State.issued (s : State) (guarded : Bool) (f : Fin 64 → CoreBank → CoreBank) : State :=
  s.modRow s.cur fun r => ({ (r.mapBanks s.side f).modBank s.side (·.moved guarded) with walked := [] } : Row).stretch r s.side []

/-- The panel once the bank that holds the current row has issued a bundle of one syllable that changes the sequencer's part by `g` beside
its movement, and no core. -/
def State.issuedBank (s : State) (g : Bank → Bank) : State := (s.issued false fun _ k => k).modBank s.cur s.side g

/-- A core's part with a scalar register written; s0 holds nothing (R25, R62). -/
def CoreBank.sput (b : CoreBank) (d : SDst) (x : Word) : CoreBank := if d.val = 0 then b else { b with s := b.s.set d.val x }

/-- A core's part once a bundle has taken its pops (R66). -/
def CoreBank.popped (b : CoreBank) (d a b' : Src) : CoreBank := b.dropPops (popCount d a b')

/-- A core's part with results in flight. -/
def CoreBank.flying (b : CoreBank) (fs : List Flight) : CoreBank := { b with flights := fs }

/-- A result of latency `l` of a bundle that issues now. -/
def State.inFlight (s : State) (l : Nat) (u : Fin 8) (d : Dest) (g : Flags) : Flight := ⟨s.here.cycle + l, u, d, g⟩

/-- Where a scalar result lands: nowhere for s0 (R62). -/
def Dest.scalar (d : SDst) (x : Word) : Dest := if d.val = 0 then .none else .s (d.castLE (by decide)) x
/-- A vector destination. -/
def Dest.vector (d : VDst) (x : Vec) (m : Pred) : Dest := .v (d.castLE (by decide)) x m

/-- The bank that holds the row enters its handler for a trap: it runs no handler, has a trap entry, is not armed (R233, R235, R239), and
the bundle at hand has asked for nothing and arrived at no barrier. -/
def State.traps (s : State) : Bool :=
  s.calm && !s.here.handler && s.here.trapvec.getLsbD 15 && s.here.armed.isNone && s.here.asking.isNone && s.here.atBar.isNone
  && s.pend.all fun q => !(q.row == s.cur && q.side == s.side && q.op.atIssue)

/-- The panel once the bundle the bank presents has trapped: the record written, the handler entered, the issue cycle passed (R67, R231,
R233). -/
def State.trapped (s : State) (t : TrapInfo) : State :=
  s.modRow s.cur fun r =>
    ({ r.modBank s.side fun b =>
        let b' := (b.writeRecord t b.pc (b.pc + 1) b.cycle).enterHandler b.pc (b.pc + 1)
        { b' with cycle := b.cycle + 1, since := b.since + 1, matTime := b.matTime + 1 } with walked := [] } : Row).stretch r s.side []

/-- A trap of the whole row that a syllable of a unit raises, with its word (R231). -/
def rowTrap (t : Trap) (u : Fin 8) (i : Instr) : TrapInfo := { TrapInfo.row t with unit := u, encoding := (encodeSyl true i).getD 0 }

/-! ## What every state of a run keeps -/

/-- The panel's memory is in its canonical form. -/
def State.MemoryWf (s : State) : Prop := Memory.wf s.mem = true

/-- Every local store is in its canonical form. -/
def State.LocalWf (s : State) : Prop := ∀ (n : Nat) (c : Fin 64), Memory.wf ((s.row n).cores[c]).ls = true

/-- No operation outstanding bears an id that is still to be given. -/
def State.IdsFresh (s : State) : Prop := ∀ q ∈ s.pend, q.id < s.nextId

end Sys2Proof.Machine
end

