-- ==== Sys2Proof/Laws/Issue.lean ====
section
/-! SUPPORT. What presenting a bundle of one syllable does where the bank has nothing under way: its own conditions alone decide, and the
state afterwards. -/

namespace Sys2Proof.Machine

/-! ## Updates of one row compose -/

theorem Sparse.put_put {α : Type} (m : Sparse α) (k : Nat) (x y : α) : Sparse.put (Sparse.put m k x) k y = Sparse.put m k y := by
  induction m with
  | nil => simp [Sparse.put]
  | cons e m ih =>
    obtain ⟨a, z⟩ := e
    simp only [Sparse.put]
    split_ifs with h1 h2 <;> simp only [Sparse.put, h1, if_true, if_false, ih, lt_self_iff_false]

@[simp] theorem State.modRow_modRow (s : State) (n : Nat) (f g : Row → Row) : (s.modRow n f).modRow n g = s.modRow n (fun r => g (f r)) := by
  simp only [State.modRow, State.setRow, State.row, Sparse.find_put_same, Sparse.put_put, Option.getD_some]

theorem State.modBank_eq (s : State) (n : Nat) (x : Side) (f : Bank → Bank) : s.modBank n x f = s.modRow n (·.modBank x f) := rfl

theorem tableOfFn_getNat {α : Type} {n : Nat} (f : Fin n → α) (c : Nat) (h : c < n) : (tableOfFn f)[c] = f ⟨c, h⟩ := by
  simp [tableOfFn]
@[simp] theorem tab_getNat {α : Type} (f : Fin 64 → α) (c : Nat) (h : c < 64) : (tab f)[c] = f ⟨c, h⟩ := tableOfFn_getNat f c h
@[simp] theorem tab_get {α : Type} (f : Fin 64 → α) (c : Fin 64) : (tab f)[c] = f c := tableOfFn_getNat f c.val c.isLt

theorem tab_congr {α : Type} (f g : Fin 64 → α) (h : ∀ c, f c = g c) : tab f = tab g := by rw [funext h]

@[simp] theorem Row.mapCores_cores (r : Row) (f : Fin 64 → Core → Core) (c : Fin 64) : (r.mapCores f).cores[c] = f c r.cores[c] :=
  tab_get _ c
@[simp] theorem Row.mapCores_mapCores (r : Row) (f g : Fin 64 → Core → Core) :
    (r.mapCores f).mapCores g = r.mapCores fun c k => g c (f c k) := by
  simp only [Row.mapCores, tab_get]
theorem Row.mapCores_modBank (r : Row) (x : Side) (f : Fin 64 → Core → Core) (g : Bank → Bank) :
    (r.modBank x g).mapCores f = (r.mapCores f).modBank x g := by cases x <;> rfl
@[simp] theorem Row.modBank_modBank (r : Row) (x : Side) (f g : Bank → Bank) :
    (r.modBank x f).modBank x g = r.modBank x fun b => g (f b) := by cases x <;> rfl
@[simp] theorem Row.bank_mapCores (r : Row) (x : Side) (f : Fin 64 → Core → Core) : (r.mapCores f).bank x = r.bank x := by cases x <;> rfl
@[simp] theorem Core.mod_mod (c : Core) (x : Side) (f g : CoreBank → CoreBank) : (c.mod x f).mod x g = c.mod x fun b => g (f b) := by
  cases x <;> rfl
@[simp] theorem Core.of_mod (c : Core) (x : Side) (f : CoreBank → CoreBank) : (c.mod x f).of x = f (c.of x) := by cases x <;> rfl

theorem Row.mapCores_id (r : Row) (f : Fin 64 → Core → Core) (h : ∀ c, f c r.cores[c] = r.cores[c]) : r.mapCores f = r := by
  have : tab (fun c => f c r.cores[c]) = r.cores := by
    rw [tab_congr _ _ h]
    ext i hi
    rw [tab_getNat _ _ hi]
    rfl
  unfold Row.mapCores
  rw [this]
theorem Row.modBank_congr (r : Row) (x : Side) (f g : Bank → Bank) (h : f (r.bank x) = g (r.bank x)) : r.modBank x f = r.modBank x g := by
  cases x <;> simp_all [Row.modBank, Row.bank]
theorem Row.modBank_id (r : Row) (x : Side) (f : Bank → Bank) (h : f (r.bank x) = r.bank x) : r.modBank x f = r := by
  cases x <;> simp_all [Row.modBank, Row.bank]

/-! ## Calm -/

/-- What a calm panel gives, part by part. -/
structure Calm (s : State) : Prop where
  presents : s.presents s.cur s.side = true
  seq : s.here.seq = []
  votes : s.here.votes = []
  fmtNext : s.here.fmtNext = []
  matOps : s.here.matOps = []
  posted : s.here.posted = []
  chk : s.here.chk = false
  segment : s.here.segment = none
  badK : s.here.badK = 0
  badC : s.here.badC = false
  late : s.here.late = none
  flights : ∀ c, (s.partHere c).flights = []
  latches : ∀ c, (s.partHere c).latches = []
  segBuf : ∀ c, (s.partHere c).segBuf = []
  badS : ∀ c, (s.partHere c).badS = 0
  badV : ∀ c, (s.partHere c).badV = 0
  badQ : ∀ c, (s.partHere c).badQ = 0
  residue : ∀ c, (s.partHere c).residue = false
  badT : ∀ c, (s.coreHere c).badT = 0
  due : ∀ q ∈ s.pend, q.row = s.cur → q.side = s.side → (q.due.isSome && !q.op.atIssue) = false
  lock : ∀ q ∈ s.pend, q.row = s.cur → q.side = s.side → q.op.isLock = false

theorem State.calm_iff (s : State) (h : s.calm = true) : Calm s := by
  simp only [State.calm, Bank.calm, CoreBank.calm, Bool.and_eq_true, List.isEmpty_iff, List.all_eq_true, beq_iff_eq, Bool.not_eq_true',
    Option.isNone_iff_eq_none, allCores, List.mem_finRange, true_implies, Bool.and_eq_false_iff] at h
  obtain ⟨⟨⟨h1, ⟨⟨⟨⟨⟨⟨⟨⟨⟨a, b⟩, c⟩, d⟩, e⟩, f⟩, g⟩, i⟩, j⟩, k⟩⟩, h2⟩, h3⟩ := h
  refine ⟨h1, a, b, c, d, e, f, g, i, j, k, fun c => (h2 c).1.1.1.1.1.1.1, fun c => (h2 c).1.1.1.1.1.1.2, fun c => (h2 c).1.1.1.1.1.2,
    fun c => (h2 c).1.1.1.1.2, fun c => (h2 c).1.1.1.2, fun c => (h2 c).1.1.2, fun c => (h2 c).1.2, fun c => (h2 c).2,
    fun q hq hr hs => ?_, fun q hq hr hs => ?_⟩
  all_goals
    have := h3 q hq
    simp_all

/-- A syllable's own conditions: those under which a calm bank issues it. -/
structure Clear (s : State) (y : Syl) : Prop where
  interval : y.interval.isSome = true → s.here.mmaFree ≤ s.here.cycle
  check : y.check (s.lone y) = .clear
  frames : y.frames (s.lone y) false = .clear
  acks : s.acksOver s.cur s.side (s.writesDue s.cur s.side [(⟨y, 0⟩, s.lone y)]) = false
  pops : s.popsReady y.d y.a y.b = true
  room : y.requests = 0 ∨ ∀ c, (s.partHere c).loads.length - (y.pops.1 + y.pops.2) + y.requests ≤ 16
  saves : ∀ t, y.touch = some t → ∀ c, (s.coreHere c).saveDue s.side t = false ∧ (s.coreHere c).restoreDue s.side t = false
  lines : ∀ c, ∀ t ∈ y.lsRead (s.lone y) c, (s.coreHere t.1).anyPoison t.2.1 t.2.2 = false

theorem Verdict.isClear_iff (v : Verdict) : v.isClear = true ↔ v = .clear := by cases v <;> simp [Verdict.isClear]

theorem allCores_any (p : Fin 64 → Bool) : allCores.any p = false ↔ ∀ c, p c = false := by
  simp [allCores, List.any_eq_false]
theorem allCores_all (p : Fin 64 → Bool) : allCores.all p = true ↔ ∀ c, p c = true := by
  simp [allCores]

theorem firstCore_none (p : Fin 64 → Bool) (h : ∀ c, p c = false) : firstCore p = none := by
  simp [firstCore, List.find?_eq_none, h]

theorem checkCores_clear (t : Trap) (p : Fin 64 → Bool) (a b : Fin 64 → Word) (h : ∀ c, p c = false) :
    checkCores t p a b = .clear := by simp [checkCores, firstCore_none p h]

theorem coreMask_none (p : Fin 64 → Bool) (h : ∀ c, p c = false) : coreMask p = 0 := by
  have : ∀ l : List (Fin 64), ∀ m : Nat, l.foldl (fun m c => if p c then m + 2 ^ c.val else m) m = m := by
    intro l
    induction l with
    | nil => intro m; rfl
    | cons c l ih => intro m; rw [List.foldl_cons, ih, h]; rfl
  simp only [coreMask, this]
  rfl

/-- Conditions in order are clear when each is. -/
theorem Verdict.seq_clear (l : List (Unit → Verdict)) (h : ∀ v ∈ l, v () = .clear) : Verdict.seq l = .clear := by
  induction l with
  | nil => rfl
  | cons v l ih =>
    simp only [Verdict.seq, h v (by simp)]
    exact ih fun w hw => h w (by simp [hw])

section
variable {s : State} {y : Syl}

theorem Calm.stalled (h : Calm s) : (s.row s.cur).stalled s.side = false := by
  have := h.matOps
  simp only [State.here, State.bank] at this
  simp [Row.stalled, this]

/-- The entries a lone syllable pops, each ready. -/
theorem popsReady_popped (h1 : s.popsReady y.d y.a y.b = true) (c : Fin 64) (e : Option Request) (he : e ∈ poppedBy (s.partHere c) (0, 0) y) :
    ∃ r, e = some r ∧ r.data.isSome = true ∧ r.cipher = false ∧ r.poison = false := by
  rw [State.popsReady, allCores_all] at h1
  have h2 := List.all_eq_true.1 (h1 c) e he
  cases e with
  | none => simp at h2
  | some r =>
    simp only [Option.any_some, Bool.and_eq_true, Bool.not_eq_true'] at h2
    exact ⟨r, rfl, h2.1.1, h2.1.2, h2.2⟩

theorem checkPops_ready (h : s.popsReady y.d y.a y.b = true) : checkPops (s.lone y) (0, 0) y = .clear := by
  unfold checkPops
  split_ifs
  · rfl
  · have hp : ∀ c, ∀ e ∈ poppedBy (((s.lone y).s.row (s.lone y).row).cb (s.lone y).side c) (0, 0) y, _ := popsReady_popped h
    apply Verdict.seq_clear
    intro v hv
    simp only [List.mem_cons, List.not_mem_nil, or_false] at hv
    rcases hv with rfl | rfl | rfl
    · apply checkCores_clear
      intro c; rw [List.any_eq_false]; intro e he; obtain ⟨r, rfl, -⟩ := hp c e he; simp
    · rw [(allCores_any _).2]; · rfl
      intro c; rw [List.any_eq_false]; intro e he; obtain ⟨r, rfl, h1, -⟩ := hp c e he
      rw [Option.isSome_iff_exists] at h1; obtain ⟨d, hd⟩ := h1; simp [hd]
    · apply checkCores_clear
      intro c; rw [List.any_eq_false]; intro e he; obtain ⟨r, rfl, _, h2, -⟩ := hp c e he; simp [h2]

theorem Clear.checkRoom (h : Clear s y) : checkRoom (s.lone y) y = .clear := by
  unfold Machine.checkRoom
  split_ifs with h0 h1
  · rfl
  · exfalso
    rcases h.room with h2 | h2
    · exact h0 h2
    · rw [List.any_eq_true] at h1
      obtain ⟨c, -, hc⟩ := h1
      have := h2 c
      simp only [State.lone, State.issueOf, List.foldl_cons, List.foldl_nil, popsBefore, Nat.zero_add, decide_eq_true_eq] at hc
      simp only [State.partHere] at this
      omega
  · rfl

theorem Clear.partVerdict (h : Clear s y) : partVerdict (s.lone y) (0, 0) y false = .clear := by
  apply Verdict.seq_clear
  intro v hv
  simp only [List.mem_cons, List.not_mem_nil, or_false] at hv
  rcases hv with rfl | rfl | rfl | rfl
  · exact checkPops_ready h.pops
  · exact h.check
  · exact h.frames
  · exact h.checkRoom

/-- In a calm bank a lone syllable's view is that of the state as it stands. -/
theorem Calm.issues (h : Calm s) (w : BitVec 32) : s.issues s.cur s.side (s.here.pc + 1) [⟨y, w⟩] = [(⟨y, w⟩, s.lone y)] := by
  have hb : s.bufferView s.cur s.side = s := by
    have := h.segment
    simp only [State.here] at this
    rw [State.bufferView, if_pos (by simp [this])]
  have e : s.issues s.cur s.side (s.here.pc + 1) [⟨y, w⟩] =
      [(⟨y, w⟩, s.issueOf s.cur s.side (s.here.pc + 1) [⟨y, w⟩] [] y (s.bufferView s.cur s.side))] := rfl
  rw [e, hb]
  rfl

/-- Every entry a lone syllable takes from a queue is one of those its conditions looked at. -/
theorem taken_popped (b : CoreBank) (y : Syl) (r : Request)
    (h : r ∈ (b.queue false).take y.pops.1 ∨ r ∈ (b.queue true).take y.pops.2) : some r ∈ poppedBy b (0, 0) y := by
  rw [poppedBy, List.mem_append]
  rcases h with h | h
  · obtain ⟨i, hi, rfl⟩ := List.getElem_of_mem h
    rw [List.length_take] at hi
    left
    rw [List.mem_map]
    exact ⟨i, by rw [List.mem_range]; omega, by simp [List.getElem?_eq_getElem (show i < (b.queue false).length by omega)]⟩
  · obtain ⟨i, hi, rfl⟩ := List.getElem_of_mem h
    rw [List.length_take] at hi
    right
    rw [List.mem_map]
    exact ⟨i, by rw [List.mem_range]; omega, by simp [List.getElem?_eq_getElem (show i < (b.queue true).length by omega)]⟩

theorem popsBefore_one (y : Syl) (w : BitVec 32) : popsBefore [⟨y, w⟩] = y.pops := by
  simp [popsBefore]

/-- A calm bank consumes no uncorrectable error with a clear syllable. -/
theorem Calm.consumes (h : Calm s) (hy : Clear s y) (w : BitVec 32) (c : Fin 64) :
    s.consumes s.cur s.side [(⟨y, w⟩, s.lone y)] c = 0 := by
  have hp := popsReady_popped hy.pops c
  have hl := hy.lines c
  have hS := h.badS c
  have hV := h.badV c
  have hQ := h.badQ c
  have hT := h.badT c
  have hR := h.residue c
  have hK := h.badK
  have hC := h.badC
  have hB := h.segBuf
  have hpop : (poppedBy ((s.row s.cur).cb s.side c) (0, 0) y).any (fun e => e.any (·.poison)) = false := by
    rw [List.any_eq_false]
    intro e he
    obtain ⟨r', rfl, -, -, h2⟩ := hp _ he
    simp [h2]
  have hline : (y.lsRead (s.lone y) c).any (fun t =>
      (if y.unit = 6 then ((s.lone y).rd t.1).late else ((s.lone y).rd t.1).whole).anyPoison t.2.1 t.2.2
      || (((s.lone y).rd t.1).cb.segBuf).any fun st =>
          st.poison && (Place.ls (s.lone y).row t.1 t.2.1).meets t.2.2 st.place st.data.length) = false := by
    rw [List.any_eq_false]
    intro t ht
    have h1 := hl t ht
    have h2 : ((s.lone y).rd t.1).cb.segBuf = [] := hB t.1
    have h3 : ((s.lone y).rd t.1).whole = s.coreHere t.1 := rfl
    have h4 : ((s.lone y).rd t.1).late = s.coreHere t.1 := rfl
    rw [h2, h3, h4, ite_self, h1]
    simp
  have e1 : ((s.row s.cur).cores[c].of s.side).badV = 0 := hV
  have e2 : ((s.row s.cur).cores[c].of s.side).badS = 0 := hS
  have e3 : ((s.row s.cur).cores[c].of s.side).badQ = 0 := hQ
  have e4 : (s.row s.cur).cores[c].badT = 0 := hT
  have e5 : ((s.row s.cur).bank s.side).badK = 0 := hK
  have e6 : ((s.row s.cur).bank s.side).badC = false := hC
  have e7 : ((s.row s.cur).cb s.side c).residue = false := hR
  have e0 : consumesIn ((s.row s.cur).bank s.side) (s.row s.cur).cores[c] s.side c y (s.lone y)
      (poppedBy ((s.row s.cur).cb s.side c) (0, 0) y) = 0 := by
    have ht : y.touch.any (fun t => y.locs.contains (.tile t) &&
        (s.row s.cur).cores[c].badTile ((s.row s.cur).bank s.side) s.side t) = false := by
      cases hy' : y.touch with
      | none => rfl
      | some t =>
        have h2 : ((s.row s.cur).cores[c]).restoreDue s.side t = false := (hy.saves t hy' c).2
        have hb : (s.row s.cur).cores[c].badTile ((s.row s.cur).bank s.side) s.side t = false := by
          rw [Core.badTile, e4, h2, Bool.false_and]; simp
        rw [Option.any_some, hb, Bool.and_false]
    simp only [consumesIn, e1, e2, e3, e5, e6, hline, hpop, ht, Bool.or_false]
    rw [if_neg, if_neg]
    · rw [Bool.not_eq_true, Bool.false_or, List.any_eq_false]
      intro l _; cases l <;> simp
    · rw [Bool.not_eq_true, List.any_eq_false]
      intro l _; cases l <;> simp
  have hb : popsBefore (([(⟨y, w⟩, s.lone y)].take 0).map fun (p : Part × Issue) => p.1) = (0, 0) := rfl
  simp only [State.consumes, State.consumersIn, List.zipIdx_cons, List.zipIdx_nil, List.map_cons, List.map_nil, hb, e0, e7]
  rfl

theorem Calm.verdicts (h : Calm s) (w : BitVec 32) (hint : y.interval.isSome = true → s.here.mmaFree ≤ s.here.cycle) (v : Verdict)
    (hpart : partVerdict (s.lone y) (0, 0) y false = v) :
    s.verdicts s.cur s.side (s.here.pc + 1) [⟨y, w⟩] = [(⟨y, w⟩, .clear), (⟨y, w⟩, v)] := by
  have hc : (s.bank s.cur s.side).chk = false := h.chk
  have hi : checkRow .hazardII (y.interval.isSome && decide ((s.bank s.cur s.side).cycle < (s.bank s.cur s.side).mmaFree)) = .clear := by
    rw [checkRow, if_neg]
    rw [Bool.not_eq_true, Bool.and_eq_false_iff, decide_eq_false_iff_not]
    by_cases hy' : y.interval.isSome = true
    · right
      have := hint hy'
      simp only [State.here] at this
      omega
    · left; simpa using hy'
  have hv : partVerdict (s.lone y) (popsBefore []) y (walksBeside [(⟨y, w⟩, s.lone y)] y.unit) = v := by
    have : walksBeside [((⟨y, w⟩ : Part), s.lone y)] y.unit = false := by simp [walksBeside]
    rw [this]; exact hpart
  simp only [State.verdicts, hc, h.issues, List.zipIdx_cons, List.zipIdx_nil, List.map_cons, List.map_nil, Bool.false_eq_true, if_false,
    List.append_nil, List.zip_cons_cons, List.zip_nil_left, List.take_zero, hi, hv, List.cons_append, List.nil_append]

theorem Clear.savesDue (hy : Clear s y) (w : BitVec 32) : s.savesDue s.cur s.side [⟨y, w⟩] = 0 := by
  have h := hy.saves
  simp only [State.savesDue, State.savesFor, touched, List.filterMap_cons, List.filterMap_nil]
  cases ht : y.touch with
  | none => rfl
  | some t =>
    have h1 := (allCores_any fun c => ((s.row s.cur).cores[c]).saveDue s.side t).2 fun c => (h t ht c).1
    have h2 := (allCores_any fun c => ((s.row s.cur).cores[c]).restoreDue s.side t).2 fun c => (h t ht c).2
    simp only [List.foldl_cons, List.foldl_nil, h1, h2]
    rfl

theorem Calm.retouchPlan (h : Calm s) : s.retouchPlan s.cur s.side = none := by
  have e1 : (s.bank s.cur s.side).matOps = [] := h.matOps
  simp [State.retouchPlan, e1]

theorem Calm.consumePlan (h : Calm s) (hy : Clear s y) (w : BitVec 32) :
    s.consumePlan s.cur s.side [⟨y, w⟩] (s.here.pc + 1) = none := by
  have : firstCore (fun c => s.consumes s.cur s.side [(⟨y, w⟩, s.lone y)] c != 0) = none :=
    firstCore_none _ fun c => by rw [h.consumes hy w c]; rfl
  simp only [State.consumePlan, h.issues, this]

/-- What is to be asked of a bundle before its own conditions, of a calm bank. -/
theorem Calm.plan_verdicts (h : Calm s) (w : BitVec 32) :
    s.plan s.cur s.side [⟨y, w⟩] (s.here.pc + 1) =
      (let vs := s.verdicts s.cur s.side (s.here.pc + 1) [⟨y, w⟩]
       match firstTrap vs with
       | some t => .trap t
       | none =>
         match firstFreeze vs with
         | some (c, e, fs) => .freeze c e fs
         | none =>
           if s.acksOver s.cur s.side (s.writesDue s.cur s.side [(⟨y, w⟩, s.lone y)]) then .freeze .drain false []
           else s.clearPlan s.cur s.side [⟨y, w⟩] (s.here.pc + 1) vs) := by
  have e2 : (s.bank s.cur s.side).votes = [] := h.votes
  have e3 : (s.bank s.cur s.side).posted = [] := h.posted
  have e4 : (s.bank s.cur s.side).late = none := h.late
  have ev : (s.bank s.cur s.side).voteHolds [⟨y, w⟩] = false := by simp [Bank.voteHolds, e2]
  have ep : s.postedDue s.cur s.side [⟨y, w⟩] = none := by simp [State.postedDue, e3]
  have el : (s.bank s.cur s.side).latePlan [⟨y, w⟩] = none := by simp [Bank.latePlan, e4]
  simp only [State.plan, h.stalled, el, ev, ep, h.retouchPlan, h.issues, Bool.false_eq_true, if_false] <;> rfl

/-- A calm bank issues a syllable whose own conditions are clear. -/
theorem Calm.plan (h : Calm s) (hy : Clear s y) (w : BitVec 32) :
    (s.plan s.cur s.side [⟨y, w⟩] (s.here.pc + 1)).isIssue = true ∧ s.plan s.cur s.side [⟨y, w⟩] (s.here.pc + 1) = .issue := by
  have h0 : s.plan s.cur s.side [⟨y, w⟩] (s.here.pc + 1) = .issue := by
    have e4 : (s.bank s.cur s.side).segment = none := h.segment
    have ea : s.acksOver s.cur s.side (s.writesDue s.cur s.side [(⟨y, w⟩, s.lone y)]) = false := hy.acks
    have es : s.segmentPlan s.cur s.side [⟨y, w⟩] = none := by simp [State.segmentPlan, e4]
    simp only [h.plan_verdicts, h.verdicts w hy.interval _ hy.partVerdict, firstTrap, firstFreeze, ea, Bool.false_eq_true, if_false,
      State.clearPlan, h.consumePlan hy, es, firstAsk, hy.savesDue w, bne_self_eq_false, Option.orElse_none,
      Option.getD_none]
  exact ⟨by rw [h0]; rfl, h0⟩

/-- What exec does with a syllable that a calm bank may hold and whose conditions are clear: the bundle issues whole. -/
theorem Calm.presentOne (h : Calm s) (hp : y.permitted s.here = true) (hy : Clear s y) (i : Instr) :
    presentOne s y i = s.commit s.cur s.side [⟨y, (encodeSyl true i).getD 0⟩] (s.here.pc + 1) := by
  have h1 : s.presents s.cur (s.row s.cur).holder = true := h.presents
  have h2 : y.permitted (s.bank s.cur (s.row s.cur).holder) = true := hp
  have h3 := (h.plan hy ((encodeSyl true i).getD 0)).2
  simp only [State.side, State.here] at h3
  simp only [Machine.presentOne, h1, h2, Bool.not_true, Bool.false_eq_true, if_false, if_true, State.present, h3, State.carryOut]
  rfl

end

/-- A syllable the panel accepts is clear. -/
theorem State.accepts_clear (s : State) (y : Syl) (h : s.accepts y = true) : Clear s y := by
  have hm : ∀ c : Fin 64, c ∈ allCores := List.mem_finRange
  simp only [State.accepts, Bool.and_eq_true, Bool.or_eq_true, decide_eq_true_eq, Verdict.isClear_iff, List.all_eq_true,
    Bool.not_eq_true', beq_iff_eq, Option.isNone_iff_eq_none] at h
  obtain ⟨⟨⟨⟨⟨⟨⟨h1, h2⟩, hf⟩, ha⟩, h3⟩, h4⟩, h5⟩, h6⟩ := h
  refine ⟨fun hi => ?_, h2, hf, ha, h3, h4.imp id fun h c => h c (hm c), fun t ht c => ?_, fun c t ht => h6 c (hm c) t ht⟩
  · rcases h1 with h1 | h1
    · simp [h1] at hi
    · exact h1
  · rw [ht, Option.all_some, allCores_all] at h5
    simpa using h5 c

/-! ## The issue cycle -/

/-- One cycle in the sequencer's part. -/
def Bank.tick (b : Bank) : Bank := { b with cycle := b.cycle + 1, since := b.since + 1, matTime := b.matTime + 1 }

/-- A row's bank after one cycle: what is due in its cores has landed. -/
def Row.tick (r : Row) (x : Side) : Row :=
  (r.mapCores fun _ c => c.landDue (r.bank x) x ((r.bank x).cycle + 1)).modBank x Bank.tick

/-- Of its bank a landing result needs only the tile save areas. -/
theorem Core.landDue_bank (c : Core) (b b' : Bank) (x : Side) (m : Nat) (h : ∀ t, b.saveArea t = b'.saveArea t) :
    c.landDue b x m = c.landDue b' x m := by
  have h1 : ∀ (c : Core) (f : Flight), c.land b x f = c.land b' x f := by
    intro c f
    obtain ⟨l, u, d, g⟩ := f
    cases d with
    | tile t v m => simp only [Core.land, Core.landTile, h]
    | none => rfl
    | s r v => rfl
    | v r v m => rfl
    | q r v m => rfl
  simp only [Core.landDue, h1]

theorem performDue_none (s : State) (n : Nat) (x : Side) (m k : Nat)
    (h : ∀ q ∈ s.pend, q.row = n → q.side = x → (q.due.isSome && !q.op.atIssue) = false) : s.performDue n x m k = s := by
  cases k with
  | zero => rfl
  | succ k =>
    have : s.pend.find? (fun q => q.row == n && q.side == x && q.due.any (· ≤ m) && !q.op.atIssue && s.unheld q) = none := by
      rw [List.find?_eq_none]
      intro q hq
      by_cases h1 : q.row = n
      · by_cases h2 : q.side = x
        · have := h q hq h1 h2
          cases hd : q.due <;> simp_all
        · simp [h2]
      · simp [h1]
    simp only [State.performDue, this]

theorem State.modRow_congr (s : State) (n : Nat) (f g : Row → Row) (h : f (s.row n) = g (s.row n)) : s.modRow n f = s.modRow n g := by
  rw [State.modRow, h]; rfl

/-- At the start of an issue cycle of a bank whose matrix engine and ports have nothing due, nothing happens. -/
theorem startCycle_calm (s : State) (n : Nat) (x : Side) (h4 : (s.bank n x).matOps = [])
    (h5 : ∀ q ∈ s.pend, q.row = n → q.side = x → (q.due.isSome && !q.op.atIssue) = false) : s.startCycle n x = s := by
  have : s.beginDue n x = s := by simp only [State.beginDue, h4, List.foldl_nil]
  rw [State.startCycle, this, performDue_none _ _ _ _ _ h5]

/-- What lands in a bank with nothing due in its sequencer: the due results of its cores. -/
theorem landAll_calm (s : State) (n : Nat) (x : Side) (m : Nat) (h1 : (s.bank n x).seq = []) (h2 : (s.bank n x).votes = [])
    (h3 : (s.bank n x).fmtNext = []) :
    s.landAll n x m = s.modRow n fun r => r.mapCores fun _ c => c.landDue (r.bank x) x m := by
  simp only [State.landAll, h1, List.filter_nil, List.foldl_nil]
  rw [State.modBank_eq, State.modRow_modRow]
  apply State.modRow_congr
  rw [Row.modBank_id]
  have h1' : ((s.row n).bank x).seq = [] := h1
  have h2' : ((s.row n).bank x).votes = [] := h2
  have h3' : ((s.row n).bank x).fmtNext = [] := h3
  simp only [h1', h2', h3', List.filter_nil, List.foldl_nil]
  generalize (s.row n).bank x = b at *
  cases b
  simp_all

/-- The boundary of an issue cycle of a bank whose sequencer and matrix engine have nothing due. -/
theorem passCycle_calm (s : State) (n : Nat) (x : Side) (h1 : (s.bank n x).seq = []) (h2 : (s.bank n x).votes = [])
    (h3 : (s.bank n x).fmtNext = []) (h4 : (s.bank n x).matOps = []) : s.passCycle n x false = s.modRow n (·.tick x) := by
  have e : s.passCycle n x false =
      ((s.modBank n x fun b => { b with cycle := b.cycle + 1, since := b.since + 1 }).landAll n x ((s.bank n x).cycle + 1)).matrixPass n x := by
    simp only [State.passCycle, State.bank_modBank, Bool.false_eq_true, if_false]
  rw [e, landAll_calm _ _ _ _ (by simpa using h1) (by simpa using h2) (by simpa using h3)]
  generalize ht : ((s.modBank n x fun b => { b with cycle := b.cycle + 1, since := b.since + 1 }).modRow n fun r =>
      r.mapCores fun _ c => c.landDue (r.bank x) x ((s.bank n x).cycle + 1)) = t
  have hm : (t.bank n x).matOps = [] := by
    rw [← ht, State.bank, State.row_modRow, Row.bank_mapCores, State.modBank_eq, State.row_modRow, Row.bank_modBank]
    exact h4
  have hm' : ((t.modBank n x fun b => { b with matTime := b.matTime + 1 }).bank n x).matOps = [] := by
    rw [State.bank_modBank]; exact hm
  simp only [State.matrixPass, hm, hm', List.any_nil, List.isEmpty_nil, Bool.false_eq_true, if_false, if_true]
  rw [← ht, State.modBank_eq, State.modBank_eq, State.modRow_modRow, State.modRow_modRow]
  apply State.modRow_congr
  simp only [Row.mapCores_modBank, Row.modBank_modBank, Row.tick, Row.bank_modBank]
  have : ∀ c : Core, c.landDue { (s.row n).bank x with cycle := ((s.row n).bank x).cycle + 1, since := ((s.row n).bank x).since + 1 } x
      (((s.row n).bank x).cycle + 1) = c.landDue ((s.row n).bank x) x (((s.row n).bank x).cycle + 1) :=
    fun c => c.landDue_bank _ _ x _ fun _ => rfl
  simp only [State.bank, this]
  rfl

/-! ## The skew line -/

@[simp] theorem Row.setLine_bank (r : Row) (x y : Side) (l : List LineEntry) : (r.setLine x l).bank y = r.bank y := by
  cases x <;> cases y <;> rfl
@[simp] theorem Row.setLine_cores (r : Row) (x : Side) (l : List LineEntry) : (r.setLine x l).cores = r.cores := by cases x <;> rfl
@[simp] theorem Row.stretch_bank (r old : Row) (x y : Side) (p : List (Fin 64 × Nat × List Byte)) :
    (r.stretch old x p).bank y = r.bank y := by
  simp only [Row.stretch]; split_ifs <;> simp
@[simp] theorem Row.stretch_cores (r old : Row) (x : Side) (p : List (Fin 64 × Nat × List Byte)) :
    (r.stretch old x p).cores = r.cores := by
  simp only [Row.stretch]; split_ifs <;> simp
/-- Without skew there is no line. -/
theorem Row.stretch_skew0 (r old : Row) (x : Side) (p : List (Fin 64 × Nat × List Byte)) (h : (old.bank x).info.skew = 0) :
    r.stretch old x p = r := by
  simp [Row.stretch, h]
/-- What the line takes from the row before the cycle. -/
theorem Row.stretch_congr (r old old' : Row) (x : Side) (p : List (Fin 64 × Nat × List Byte))
    (h1 : (old.bank x).info.skew = (old'.bank x).info.skew) (h2 : (old.bank x).cycle = (old'.bank x).cycle)
    (h4 : old.cores = old'.cores) : r.stretch old x p = r.stretch old' x p := by
  simp only [Row.stretch, h1, h2, h4]

/-! ## A bundle that only puts results in flight -/

/-- A row once a lone syllable's results have entered flight and its pops have left the queues. -/
def Row.enter (r : Row) (x : Side) (k : Nat × Nat) (fs : Fin 64 → List Flight) : Row :=
  { (r.mapBanks x fun c b =>
      let b := if k.1 + k.2 = 0 then b else b.dropPops k
      { b with flights := b.flights ++ fs c }) with walked := [] }

/-- The sequencer's part once a bundle has issued, before its cycle has passed. -/
def Bank.leave (b : Bank) (parts : List Part) (next : BitVec 15) : Bank :=
  { (b.passBundle next) with
      frozen := none, frozenFor := 0, asked := false, asking := none, go := false, answer := none, request := none
      voteHeld := false, retouch := false
      segment := b.segment.map fun g => (g.read parts).write parts
      heldLeft := if parts.any (·.syl.isGuarded) then 63 * b.info.skew.val else 0 }

theorem Bank.tick_leave (b : Bank) (y : Syl) (w : BitVec 32) (h : b.segment = none) :
    (b.leave [⟨y, w⟩] (b.pc + 1)).tick = b.moved y.isGuarded := by
  simp only [Bank.leave, Bank.tick, Bank.moved, h, List.any_cons, List.any_nil, Bool.or_false, Option.map_none]
  have : (b.passBundle (b.pc + 1)).segment = none := h
  rw [← this]
  rfl

/-- What a syllable of a calm bank with no tile to take does before its effect. -/
def State.entered (s : State) (y : Syl) (w : BitVec 32) : State :=
  s.modRow s.cur fun r =>
    (r.enter s.side y.pops fun c => y.fly ((s.lone y).rd c)).modBank s.side (·.leave [⟨y, w⟩] (s.here.pc + 1))

/-- The cycle of a syllable of a calm bank with no tile to take: its effect, what the cycle does in local stores, its own writes to them,
the boundary, the skew line. -/
theorem Calm.commit_eq {s : State} {y : Syl} (h : Calm s) (w : BitVec 32) (ht : y.touch = none) :
    s.commit s.cur s.side [⟨y, w⟩] (s.here.pc + 1) =
      (((((y.effect (s.lone y) (s.entered y w)).startCycle s.cur s.side).putAll s.cur s.side s.here.cycle [(⟨y, w⟩, s.lone y)]).passCycle s.cur s.side false).modRow
        s.cur (·.stretch (s.row s.cur) s.side (s.putPrior s.cur [(⟨y, w⟩, s.lone y)]))) := by
  have e : ((s.enterResults s.cur s.side [(⟨y, w⟩, s.lone y)]).modBank s.cur s.side (·.leave [⟨y, w⟩] (s.here.pc + 1))) = s.entered y w := by
    rw [State.enterResults, State.modBank_eq, State.modRow_modRow]
    simp only [List.map_cons, List.map_nil, popsBefore_one, List.flatMap_cons, List.flatMap_nil, List.append_nil]
    rfl
  rw [← e]
  simp only [State.commit, h.issues, touched, List.filterMap_cons, List.filterMap_nil, ht]
  rfl

/-- A syllable that writes no local store in its issue cycle. -/
theorem putsOf_none (y : Syl) (w : BitVec 32) (i : Issue) (h : ∀ c, y.put i c = none) : putsOf [(⟨y, w⟩, i)] = [] := by
  simp [putsOf, h, List.flatMap_eq_nil_iff]

theorem CoreBank.dropPops_zero (b : CoreBank) : b.dropPops (0, 0) = b := by
  have : b.loads.filter (fun r => !(([] : List Nat).contains r.id)) = b.loads := by simp
  simp only [CoreBank.dropPops, List.take_zero, List.append_nil, List.map_nil, this]

theorem CoreBank.dropPops_if (b : CoreBank) (k : Nat × Nat) : (if k.1 + k.2 = 0 then b else b.dropPops k) = b.dropPops k := by
  split_ifs with h
  · obtain ⟨i, j⟩ := k
    simp only at h
    obtain ⟨rfl, rfl⟩ : i = 0 ∧ j = 0 := by omega
    exact b.dropPops_zero.symm
  · rfl

section
variable {s : State} {y : Syl}

theorem Row.walked_modBank (r : Row) (x : Side) (f : Bank → Bank) (w : List (WalkReq × Word)) :
    ({ r with walked := w } : Row).modBank x f = { r.modBank x f with walked := w } := by cases x <;> rfl
theorem Row.walked_mapCores (r : Row) (f : Fin 64 → Core → Core) (w : List (WalkReq × Word)) :
    ({ r with walked := w } : Row).mapCores f = { r.mapCores f with walked := w } := rfl
theorem Row.walked_bank (r : Row) (x : Side) (w : List (WalkReq × Word)) : ({ r with walked := w } : Row).bank x = r.bank x := by
  cases x <;> rfl

/-- A row after a lone syllable whose whole effect is its results has issued and the cycle has passed. -/
theorem Row.tick_enter (r : Row) (x : Side) (k : Nat × Nat) (fs : Fin 64 → List Flight) (g : Bank → Bank)
    (hg : (g (r.bank x)).cycle = (r.bank x).cycle) (hs : ∀ t, (g (r.bank x)).saveArea t = (r.bank x).saveArea t)
    (f : Fin 64 → CoreBank → CoreBank)
    (hf : ∀ c : Fin 64, ((r.cores[c]).mod x fun b => { b.dropPops k with flights := b.flights ++ fs c }).landDue (r.bank x) x
      ((r.bank x).cycle + 1) = (r.cores[c]).mod x (f c)) :
    ((r.enter x k fs).modBank x g).tick x = { (r.mapBanks x f).modBank x (fun b => (g b).tick) with walked := [] } := by
  have hb : ((r.enter x k fs).modBank x g).bank x = g (r.bank x) := by
    rw [Row.bank_modBank, Row.enter, Row.walked_bank, Row.mapBanks, Row.bank_mapCores]
  rw [Row.tick, hb, hg, Row.mapCores_modBank, Row.modBank_modBank, Row.enter, Row.walked_mapCores, Row.walked_modBank]
  simp only [Row.mapBanks, Row.mapCores_mapCores]
  have : (tab fun c : Fin 64 => ((r.cores[c]).mod x fun b => { (if k.1 + k.2 = 0 then b else b.dropPops k) with
        flights := (if k.1 + k.2 = 0 then b else b.dropPops k).flights ++ fs c }).landDue (g (r.bank x)) x ((r.bank x).cycle + 1))
      = tab fun c : Fin 64 => (r.cores[c]).mod x (f c) := by
    apply tab_congr
    intro c
    rw [← hf c, Core.landDue_bank _ _ _ _ _ hs]
    simp only [CoreBank.dropPops_if]
    rfl
  simp only [Row.mapCores]
  rw [this]

/-- The state after a calm bank has issued a syllable whose whole effect is the results it puts in flight, core by core. -/
theorem Calm.commit (h : Calm s) (w : BitVec 32) (ht : y.touch = none) (he : ∀ i t, y.effect i t = t) (hput : ∀ i c, y.put i c = none)
    (f : Fin 64 → CoreBank → CoreBank)
    (hf : ∀ c, ((s.coreHere c).mod s.side fun b => { b.dropPops y.pops with flights := b.flights ++ y.fly ((s.lone y).rd c) }).landDue s.here
        s.side (s.here.cycle + 1) = (s.coreHere c).mod s.side (f c)) :
    s.commit s.cur s.side [⟨y, w⟩] (s.here.pc + 1) = s.issued y.isGuarded f := by
  have hb : (s.entered y w).bank s.cur s.side = s.here.leave [⟨y, w⟩] (s.here.pc + 1) := by
    rw [State.entered, State.bank, State.row_modRow, Row.bank_modBank, Row.enter, Row.walked_bank, Row.mapBanks, Row.bank_mapCores]
    rfl
  have h0 : putsOf [((⟨y, w⟩ : Part), s.lone y)] = [] := putsOf_none y w _ fun c => hput _ c
  have hs : (s.entered y w).startCycle s.cur s.side = s.entered y w :=
    startCycle_calm _ _ _ (by rw [hb]; exact h.matOps) h.due
  have hp : (s.entered y w).passCycle s.cur s.side false = (s.entered y w).modRow s.cur (·.tick s.side) := by
    apply passCycle_calm <;> rw [hb]
    exacts [h.seq, h.votes, h.fmtNext, h.matOps]
  rw [h.commit_eq w ht, he, hs, State.putAll, State.putPrior, h0, List.foldl_nil, hp, State.entered, State.modRow_modRow,
    State.modRow_modRow, State.issued]
  apply State.modRow_congr
  rw [Row.tick_enter (s.row s.cur) s.side y.pops (fun c => y.fly ((s.lone y).rd c)) (·.leave [⟨y, w⟩] (s.here.pc + 1)) rfl
    (fun _ => rfl) f hf]
  have : ((s.row s.cur).mapBanks s.side f).modBank s.side (fun b => (b.leave [⟨y, w⟩] (s.here.pc + 1)).tick)
      = ((s.row s.cur).mapBanks s.side f).modBank s.side (·.moved y.isGuarded) := by
    have e : ((s.row s.cur).mapBanks s.side f).bank s.side = s.here := by rw [Row.mapBanks, Row.bank_mapCores]; rfl
    have e2 := Bank.tick_leave s.here y w h.segment
    generalize (s.row s.cur).mapBanks s.side f = r at *
    cases hs : s.side <;> simp only [hs, Row.bank] at e <;> simp only [Row.modBank, e, e2]
  rw [this]
  rfl

end

section
variable {s : State} {y : Syl}

/-- What exec does with a syllable whose whole effect is results that land later than the next boundary: they are in flight. -/
theorem Calm.flying (h : Calm s) (hp : y.permitted s.here = true) (hy : Clear s y) (i : Instr) (ht : y.touch = none)
    (he : ∀ i t, y.effect i t = t) (hput : ∀ i c, y.put i c = none) (hl : ∀ c, ∀ F ∈ y.fly ((s.lone y).rd c), s.here.cycle + 1 < F.land) :
    Machine.presentOne s y i = s.issued y.isGuarded fun c b => (b.dropPops y.pops).flying (y.fly ((s.lone y).rd c)) := by
  rw [h.presentOne hp hy, h.commit _ ht he hput]
  intro c
  have hf : ((s.coreHere c).of s.side).flights = [] := h.flights c
  have h0 : ((s.coreHere c).mod s.side fun b => { b.dropPops y.pops with flights := b.flights ++ y.fly ((s.lone y).rd c) }).of s.side
      = { ((s.coreHere c).of s.side).dropPops y.pops with flights := y.fly ((s.lone y).rd c) } := by
    rw [Core.of_mod, hf, List.nil_append]
  have h1 : (y.fly ((s.lone y).rd c)).filter (fun f => decide (f.land ≤ s.here.cycle + 1)) = [] := by
    rw [List.filter_eq_nil_iff]
    intro F hF
    have := hl c F hF
    simp only [decide_eq_true_eq]; omega
  have h2 : (y.fly ((s.lone y).rd c)).filter (fun f => !decide (f.land ≤ s.here.cycle + 1)) = y.fly ((s.lone y).rd c) := by
    rw [List.filter_eq_self]
    intro F hF
    have := hl c F hF
    simp only [Bool.not_eq_true', decide_eq_false_iff_not]; omega
  simp only [Core.landDue, h0, h1, h2, List.foldl_nil, Core.mod_mod]
  rfl

/-- What exec does with a syllable whose whole effect is one scalar result of latency 1 in some cores. -/
theorem Calm.landing (h : Calm s) (hp : y.permitted s.here = true) (hy : Clear s y) (i : Instr) (ht : y.touch = none)
    (he : ∀ i t, y.effect i t = t) (hput : ∀ i c, y.put i c = none) (u : Fin 8) (d : SDst) (on : Fin 64 → Bool) (x : Fin 64 → Word)
    (hl : ∀ c, y.fly ((s.lone y).rd c) = if on c then [((s.lone y).rd c).scalar u 1 d (x c)] else []) :
    Machine.presentOne s y i = s.issued y.isGuarded fun c b =>
      if on c then (b.dropPops y.pops).sput d (x c) else b.dropPops y.pops := by
  rw [h.presentOne hp hy, h.commit _ ht he hput]
  intro c
  have hf : ((s.coreHere c).of s.side).flights = [] := h.flights c
  have hb : ((s.coreHere c).of s.side).badS = 0 := h.badS c
  have hc : ((s.lone y).rd c).bank.cycle = s.here.cycle := rfl
  rw [hl c]
  generalize s.coreHere c = k at hf hb
  cases on c
  · cases hs : s.side <;> rw [hs] at hf hb <;> simp only [Core.of] at hf hb <;>
      simp [Core.landDue, Core.mod, Core.of, hf, CoreBank.dropPops]
  · simp only [if_true, Rd.scalar, hc, CoreBank.sput]
    cases hs : s.side <;> rw [hs] at hf hb <;> simp only [Core.of] at hf hb <;> by_cases hd : d.val = 0 <;>
      simp [Core.landDue, Core.mod, Core.of, Core.land, hf, hb, hd, CoreBank.dropPops] <;>
      exact fun h0 => absurd (congrArg Fin.val h0) hd

end

/-! ## Traps -/

section
variable {s : State} {y : Syl}

/-- What a trapping bank meets. -/
theorem State.traps_iff (s : State) (h : s.traps = true) :
    Calm s ∧ s.here.handler = false ∧ s.here.trapvec.getLsbD 15 = true ∧ s.here.armed = none ∧ s.here.asking = none ∧ s.here.atBar = none ∧
    ∀ q ∈ s.pend, q.row = s.cur → q.side = s.side → q.op.atIssue = false := by
  simp only [State.traps, Bool.and_eq_true, Bool.not_eq_true', Option.isNone_iff_eq_none, List.all_eq_true] at h
  refine ⟨s.calm_iff h.1.1.1.1.1.1, h.1.1.1.1.1.2, h.1.1.1.1.2, h.1.1.1.2, h.1.1.2, h.1.2, fun q hq hr hs => ?_⟩
  have := h.2 q hq
  simp_all

theorem Calm.withdrawLocks (h : Calm s) (h0 : ∀ q ∈ s.pend, q.row = s.cur → q.side = s.side → q.op.atIssue = false) : (s.modRow s.cur fun r => { r with walked := [] }).withdrawLocks s.cur s.side =
    s.modRow s.cur fun r => { r with walked := [] } := by
  have h1 : ∀ q ∈ s.pend, (q.row == s.cur && q.side == s.side && (q.op.isLock || q.op.atIssue)) = false := by
    intro q hq
    by_cases hr : q.row = s.cur
    · by_cases hx : q.side = s.side
      · simp [h.lock q hq hr hx, h0 q hq hr hx]
      · simp [hx]
    · simp [hr]
  have h2 : s.pend.filter (fun q => q.row == s.cur && q.side == s.side && (q.op.isLock || q.op.atIssue)) = [] := by
    rw [List.filter_eq_nil_iff]; intro q hq; simp [h1 q hq]
  have h3 : s.pend.filter (fun q => !(q.row == s.cur && q.side == s.side && (q.op.isLock || q.op.atIssue))) = s.pend := by
    rw [List.filter_eq_self]; intro q hq; simp [h1 q hq]
  simp only [State.withdrawLocks, State.modRow_pend, h2, h3, List.foldl_nil]
  rfl

/-- A bundle that has asked for nothing and arrived nowhere withdraws nothing. -/
theorem Calm.withdraw (h : Calm s) (h0 : ∀ q ∈ s.pend, q.row = s.cur → q.side = s.side → q.op.atIssue = false) (h1 : s.here.asking = none) (h2 : s.here.atBar = none) :
    (s.modRow s.cur fun r => { r with walked := [] }).withdraw s.cur s.side = s.modRow s.cur fun r => { r with walked := [] } := by
  have hb : (s.modRow s.cur fun r => { r with walked := [] }).bank s.cur s.side = s.here := by
    rw [State.bank, State.row_modRow, Row.walked_bank]; rfl
  simp only [State.withdraw, h.withdrawLocks h0, hb, h1, h2]

/-- A calm bank's core, with nothing due. -/
theorem Calm.landDue (h : Calm s) (c : Fin 64) (b : Bank) (m : Nat) : (s.coreHere c).landDue b s.side m = s.coreHere c := by
  have hf : ((s.coreHere c).of s.side).flights = [] := h.flights c
  generalize s.coreHere c = k at hf
  simp only [Core.landDue, hf, List.filter_nil, List.foldl_nil]
  cases hs : s.side <;> rw [hs] at hf <;> simp only [Core.of] at hf <;> simp only [Core.mod, ← hf]

/-- A bank that enters its handler takes the trap so. -/
theorem State.enterTrap_handler (s : State) (n : Nat) (x : Side) (t : TrapInfo) (pc next : BitVec 15) (cycle : Nat)
    (h1 : (s.bank n x).armed = none) (h2 : (s.bank n x).handler = false) (h3 : (s.bank n x).trapvec.getLsbD 15 = true)
    (h4 : (s.bank n x).matOps = []) :
    s.enterTrap n x t pc next cycle = s.modBank n x fun b => (b.writeRecord t pc next cycle).enterHandler pc next := by
  have hb : (s.modBank n x (·.writeRecord t pc next cycle)).bank n x = (s.bank n x).writeRecord t pc next cycle := State.bank_modBank ..
  have a1 : ((s.bank n x).writeRecord t pc next cycle).armed = none := h1
  have a2 : ((s.bank n x).writeRecord t pc next cycle).handler = false := h2
  have a3 : ((s.bank n x).writeRecord t pc next cycle).trapvec.getLsbD 15 = true := h3
  have ht : s.takeTrap n x t pc next cycle = s.modBank n x fun b => (b.writeRecord t pc next cycle).enterHandler pc next := by
    simp only [State.takeTrap, hb, a1, a2, a3, Option.isSome_none, Bool.false_eq_true, if_false, Bool.not_true, Bool.or_false]
    rw [State.modBank_eq, State.modBank_eq, State.modRow_modRow]
    apply State.modRow_congr
    rw [Row.modBank_modBank]
  have hm : ((s.modBank n x fun b => (b.writeRecord t pc next cycle).enterHandler pc next).bank n x).matOps = [] := by
    rw [State.bank_modBank]; exact h4
  simp only [State.enterTrap, ht, hm, List.isEmpty_nil, Bool.not_true, Bool.and_false, Bool.false_eq_true, if_false]

/-- A trapped bundle of a calm bank that enters its handler, its trap not held back by a verdict. -/
theorem Calm.trapBundle (h : Calm s) (ht : s.traps = true) (t' : TrapInfo) (g : Bool) (hg : g = true → s.here.info.skew = 0) :
    s.trapBundle s.cur s.side t' (s.here.pc + 1) g = s.trapped t' := by
  obtain ⟨-, hh, hv, ha, hask, hbar, hrel⟩ := s.traps_iff ht
  have hskew' : (g && (s.bank s.cur s.side).info.skew.val != 0) = false := by
    by_cases hgd : g = true
    · have := hg hgd
      simp only [State.here] at this
      simp [this]
    · simp [hgd]
  have hb : (s.modRow s.cur fun r => { r with walked := [] }).bank s.cur s.side = s.here := by
    rw [State.bank, State.row_modRow, Row.walked_bank]; rfl
  simp only [State.trapBundle, h.withdraw hrel hask hbar, hskew', Bool.false_eq_true, if_false]
  rw [State.enterTrap_handler _ _ _ _ _ _ _ (by rw [hb]; exact ha) (by rw [hb]; exact hh) (by rw [hb]; exact hv) (by rw [hb]; exact h.matOps),
    State.modBank_eq, State.modRow_modRow]
  generalize hT : (s.modRow s.cur fun r => ({ r with walked := [] } : Row).modBank s.side fun b =>
    (b.writeRecord t' (s.bank s.cur s.side).pc (s.here.pc + 1) (s.bank s.cur s.side).cycle).enterHandler (s.bank s.cur s.side).pc
      (s.here.pc + 1)) = T
  have hTb : T.bank s.cur s.side = (s.here.writeRecord t' s.here.pc (s.here.pc + 1) s.here.cycle).enterHandler s.here.pc (s.here.pc + 1) := by
    rw [← hT, State.bank, State.row_modRow, Row.bank_modBank, Row.walked_bank]; rfl
  have hTp : T.pend = s.pend := by rw [← hT]; rfl
  rw [State.idleCycle, startCycle_calm _ _ _ (by rw [hTb]; exact h.matOps) (by rw [hTp]; exact h.due)]
  rw [passCycle_calm _ _ _ (by rw [hTb]; exact h.seq) (by rw [hTb]; exact h.votes) (by rw [hTb]; exact h.fmtNext)
    (by rw [hTb]; exact h.matOps), State.modRow_modRow]
  have hrow : T.row s.cur = ({ s.row s.cur with walked := [] } : Row).modBank s.side fun b =>
      (b.writeRecord t' s.here.pc (s.here.pc + 1) s.here.cycle).enterHandler s.here.pc (s.here.pc + 1) := by
    rw [← hT, State.row_modRow]; rfl
  rw [hrow, ← hT, State.modRow_modRow, State.trapped]
  apply State.modRow_congr
  rw [Row.stretch_congr _ _ (s.row s.cur) _ _ (by rw [Row.bank_modBank, Row.walked_bank]; rfl)
    (by rw [Row.bank_modBank, Row.walked_bank]; rfl) (by rw [Row.cores_modBank])]
  congr 1
  simp only [Row.tick, Row.mapCores_modBank, Row.modBank_modBank, Row.bank_modBank, Row.walked_bank, Row.walked_mapCores, Row.walked_modBank]
  rw [Row.mapCores_id _ _ (fun c => h.landDue c _ _), Row.modBank_congr _ _ _ (fun b =>
    { (b.writeRecord t' b.pc (b.pc + 1) b.cycle).enterHandler b.pc (b.pc + 1) with
        cycle := b.cycle + 1, since := b.since + 1, matTime := b.matTime + 1 }) (by rfl)]

/-- A syllable the bank has no right to hold traps at decode. -/
theorem Calm.unpermitted (h : Calm s) (ht : s.traps = true) (hp : y.permitted s.here = false) (i : Instr) :
    Machine.presentOne s y i = s.trapped (privTrap ⟨y, (encodeSyl true i).getD 0⟩) := by
  have h1 : s.presents s.cur (s.row s.cur).holder = true := h.presents
  have h2 : y.permitted (s.bank s.cur (s.row s.cur).holder) = false := hp
  rw [← h.trapBundle ht _ false (by simp)]
  simp only [Machine.presentOne, h1, h2, Bool.not_true, Bool.false_eq_true, if_false]
  rfl

/-- What exec does with a syllable whose description's conditions end in a trap, in a bank that enters its handler: the trap is taken. -/
theorem Calm.trapping (h : Calm s) (ht : s.traps = true) (hp : y.permitted s.here = true) (i : Instr)
    (hi : y.interval.isSome = true → s.here.mmaFree ≤ s.here.cycle) (hpop : s.popsReady y.d y.a y.b = true) (t : TrapInfo)
    (hc : y.check (s.lone y) = .trap t) (hg : y.isGuarded = true → s.here.info.skew = 0) :
    Machine.presentOne s y i = s.trapped (t.at ⟨y, (encodeSyl true i).getD 0⟩) := by
  set w := (encodeSyl true i).getD 0 with hw
  have hpart : partVerdict (s.lone y) (0, 0) y false = .trap t := by
    simp only [partVerdict, Verdict.seq, checkPops_ready hpop, hc]
  have h1 : s.presents s.cur (s.row s.cur).holder = true := h.presents
  have h2 : y.permitted (s.bank s.cur (s.row s.cur).holder) = true := hp
  have hplan : s.plan s.cur s.side [⟨y, w⟩] (s.here.pc + 1) = .trap (t.at ⟨y, w⟩) := by
    simp only [h.plan_verdicts, h.verdicts w hi _ hpart, firstTrap]
  have hpres : Machine.presentOne s y i = s.trapBundle s.cur s.side (t.at ⟨y, w⟩) (s.here.pc + 1) y.isGuarded := by
    simp only [State.side, State.here] at hplan
    simp only [Machine.presentOne, h1, h2, Bool.not_true, Bool.false_eq_true, if_false, if_true, State.present, ← hw, hplan,
      State.carryOut, List.any_cons, List.any_nil, Bool.or_false]
    rfl
  rw [hpres, h.trapBundle ht _ _ hg]

end

/-! ## Congruence and guards -/

theorem Core.mod_congr (c : Core) (x : Side) (f g : CoreBank → CoreBank) (h : f (c.of x) = g (c.of x)) : c.mod x f = c.mod x g := by
  cases x <;> simp_all [Core.mod, Core.of]

/-- What a bundle makes of the cores matters only at the parts they hold. -/
theorem State.issued_congr (s : State) (g : Bool) (f f' : Fin 64 → CoreBank → CoreBank)
    (h : ∀ c, f c (s.partHere c) = f' c (s.partHere c)) : s.issued g f = s.issued g f' := by
  apply State.modRow_congr
  have : (s.row s.cur).mapBanks s.side f = (s.row s.cur).mapBanks s.side f' := by
    unfold Row.mapBanks Row.mapCores
    rw [tab_congr _ _ fun c => Core.mod_congr _ _ _ _ (h c)]
  rw [this]

/-- A syllable that is not guarded by its kind is guarded when it pops. -/
theorem Syl.isGuarded_pops (y : Syl) (h : y.guarded = false) : y.isGuarded = Machine.pops y.d y.a y.b := by
  simp only [Syl.isGuarded, h, Bool.false_or, Syl.popsAny, Machine.pops, popCount]
  generalize y.d.pops = a; generalize y.a.pops = b; generalize y.b.pops = c
  rcases a with ⟨a1, a2⟩; rcases b with ⟨b1, b2⟩; rcases c with ⟨c1, c2⟩
  rw [Bool.eq_iff_iff]
  simp
  omega

end Sys2Proof.Machine
end

