-- ==== Sys2Proof/Laws/Memory.lean ====
section
/-! SUPPORT. Tables by address and memory: what reading after writing gives, and that every memory operation keeps the canonical form. -/

namespace Sys2Proof.Machine

/-! ## Tables -/

variable {α : Type}

@[simp] theorem Sparse.find_nil (k : Nat) : Sparse.find ([] : Sparse α) k = none := rfl

theorem Sparse.find_put (m : Sparse α) (k : Nat) (x : α) (j : Nat) :
    Sparse.find (Sparse.put m k x) j = if j = k then some x else Sparse.find m j := by
  induction m with
  | nil => simp [Sparse.put, Sparse.find, eq_comm]
  | cons e m ih =>
    obtain ⟨a, y⟩ := e
    simp only [Sparse.put]
    split_ifs with h1 h2 h3 h3 h4 <;> simp only [Sparse.find, ih] <;> split_ifs <;> first | rfl | omega

/-- Above a bound every listed address is greater. -/
theorem Sparse.find_of_rises (m : Sparse α) (lo j : Nat) (h : Sparse.risesFrom m (some lo) = true) (hj : j ≤ lo) : Sparse.find m j = none := by
  induction m generalizing lo with
  | nil => rfl
  | cons e m ih =>
    obtain ⟨a, y⟩ := e
    simp only [Sparse.risesFrom, Option.all_some, Bool.and_eq_true, decide_eq_true_eq] at h
    simp only [Sparse.find, if_neg (by omega : ¬a = j)]
    exact ih a h.2 (by omega)

theorem Sparse.rises_mono (m : Sparse α) (lo lo' : Nat) (h : Sparse.risesFrom m (some lo') = true) (hl : lo ≤ lo') :
    Sparse.risesFrom m (some lo) = true := by
  cases m with
  | nil => rfl
  | cons e m =>
    obtain ⟨a, y⟩ := e
    simp only [Sparse.risesFrom, Option.all_some, Bool.and_eq_true, decide_eq_true_eq] at h ⊢
    exact ⟨by omega, h.2⟩

theorem Sparse.rises_put (m : Sparse α) (lo : Option Nat) (k : Nat) (x : α) (h : Sparse.risesFrom m lo = true)
    (hk : lo.all (· < k) = true) : Sparse.risesFrom (Sparse.put m k x) lo = true := by
  induction m generalizing lo with
  | nil => simpa [Sparse.put, Sparse.risesFrom] using hk
  | cons e m ih =>
    obtain ⟨a, y⟩ := e
    simp only [Sparse.risesFrom, Bool.and_eq_true] at h
    simp only [Sparse.put]
    split_ifs with h1 h2
    · simp only [Sparse.risesFrom, Bool.and_eq_true]
      exact ⟨h.1, ih (some a) h.2 (by simpa using h1)⟩
    · subst h2; simpa only [Sparse.risesFrom, Bool.and_eq_true] using h
    · simp only [Sparse.risesFrom, Bool.and_eq_true, Option.all_some, decide_eq_true_eq]
      exact ⟨hk, by omega, h.2⟩

theorem Sparse.rises_del (m : Sparse α) (lo : Option Nat) (k : Nat) (h : Sparse.risesFrom m lo = true) :
    Sparse.risesFrom (Sparse.del m k) lo = true := by
  induction m generalizing lo with
  | nil => rfl
  | cons e m ih =>
    obtain ⟨a, y⟩ := e
    simp only [Sparse.risesFrom, Bool.and_eq_true] at h
    simp only [Sparse.del]
    split_ifs with h1
    · cases lo with
      | none => cases m with
        | nil => rfl
        | cons e m =>
          obtain ⟨b, z⟩ := e
          simp only [Sparse.risesFrom, Bool.and_eq_true, Option.all_none, true_and] at h ⊢
          exact h.2
      | some l => exact Sparse.rises_mono m l a h.2 (by simpa using le_of_lt (by simpa using h.1))
    · simp only [Sparse.risesFrom, Bool.and_eq_true]
      exact ⟨h.1, ih (some a) h.2⟩

theorem Sparse.find_del (m : Sparse α) (lo : Option Nat) (k j : Nat) (h : Sparse.risesFrom m lo = true) :
    Sparse.find (Sparse.del m k) j = if j = k then none else Sparse.find m j := by
  induction m generalizing lo with
  | nil => simp [Sparse.del]
  | cons e m ih =>
    obtain ⟨a, y⟩ := e
    simp only [Sparse.risesFrom, Bool.and_eq_true] at h
    simp only [Sparse.del]
    split_ifs with h1 h2 h2
    · subst h2; exact Sparse.find_of_rises m a j (by simpa [h1] using h.2) (by omega)
    · simp only [Sparse.find, if_neg (by omega : ¬a = j)]
    · subst h2; simp [Sparse.find, ih (some a) h.2, h1]
    · simp [Sparse.find, ih (some a) h.2, h2]

theorem Sparse.all_put (m : Sparse α) (p : Nat × α → Bool) (k : Nat) (x : α) (h : m.all p = true) (hx : p (k, x) = true) :
    (Sparse.put m k x).all p = true := by
  induction m with
  | nil => simpa [Sparse.put] using hx
  | cons e m ih =>
    obtain ⟨a, y⟩ := e
    simp only [List.all_cons, Bool.and_eq_true] at h
    simp only [Sparse.put]
    split_ifs <;> simp [hx, h.1, h.2, ih h.2]

theorem Sparse.all_del (m : Sparse α) (p : Nat × α → Bool) (k : Nat) (h : m.all p = true) : (Sparse.del m k).all p = true := by
  induction m with
  | nil => rfl
  | cons e m ih =>
    obtain ⟨a, y⟩ := e
    simp only [List.all_cons, Bool.and_eq_true] at h
    simp only [Sparse.del]
    split_ifs <;> simp [h.1, h.2, ih h.2]

theorem Sparse.rises_filter (m : Sparse α) (p : Nat × α → Bool) (lo : Option Nat) (h : Sparse.risesFrom m lo = true) :
    Sparse.risesFrom (m.filter p) lo = true := by
  induction m generalizing lo with
  | nil => rfl
  | cons e m ih =>
    obtain ⟨a, y⟩ := e
    simp only [Sparse.risesFrom, Bool.and_eq_true] at h
    by_cases hp : p (a, y) = true
    · simp only [List.filter_cons_of_pos hp, Sparse.risesFrom, Bool.and_eq_true]
      exact ⟨h.1, ih (some a) h.2⟩
    · simp only [List.filter_cons_of_neg hp]
      cases lo with
      | none =>
        have := ih (some a) h.2
        revert this
        cases m.filter p with
        | nil => exact fun _ => rfl
        | cons e m => simp [Sparse.risesFrom]
      | some l => exact ih (some l) (Sparse.rises_mono m l a h.2 (by have := h.1; simp at this; omega))

/-! ## Memory -/

theorem Memory.wf_iff (m : Sparse Byte) : Memory.wf m = true ↔ Sparse.risesFrom m none = true ∧ m.all (fun e => e.2 != 0) = true := by
  simp only [Memory.wf, Bool.and_eq_true]

theorem Memory.wf_put (m : Sparse Byte) (a : Nat) (b : Byte) (h : Memory.wf m = true) : Memory.wf (Memory.put m a b) = true := by
  rw [Memory.wf_iff] at h ⊢
  simp only [Memory.put, Sparse.set]
  split_ifs with hb
  · exact ⟨Sparse.rises_del m none a h.1, Sparse.all_del m _ a h.2⟩
  · exact ⟨Sparse.rises_put m none a b h.1 rfl, Sparse.all_put m _ a b h.2 (by simpa using hb)⟩

theorem Memory.wf_write (m : Sparse Byte) (a : Nat) (bs : List Byte) (h : Memory.wf m = true) : Memory.wf (Memory.write m a bs) = true := by
  induction bs generalizing m a with
  | nil => exact h
  | cons b bs ih => exact ih _ _ (Memory.wf_put m a b h)

theorem Memory.wf_filter (m : Sparse Byte) (p : Nat × Byte → Bool) (h : Memory.wf m = true) : Memory.wf (m.filter p) = true := by
  rw [Memory.wf_iff] at h ⊢
  refine ⟨Sparse.rises_filter m p none h.1, ?_⟩
  simp only [List.all_filter, List.all_eq_true] at h ⊢
  intro e he
  have := h.2 e he
  simp_all

/-- A byte just written reads back; every other byte reads as before. -/
theorem Memory.byte_put (m : Sparse Byte) (a : Nat) (b : Byte) (j : Nat) (h : Memory.wf m = true) :
    Memory.byte (Memory.put m a b) j = if j = a then b else Memory.byte m j := by
  have h1 := ((Memory.wf_iff m).1 h).1
  simp only [Memory.byte, Sparse.get, Memory.put, Sparse.set]
  split_ifs with hb hj hj
  · rw [Sparse.find_del m none a j h1, if_pos hj, hb]; rfl
  · simp [Sparse.find_del m none a j h1, hj]
  · simp [Sparse.find_put, hj]
  · simp [Sparse.find_put, hj]

/-- A byte outside the written ones reads as before. -/
theorem Memory.byte_write_other (m : Sparse Byte) (a : Nat) (bs : List Byte) (j : Nat) (h : Memory.wf m = true)
    (hj : j < a ∨ a + bs.length ≤ j) : Memory.byte (Memory.write m a bs) j = Memory.byte m j := by
  induction bs generalizing m a with
  | nil => rfl
  | cons b bs ih =>
    simp only [List.length_cons] at hj
    rw [Memory.write, ih _ _ (Memory.wf_put m a b h) (by omega), Memory.byte_put m a b j h, if_neg (by omega)]

/-- Written bytes read back. -/
theorem Memory.byte_write_same (m : Sparse Byte) (a : Nat) (bs : List Byte) (i : Nat) (h : Memory.wf m = true) (hi : i < bs.length) :
    Memory.byte (Memory.write m a bs) (a + i) = bs[i] := by
  induction bs generalizing m a i with
  | nil => simp at hi
  | cons b bs ih =>
    cases i with
    | zero =>
      rw [Memory.write, Memory.byte_write_other _ _ _ _ (Memory.wf_put m a b h) (by omega), Memory.byte_put m a b _ h]
      simp
    | succ i =>
      have := ih (Memory.put m a b) (a + 1) i (Memory.wf_put m a b h) (by simpa using hi)
      simpa [Memory.write, Nat.add_assoc, Nat.add_comm 1 i] using this

/-! ## The panel's memory -/

theorem State.wf_keyWrite (s : State) (key : Nat) (bs : List Byte) (h : Memory.wf s.mem = true) : Memory.wf (s.keyWrite key bs).mem = true :=
  Memory.wf_write _ _ _ h
theorem State.wf_keyWriteLine (s : State) (key : Nat) (bs : List Byte) (c p : Bool) (h : Memory.wf s.mem = true) :
    Memory.wf (s.keyWriteLine key bs c p).mem = true := Memory.wf_write _ _ _ h
theorem State.wf_openLine (s : State) (v : Option View) (l : Nat) (h : Memory.wf s.mem = true) : Memory.wf (s.openLine v l).mem = true := by
  unfold State.openLine
  cases Sparse.find s.sealed l with
  | none => exact h
  | some e =>
    dsimp only
    cases v == some e.view with
    | true => exact h
    | false => exact Memory.wf_write _ _ _ h
theorem State.wf_openLines (s : State) (v : Option View) (key n : Nat) (h : Memory.wf s.mem = true) :
    Memory.wf (s.openLines v key n).mem = true := by
  unfold State.openLines
  generalize linesOf key n = l
  induction l generalizing s with
  | nil => exact h
  | cons x l ih => exact ih _ (s.wf_openLine v x h)
theorem State.wf_rawWrite (s : State) (key : Nat) (bs : List Byte) (h : Memory.wf s.mem = true) : Memory.wf (s.rawWrite key bs).mem = true :=
  State.wf_keyWrite _ _ _ (s.wf_openLines _ _ _ h)
theorem State.wf_physWrite (s : State) (a : Nat) (bs : List Byte) (h : Memory.wf s.mem = true) : Memory.wf (s.physWrite a bs).mem = true :=
  s.wf_rawWrite _ _ h
theorem State.wf_physWriteWord (s : State) (a : Nat) (w : Word) (h : Memory.wf s.mem = true) : Memory.wf (s.physWriteWord a w).mem = true :=
  s.wf_rawWrite _ _ h
theorem State.wf_wipe (s : State) (h : Memory.wf s.mem = true) : Memory.wf s.wipe.mem = true := by
  refine Memory.wf_filter _ _ ?_
  change Memory.wf (List.foldl _ s _).mem = true
  generalize List.filter _ s.sealed = l
  induction l generalizing s with
  | nil => exact h
  | cons x l ih => exact ih _ (s.wf_openLine none x.1 h)

/-! ## Frames in use: keeping them changes no byte of memory and no row -/

@[simp] theorem State.setFramesAt_mem (s : State) (k : Nat) (f : List FrameUse → List FrameUse) : (s.setFramesAt k f).mem = s.mem := by
  unfold State.setFramesAt
  cases rangeOf (k * 65536) <;> rfl
@[simp] theorem State.setFramesAt_rows (s : State) (k : Nat) (f : List FrameUse → List FrameUse) : (s.setFramesAt k f).rows = s.rows := by
  unfold State.setFramesAt
  cases rangeOf (k * 65536) <;> rfl
@[simp] theorem State.touchFrame_mem (s : State) (k : Nat) (new : FrameUse) (f : FrameUse → FrameUse) :
    (s.touchFrame k new f).mem = s.mem := s.setFramesAt_mem k _
@[simp] theorem State.touchFrame_rows (s : State) (k : Nat) (new : FrameUse) (f : FrameUse → FrameUse) :
    (s.touchFrame k new f).rows = s.rows := s.setFramesAt_rows k _
theorem State.placeNamed_keeps {α : Type} (g : State → α) (hg : ∀ s k f, g (State.setFramesAt s k f) = g s) (s : State) (a : Nat) (e : Word) :
    g (s.placeNamed a e) = g s := by
  unfold State.placeNamed
  generalize (teState e = 1 && tePanel e = s.panelId.toNat && !frameControl (teFrame e)) = b
  cases b
  · rfl
  · simp only [if_true]
    exact hg _ _ _
@[simp] theorem State.placeFrame_mem (s : State) (a : Nat) : (s.placeFrame a).mem = s.mem :=
  State.placeNamed_keeps State.mem (fun s k f => s.setFramesAt_mem k f) s a _
@[simp] theorem State.placeFrame_rows (s : State) (a : Nat) : (s.placeFrame a).rows = s.rows :=
  State.placeNamed_keeps State.rows (fun s k f => s.setFramesAt_rows k f) s a _
theorem State.renameFrame_keeps {α : Type} (g : State → α) (hg : ∀ s k f, g (State.setFramesAt s k f) = g s) (s : State) (u : FrameUse) (e : Word) :
    g (s.renameFrame u e) = g s := by
  unfold State.renameFrame
  cases s.names e u.frame
  · exact hg _ _ _
  · rfl

theorem State.noteFrame_mem (s : State) (u : FrameUse) : (s.noteFrame u).mem = s.mem := by
  rw [State.noteFrame, State.placeFrame_mem]
  exact State.renameFrame_keeps State.mem (fun s k f => s.setFramesAt_mem k f) s u _
theorem State.noteFrame_rows (s : State) (u : FrameUse) : (s.noteFrame u).rows = s.rows := by
  rw [State.noteFrame, State.placeFrame_rows]
  exact State.renameFrame_keeps State.rows (fun s k f => s.setFramesAt_rows k f) s u _

/-- A fold whose steps each keep a part of the state keeps it. -/
theorem foldl_keeps {α β : Type} (g : State → β) (f : State → α → State) (h : ∀ s x, g (f s x) = g s) (l : List α) (s : State) :
    g (l.foldl f s) = g s := by
  induction l generalizing s with
  | nil => rfl
  | cons x l ih => rw [List.foldl_cons, ih, h]

@[simp] theorem State.noteTables_mem (s : State) (key n : Nat) : (s.noteTables key n).mem = s.mem := by
  unfold State.noteTables
  exact foldl_keeps State.mem _ State.noteFrame_mem _ s
@[simp] theorem State.noteTables_rows (s : State) (key n : Nat) : (s.noteTables key n).rows = s.rows := by
  unfold State.noteTables
  exact foldl_keeps State.rows _ State.noteFrame_rows _ s

/-- A software write that meets moves under way keeps the form. -/
theorem State.wf_holdMoves (s before : State) (key n : Nat) (h : Memory.wf s.mem = true) : Memory.wf (s.holdMoves before key n).mem = true := by
  rw [State.holdMoves, State.noteTables_mem]
  generalize s.moves = l
  induction l generalizing s with
  | nil => exact h
  | cons m l ih =>
    rw [List.foldl_cons]
    refine ih _ ?_
    dsimp only
    generalize List.isEmpty _ = b
    cases b
    · exact Memory.wf_write _ _ _ h
    · exact h

theorem Core.wf_lsWrite (c : Core) (a : Nat) (bs : List Byte) (h : Memory.wf c.ls = true) : Memory.wf (c.lsWrite a bs).ls = true :=
  Memory.wf_write _ _ _ h
theorem Core.wf_lsWriteLine (c : Core) (a : Nat) (bs : List Byte) (x y : Bool) (h : Memory.wf c.ls = true) :
    Memory.wf (c.lsWriteLine a bs x y).ls = true := Memory.wf_write _ _ _ h

/-- The memory of the panel after reset has the form. -/
theorem State.wf_reset : Memory.wf State.reset.mem = true := rfl

end Sys2Proof.Machine
end

