-- ==== Sys2Proof/Laws/PerInstr.lean ====
section
/-! SUPPORT. Decoding undoes encoding, one lemma a constructor: the family RoundTrip. -/

set_option Elab.async false

namespace Sys2Proof.Laws

/-! ## The decoder's field rules -/

theorem zero_ok {α : Type} {e : DecErr} {n : Nat} {k : Except DecErr α} (h : n = 0) : zero e n k = k := by simp [zero, h]
theorem fin_ok {α : Type} {m : Nat} {e : DecErr} {n : Nat} {k : Fin m → Except DecErr α} (d : Fin m) (h : n = d.val) :
    fin m e n k = k d := by
  subst h; simp [fin]
theorem bits_ok {α : Type} {w n : Nat} {k : BitVec w → Except DecErr α} (d : BitVec w) (h : n = d.toNat) : bits w n k = k d := by
  subst h; simp [bits]
theorem flag_ok {α : Type} {n : Nat} {k : Bool → Except DecErr α} (d : Bool) (h : n = d.toNat) : flag n k = k d := by
  subst h; cases d <;> rfl
theorem code_ok {α β : Type} {e : DecErr} {o : Option β} {k : β → Except DecErr α} (d : β) (h : o = some d) : code e o k = k d := by
  subst h; rfl
theorem need_ok {α : Type} {e : DecErr} {b : Bool} {k : Except DecErr α} (h : b = true) : need e b k = k := by simp [need, h]

/-! ## Codes and their names -/

theorem widthOf_code (c : Width) : widthOf (widthCode c) = some c := by cases c <;> rfl
theorem widthCode_lt (c : Width) : widthCode c < 3 := by cases c <;> decide
theorem eTypeOf_code (c : EType) : eTypeOf (eTypeCode c) = some c := by cases c <;> rfl
theorem eTypeCode_lt (c : EType) : eTypeCode c < 4 := by cases c <;> decide
theorem fTypeOf_code (c : FType) : fTypeOf (fTypeCode c) = some c := by cases c <;> rfl
theorem fTypeCode_lt (c : FType) : fTypeCode c < 2 := by cases c <;> decide
theorem extOf_code (c : ExtW) : extOf (extCode c) = some c := by cases c <;> rfl
theorem extCode_lt (c : ExtW) : extCode c < 3 := by cases c <;> decide
theorem chkOf_code (c : ChkOp) : chkOf (chkCode c) = some c := by cases c <;> rfl
theorem chkCode_lt (c : ChkOp) : chkCode c < 3 := by cases c <;> decide
theorem vCondOf_code (c : VCond) : vCondOf (vCondCode c) = some c := by cases c <;> rfl
theorem vCondCode_lt (c : VCond) : vCondCode c < 6 := by cases c <;> decide
theorem fCondOf_code (c : FCond) : fCondOf (fCondCode c) = some c := by cases c <;> rfl
theorem fCondCode_lt (c : FCond) : fCondCode c < 5 := by cases c <;> decide
theorem voteOf_code (c : VoteOp) : voteOf (voteCode c) = some c := by cases c <;> rfl
theorem voteCode_lt (c : VoteOp) : voteCode c < 4 := by cases c <;> decide
theorem rModeOf_code (c : RMode) : rModeOf (rModeCode c) = some c := by cases c <;> rfl
theorem rModeCode_lt (c : RMode) : rModeCode c < 4 := by cases c <;> decide
theorem aTypeOf_code (c : AType) : aTypeOf (aTypeCode c) = some c := by cases c <;> rfl
theorem aTypeCode_lt (c : AType) : aTypeCode c < 3 := by cases c <;> decide
theorem tTypeOf_code (c : TType) : tTypeOf (tTypeCode c) = some c := by cases c <;> rfl
theorem tTypeCode_lt (c : TType) : tTypeCode c < 3 := by cases c <;> decide
theorem scopeKOf_code (c : Scope) : scopeKOf (scopeKCode c) = some c := by cases c <;> rfl
theorem scopeKCode_lt (c : Scope) : scopeKCode c < 9 := by cases c <;> decide
theorem scopeQOf_code (c : Scope) (h : c ≠ .lane) : scopeQOf (scopeQCode c) = some c := by
  cases c <;> first | rfl | exact absurd rfl h
theorem scopeQCode_lt (c : Scope) : scopeQCode c < 8 := by cases c <;> decide
theorem redOpOf_code (o : RedOp) : redOpOf (redOpB o) (redOpM o) = some o := by
  rcases o with t | t | t | t | t | t <;> cases t <;> rfl
theorem redOpB_lt (o : RedOp) : redOpB o < 8 := by cases o <;> simp [redOpB]
theorem redOpM_lt (o : RedOp) : redOpM o < 4 := by rcases o with t | t | t | t | t | t <;> cases t <;> decide
theorem cregCode_lt (c : CReg) : cregCode c < 4096 := by
  rcases c <;> simp only [cregCode] <;> omega
theorem cregOf_code (c : CReg) : cregOf (cregCode c) = some c := by
  rcases c <;> first | rfl | (rename_i n; fin_cases n <;> rfl)
theorem stepFieldsCode_lt (e : StepFields) : stepFieldsCode e < 4194304 := by
  have h1 := e.active.toNat_lt; have h2 := e.offset.isLt; have h3 := e.unit.isLt; have h4 := e.step.isLt; have h5 := e.mod.isLt
  have h6 : stepFieldCode e.field < 5 := by cases e.field <;> decide
  simp only [stepFieldsCode]; omega
theorem stepFieldsOf_code (e : StepFields) : stepFieldsOf (stepFieldsCode e) = some e := by
  obtain ⟨v, o, u, f, t, m⟩ := e
  have h1 := v.toNat_lt; have h2 := o.isLt; have h3 := u.isLt; have h4 := t.isLt; have h5 := m.isLt
  have h6 : stepFieldCode f < 5 := by cases f <;> decide
  have hf : stepFieldOf (stepFieldCode f) = some f := by cases f <;> rfl
  simp only [stepFieldsOf, stepFieldsCode]
  rw [show (v.toNat * 2097152 + o.val * 32768 + u.val * 4096 + stepFieldCode f * 512 + t.toNat * 32 + m.val) / 512 % 8 = stepFieldCode f by omega, hf]
  simp only [Option.map_some, Option.some.injEq, StepFields.mk.injEq, true_and]
  refine ⟨?_, ?_, ?_, ?_, ?_⟩
  · rw [show (v.toNat * 2097152 + o.val * 32768 + u.val * 4096 + stepFieldCode f * 512 + t.toNat * 32 + m.val) / 2097152 % 2 = v.toNat by omega]
    cases v <;> rfl
  · exact Fin.ext (by simp only; omega)
  · exact Fin.ext (by simp only; omega)
  · apply BitVec.eq_of_toNat_eq; simp only [BitVec.toNat_ofNat]; omega
  · exact Fin.ext (by simp only; omega)

/-! ## Words -/

theorem pack_parts (e : Bool) (u op x : Nat) (hu : u < 8) (ho : op < 64) (hx : x < 4194304) :
    decodeSyl (packSyl e u op x) = decodeParts u op x ∧ sylE (packSyl e u op x) = e := by
  have he := e.toNat_lt
  have hn : (packSyl e u op x).toNat = e.toNat * 2147483648 + u * 268435456 + op * 4194304 + x := by
    simp only [packSyl, BitVec.toNat_ofNat]; omega
  refine ⟨?_, ?_⟩
  · simp only [decodeSyl, sylUnit, sylOp, sylBits, hn]
    congr 1 <;> omega
  · simp only [sylE, hn]
    cases e <;> simp <;> omega

/-- A well-formed instruction's word, with either E bit, decodes to it and keeps the E bit. -/
def RoundTrip.Statement (i : Instr) : Prop :=
  i.wellFormed = true → ∀ e w, encodeSyl e i = some w → decodeSyl w = .ok i ∧ sylE w = e

theorem of_parts {i : Instr} {u op x : Nat} (h : encodeParts i = some (u, op, x)) (hu : u < 8) (ho : op < 64) (hx : x < 4194304)
    (hd : decodeParts u op x = .ok i) : ∀ e w, encodeSyl e i = some w → decodeSyl w = .ok i ∧ sylE w = e := by
  intro e w hw
  simp only [encodeSyl, h, Option.map_some, Option.some.injEq] at hw
  subst hw
  have := pack_parts e u op x hu ho hx
  exact ⟨this.1.trans hd, this.2⟩
theorem of_S {i : Instr} {u : Twin} {op x : Nat} (h : encodeParts i = some (twinS u, op, x)) (ho : op < 64) (hx : x < 4194304)
    (hd : decodeS u op x = .ok i) : ∀ e w, encodeSyl e i = some w → decodeSyl w = .ok i ∧ sylE w = e :=
  of_parts h (by cases u <;> decide) ho hx (by cases u <;> simpa only [decodeParts, twinS] using hd)
theorem of_V {i : Instr} {u : Twin} {op x : Nat} (h : encodeParts i = some (twinV u, op, x)) (ho : op < 64) (hx : x < 4194304)
    (hd : decodeV u op x = .ok i) : ∀ e w, encodeSyl e i = some w → decodeSyl w = .ok i ∧ sylE w = e :=
  of_parts h (by cases u <;> decide) ho hx (by cases u <;> simpa only [decodeParts, twinV] using hd)
theorem of_AG {i : Instr} {op x : Nat} (h : encodeParts i = some (2, op, x)) (ho : op < 64) (hx : x < 4194304)
    (hd : decodeAG op x = .ok i) : ∀ e w, encodeSyl e i = some w → decodeSyl w = .ok i ∧ sylE w = e :=
  of_parts h (by decide) ho hx (by simpa only [decodeParts] using hd)
theorem of_MX {i : Instr} {op x : Nat} (h : encodeParts i = some (5, op, x)) (ho : op < 64) (hx : x < 4194304)
    (hd : decodeMX op x = .ok i) : ∀ e w, encodeSyl e i = some w → decodeSyl w = .ok i ∧ sylE w = e :=
  of_parts h (by decide) ho hx (by simpa only [decodeParts] using hd)
theorem of_CX {i : Instr} {op x : Nat} (h : encodeParts i = some (6, op, x)) (ho : op < 64) (hx : x < 4194304)
    (hd : decodeCX op x = .ok i) : ∀ e w, encodeSyl e i = some w → decodeSyl w = .ok i ∧ sylE w = e :=
  of_parts h (by decide) ho hx (by simpa only [decodeParts] using hd)
theorem of_KC {i : Instr} {op x : Nat} (h : encodeParts i = some (7, op, x)) (ho : op < 64) (hx : x < 4194304)
    (hd : decodeKC op x = .ok i) : ∀ e w, encodeSyl e i = some w → decodeSyl w = .ok i ∧ sylE w = e :=
  of_parts h (by decide) ho hx (by simpa only [decodeParts] using hd)

/-! ## Fields of operand bits, a shape each -/

theorem fields_0 (y0 y1 y2 y3 : Nat) (h0 : y0 < 31) (h1 : y1 < 32) (h2 : y2 < 32) (h3 : y3 < 8) :
    (y0 * 131072 + y1 * 4096 + y2 * 128 + y3 * 16) % 16 = 0 ∧ (y0 * 131072 + y1 * 4096 + y2 * 128 + y3 * 16) / 131072 % 32 = y0 ∧ (y0 * 131072 + y1 * 4096 + y2 * 128 + y3 * 16) / 4096 % 32 = y1 ∧ (y0 * 131072 + y1 * 4096 + y2 * 128 + y3 * 16) / 128 % 32 = y2 ∧ (y0 * 131072 + y1 * 4096 + y2 * 128 + y3 * 16) / 16 % 8 = y3 ∧ y0 * 131072 + y1 * 4096 + y2 * 128 + y3 * 16 < 4194304 :=
  ⟨by omega, by omega, by omega, by omega, by omega, by omega⟩
theorem fields_1 (y0 y1 y2 : Nat) (h0 : y0 < 31) (h1 : y1 < 32) (h2 : y2 < 8) :
    (y0 * 131072 + y1 * 4096 + y2 * 16) % 16 = 0 ∧ (y0 * 131072 + y1 * 4096 + y2 * 16) / 128 % 32 = 0 ∧ (y0 * 131072 + y1 * 4096 + y2 * 16) / 131072 % 32 = y0 ∧ (y0 * 131072 + y1 * 4096 + y2 * 16) / 4096 % 32 = y1 ∧ (y0 * 131072 + y1 * 4096 + y2 * 16) / 16 % 8 = y2 ∧ y0 * 131072 + y1 * 4096 + y2 * 16 < 4194304 :=
  ⟨by omega, by omega, by omega, by omega, by omega, by omega⟩
theorem fields_2 (y0 y1 y2 y3 : Nat) (h0 : y0 < 31) (h1 : y1 < 32) (h2 : y2 < 8) (h3 : y3 < 3) :
    (y0 * 131072 + y1 * 4096 + y2 * 16 + y3) / 4 % 4 = 0 ∧ (y0 * 131072 + y1 * 4096 + y2 * 16 + y3) / 128 % 32 = 0 ∧ (y0 * 131072 + y1 * 4096 + y2 * 16 + y3) / 131072 % 32 = y0 ∧ (y0 * 131072 + y1 * 4096 + y2 * 16 + y3) / 4096 % 32 = y1 ∧ (y0 * 131072 + y1 * 4096 + y2 * 16 + y3) / 16 % 8 = y2 ∧ (y0 * 131072 + y1 * 4096 + y2 * 16 + y3) % 4 = y3 ∧ y0 * 131072 + y1 * 4096 + y2 * 16 + y3 < 4194304 :=
  ⟨by omega, by omega, by omega, by omega, by omega, by omega, by omega⟩
theorem fields_3 (y0 y1 : Nat) (h0 : y0 < 31) (h1 : y1 < 4096) :
    (y0 * 131072 + y1) / 4096 % 32 = 0 ∧ (y0 * 131072 + y1) / 131072 % 32 = y0 ∧ (y0 * 131072 + y1) % 4096 = y1 ∧ y0 * 131072 + y1 < 4194304 :=
  ⟨by omega, by omega, by omega, by omega⟩
theorem fields_4 (y0 y1 y2 y3 : Nat) (h0 : y0 < 32) (h1 : y1 < 32) (h2 : y2 < 8) (h3 : y3 < 3) :
    (y0 * 4096 + y1 * 128 + y2 * 16 + y3) / 4 % 4 = 0 ∧ (y0 * 4096 + y1 * 128 + y2 * 16 + y3) / 131072 % 32 = 0 ∧ (y0 * 4096 + y1 * 128 + y2 * 16 + y3) / 4096 % 32 = y0 ∧ (y0 * 4096 + y1 * 128 + y2 * 16 + y3) / 128 % 32 = y1 ∧ (y0 * 4096 + y1 * 128 + y2 * 16 + y3) / 16 % 8 = y2 ∧ (y0 * 4096 + y1 * 128 + y2 * 16 + y3) % 4 = y3 ∧ y0 * 4096 + y1 * 128 + y2 * 16 + y3 < 4194304 :=
  ⟨by omega, by omega, by omega, by omega, by omega, by omega, by omega⟩
theorem fields_5 (y0 y1 y2 : Nat) (h0 : y0 < 31) (h1 : y1 < 32) (h2 : y2 < 4096) :
    (y0 * 131072 + y1 * 4096 + y2) / 131072 % 32 = y0 ∧ (y0 * 131072 + y1 * 4096 + y2) / 4096 % 32 = y1 ∧ (y0 * 131072 + y1 * 4096 + y2) % 4096 = y2 ∧ y0 * 131072 + y1 * 4096 + y2 < 4194304 :=
  ⟨by omega, by omega, by omega, by omega⟩
theorem fields_6 (y0 y1 y2 : Nat) (h0 : y0 < 31) (h1 : y1 < 32) (h2 : y2 < 64) :
    (y0 * 131072 + y1 * 4096 + y2) / 131072 % 32 = y0 ∧ (y0 * 131072 + y1 * 4096 + y2) / 4096 % 32 = y1 ∧ (y0 * 131072 + y1 * 4096 + y2) % 4096 = y2 ∧ y0 * 131072 + y1 * 4096 + y2 < 4194304 :=
  ⟨by omega, by omega, by omega, by omega⟩
theorem fields_7 (y0 y1 : Nat) (h0 : y0 < 31) (h1 : y1 < 131072) :
    (y0 * 131072 + y1) / 131072 % 32 = y0 ∧ (y0 * 131072 + y1) % 131072 = y1 ∧ y0 * 131072 + y1 < 4194304 :=
  ⟨by omega, by omega, by omega⟩
theorem fields_8 (y0 y1 y2 y3 y4 y5 : Nat) (h0 : y0 < 31) (h1 : y1 < 32) (h2 : y2 < 32) (h3 : y3 < 8) (h4 : y4 < 3) (h5 : y5 < 4) :
    (y0 * 131072 + y1 * 4096 + y2 * 128 + y3 * 16 + y4 * 4 + y5) / 131072 % 32 = y0 ∧ (y0 * 131072 + y1 * 4096 + y2 * 128 + y3 * 16 + y4 * 4 + y5) / 4096 % 32 = y1 ∧ (y0 * 131072 + y1 * 4096 + y2 * 128 + y3 * 16 + y4 * 4 + y5) / 128 % 32 = y2 ∧ (y0 * 131072 + y1 * 4096 + y2 * 128 + y3 * 16 + y4 * 4 + y5) / 16 % 8 = y3 ∧ (y0 * 131072 + y1 * 4096 + y2 * 128 + y3 * 16 + y4 * 4 + y5) / 4 % 4 = y4 ∧ (y0 * 131072 + y1 * 4096 + y2 * 128 + y3 * 16 + y4 * 4 + y5) % 4 = y5 ∧ y0 * 131072 + y1 * 4096 + y2 * 128 + y3 * 16 + y4 * 4 + y5 < 4194304 :=
  ⟨by omega, by omega, by omega, by omega, by omega, by omega, by omega⟩
theorem fields_9 (y0 y1 y2 y3 y4 : Nat) (h0 : y0 < 31) (h1 : y1 < 32) (h2 : y2 < 8) (h3 : y3 < 3) (h4 : y4 < 4) :
    (y0 * 131072 + y1 * 4096 + y2 * 16 + y3 * 4 + y4) / 128 % 32 = 0 ∧ (y0 * 131072 + y1 * 4096 + y2 * 16 + y3 * 4 + y4) / 131072 % 32 = y0 ∧ (y0 * 131072 + y1 * 4096 + y2 * 16 + y3 * 4 + y4) / 4096 % 32 = y1 ∧ (y0 * 131072 + y1 * 4096 + y2 * 16 + y3 * 4 + y4) / 16 % 8 = y2 ∧ (y0 * 131072 + y1 * 4096 + y2 * 16 + y3 * 4 + y4) / 4 % 4 = y3 ∧ (y0 * 131072 + y1 * 4096 + y2 * 16 + y3 * 4 + y4) % 4 = y4 ∧ y0 * 131072 + y1 * 4096 + y2 * 16 + y3 * 4 + y4 < 4194304 :=
  ⟨by omega, by omega, by omega, by omega, by omega, by omega, by omega⟩
theorem fields_10 (y0 y1 y2 y3 y4 : Nat) (h0 : y0 < 31) (h1 : y1 < 32) (h2 : y2 < 32) (h3 : y3 < 8) (h4 : y4 < 3) :
    (y0 * 131072 + y1 * 4096 + y2 * 128 + y3 * 16 + y4 * 4) % 4 = 0 ∧ (y0 * 131072 + y1 * 4096 + y2 * 128 + y3 * 16 + y4 * 4) / 131072 % 32 = y0 ∧ (y0 * 131072 + y1 * 4096 + y2 * 128 + y3 * 16 + y4 * 4) / 4096 % 32 = y1 ∧ (y0 * 131072 + y1 * 4096 + y2 * 128 + y3 * 16 + y4 * 4) / 128 % 32 = y2 ∧ (y0 * 131072 + y1 * 4096 + y2 * 128 + y3 * 16 + y4 * 4) / 16 % 8 = y3 ∧ (y0 * 131072 + y1 * 4096 + y2 * 128 + y3 * 16 + y4 * 4) / 4 % 4 = y4 ∧ y0 * 131072 + y1 * 4096 + y2 * 128 + y3 * 16 + y4 * 4 < 4194304 :=
  ⟨by omega, by omega, by omega, by omega, by omega, by omega, by omega⟩
theorem fields_11 (y0 y1 y2 y3 y4 y5 : Nat) (h0 : y0 < 31) (h1 : y1 < 32) (h2 : y2 < 32) (h3 : y3 < 8) (h4 : y4 < 3) (h5 : y5 < 2) :
    (y0 * 131072 + y1 * 4096 + y2 * 128 + y3 * 16 + y4 * 4 + y5) / 131072 % 32 = y0 ∧ (y0 * 131072 + y1 * 4096 + y2 * 128 + y3 * 16 + y4 * 4 + y5) / 4096 % 32 = y1 ∧ (y0 * 131072 + y1 * 4096 + y2 * 128 + y3 * 16 + y4 * 4 + y5) / 128 % 32 = y2 ∧ (y0 * 131072 + y1 * 4096 + y2 * 128 + y3 * 16 + y4 * 4 + y5) / 16 % 8 = y3 ∧ (y0 * 131072 + y1 * 4096 + y2 * 128 + y3 * 16 + y4 * 4 + y5) / 4 % 4 = y4 ∧ (y0 * 131072 + y1 * 4096 + y2 * 128 + y3 * 16 + y4 * 4 + y5) % 4 = y5 ∧ y0 * 131072 + y1 * 4096 + y2 * 128 + y3 * 16 + y4 * 4 + y5 < 4194304 :=
  ⟨by omega, by omega, by omega, by omega, by omega, by omega, by omega⟩
theorem fields_12 (y0 y1 y2 y3 y4 : Nat) (h0 : y0 < 31) (h1 : y1 < 32) (h2 : y2 < 8) (h3 : y3 < 3) (h4 : y4 < 2) :
    (y0 * 131072 + y1 * 4096 + y2 * 16 + y3 * 4 + y4) / 128 % 32 = 0 ∧ (y0 * 131072 + y1 * 4096 + y2 * 16 + y3 * 4 + y4) / 131072 % 32 = y0 ∧ (y0 * 131072 + y1 * 4096 + y2 * 16 + y3 * 4 + y4) / 4096 % 32 = y1 ∧ (y0 * 131072 + y1 * 4096 + y2 * 16 + y3 * 4 + y4) / 16 % 8 = y2 ∧ (y0 * 131072 + y1 * 4096 + y2 * 16 + y3 * 4 + y4) / 4 % 4 = y3 ∧ (y0 * 131072 + y1 * 4096 + y2 * 16 + y3 * 4 + y4) % 4 = y4 ∧ y0 * 131072 + y1 * 4096 + y2 * 16 + y3 * 4 + y4 < 4194304 :=
  ⟨by omega, by omega, by omega, by omega, by omega, by omega, by omega⟩
theorem fields_13 (y0 y1 y2 y3 y4 y5 : Nat) (h0 : y0 < 8) (h1 : y1 < 32) (h2 : y2 < 32) (h3 : y3 < 6) (h4 : y4 < 3) (h5 : y5 < 4) :
    (y0 * 131072 + y1 * 4096 + y2 * 128 + y3 * 16 + y4 * 4 + y5) / 131072 % 32 = y0 ∧ (y0 * 131072 + y1 * 4096 + y2 * 128 + y3 * 16 + y4 * 4 + y5) / 4096 % 32 = y1 ∧ (y0 * 131072 + y1 * 4096 + y2 * 128 + y3 * 16 + y4 * 4 + y5) / 128 % 32 = y2 ∧ (y0 * 131072 + y1 * 4096 + y2 * 128 + y3 * 16 + y4 * 4 + y5) / 16 % 8 = y3 ∧ (y0 * 131072 + y1 * 4096 + y2 * 128 + y3 * 16 + y4 * 4 + y5) / 4 % 4 = y4 ∧ (y0 * 131072 + y1 * 4096 + y2 * 128 + y3 * 16 + y4 * 4 + y5) % 4 = y5 ∧ y0 * 131072 + y1 * 4096 + y2 * 128 + y3 * 16 + y4 * 4 + y5 < 4194304 :=
  ⟨by omega, by omega, by omega, by omega, by omega, by omega, by omega⟩
theorem fields_14 (y0 y1 y2 y3 y4 y5 : Nat) (h0 : y0 < 8) (h1 : y1 < 32) (h2 : y2 < 32) (h3 : y3 < 5) (h4 : y4 < 3) (h5 : y5 < 2) :
    (y0 * 131072 + y1 * 4096 + y2 * 128 + y3 * 16 + y4 * 4 + y5) / 131072 % 32 = y0 ∧ (y0 * 131072 + y1 * 4096 + y2 * 128 + y3 * 16 + y4 * 4 + y5) / 4096 % 32 = y1 ∧ (y0 * 131072 + y1 * 4096 + y2 * 128 + y3 * 16 + y4 * 4 + y5) / 128 % 32 = y2 ∧ (y0 * 131072 + y1 * 4096 + y2 * 128 + y3 * 16 + y4 * 4 + y5) / 16 % 8 = y3 ∧ (y0 * 131072 + y1 * 4096 + y2 * 128 + y3 * 16 + y4 * 4 + y5) / 4 % 4 = y4 ∧ (y0 * 131072 + y1 * 4096 + y2 * 128 + y3 * 16 + y4 * 4 + y5) % 4 = y5 ∧ y0 * 131072 + y1 * 4096 + y2 * 128 + y3 * 16 + y4 * 4 + y5 < 4194304 :=
  ⟨by omega, by omega, by omega, by omega, by omega, by omega, by omega⟩
theorem fields_15 (y0 y1 y2 y3 : Nat) (h0 : y0 < 8) (h1 : y1 < 8) (h2 : y2 < 8) (h3 : y3 < 3) :
    (y0 * 131072 + y1 * 4096 + y2 * 128 + y3 * 4) % 4 = 0 ∧ (y0 * 131072 + y1 * 4096 + y2 * 128 + y3 * 4) / 16 % 8 = 0 ∧ (y0 * 131072 + y1 * 4096 + y2 * 128 + y3 * 4) / 131072 % 32 = y0 ∧ (y0 * 131072 + y1 * 4096 + y2 * 128 + y3 * 4) / 4096 % 32 = y1 ∧ (y0 * 131072 + y1 * 4096 + y2 * 128 + y3 * 4) / 128 % 32 = y2 ∧ (y0 * 131072 + y1 * 4096 + y2 * 128 + y3 * 4) / 4 % 4 = y3 ∧ y0 * 131072 + y1 * 4096 + y2 * 128 + y3 * 4 < 4194304 :=
  ⟨by omega, by omega, by omega, by omega, by omega, by omega, by omega⟩
theorem fields_16 (y0 y1 y2 : Nat) (h0 : y0 < 8) (h1 : y1 < 8) (h2 : y2 < 3) :
    (y0 * 131072 + y1 * 4096 + y2 * 4) % 4 = 0 ∧ (y0 * 131072 + y1 * 4096 + y2 * 4) / 16 % 256 = 0 ∧ (y0 * 131072 + y1 * 4096 + y2 * 4) / 131072 % 32 = y0 ∧ (y0 * 131072 + y1 * 4096 + y2 * 4) / 4096 % 32 = y1 ∧ (y0 * 131072 + y1 * 4096 + y2 * 4) / 4 % 4 = y2 ∧ y0 * 131072 + y1 * 4096 + y2 * 4 < 4194304 :=
  ⟨by omega, by omega, by omega, by omega, by omega, by omega⟩
theorem fields_17 (y0 y1 y2 : Nat) (h0 : y0 < 31) (h1 : y1 < 8) (h2 : y2 < 3) :
    (y0 * 131072 + y1 * 4096 + y2 * 4) % 4 = 0 ∧ (y0 * 131072 + y1 * 4096 + y2 * 4) / 16 % 256 = 0 ∧ (y0 * 131072 + y1 * 4096 + y2 * 4) / 131072 % 32 = y0 ∧ (y0 * 131072 + y1 * 4096 + y2 * 4) / 4096 % 32 = y1 ∧ (y0 * 131072 + y1 * 4096 + y2 * 4) / 4 % 4 = y2 ∧ y0 * 131072 + y1 * 4096 + y2 * 4 < 4194304 :=
  ⟨by omega, by omega, by omega, by omega, by omega, by omega⟩
theorem fields_18 (y0 y1 y2 y3 y4 : Nat) (h0 : y0 < 31) (h1 : y1 < 32) (h2 : y2 < 32) (h3 : y3 < 3) (h4 : y4 < 4) :
    (y0 * 131072 + y1 * 4096 + y2 * 128 + y3 * 4 + y4) / 16 % 8 = 0 ∧ (y0 * 131072 + y1 * 4096 + y2 * 128 + y3 * 4 + y4) / 131072 % 32 = y0 ∧ (y0 * 131072 + y1 * 4096 + y2 * 128 + y3 * 4 + y4) / 4096 % 32 = y1 ∧ (y0 * 131072 + y1 * 4096 + y2 * 128 + y3 * 4 + y4) / 128 % 32 = y2 ∧ (y0 * 131072 + y1 * 4096 + y2 * 128 + y3 * 4 + y4) / 4 % 4 = y3 ∧ (y0 * 131072 + y1 * 4096 + y2 * 128 + y3 * 4 + y4) % 4 = y4 ∧ y0 * 131072 + y1 * 4096 + y2 * 128 + y3 * 4 + y4 < 4194304 :=
  ⟨by omega, by omega, by omega, by omega, by omega, by omega, by omega⟩
theorem fields_19 (y0 y1 y2 y3 y4 y5 : Nat) (h0 : y0 < 31) (h1 : y1 < 32) (h2 : y2 < 8) (h3 : y3 < 4) (h4 : y4 < 8) (h5 : y5 < 3) :
    (y0 * 131072 + y1 * 4096 + y2 * 128 + y3 + y4 * 16 + y5 * 4) / 131072 % 32 = y0 ∧ (y0 * 131072 + y1 * 4096 + y2 * 128 + y3 + y4 * 16 + y5 * 4) / 4096 % 32 = y1 ∧ (y0 * 131072 + y1 * 4096 + y2 * 128 + y3 + y4 * 16 + y5 * 4) / 128 % 32 = y2 ∧ (y0 * 131072 + y1 * 4096 + y2 * 128 + y3 + y4 * 16 + y5 * 4) % 4 = y3 ∧ (y0 * 131072 + y1 * 4096 + y2 * 128 + y3 + y4 * 16 + y5 * 4) / 16 % 8 = y4 ∧ (y0 * 131072 + y1 * 4096 + y2 * 128 + y3 + y4 * 16 + y5 * 4) / 4 % 4 = y5 ∧ y0 * 131072 + y1 * 4096 + y2 * 128 + y3 + y4 * 16 + y5 * 4 < 4194304 :=
  ⟨by omega, by omega, by omega, by omega, by omega, by omega, by omega⟩
theorem fields_20 (y0 y1 y2 y3 : Nat) (h0 : y0 < 31) (h1 : y1 < 32) (h2 : y2 < 8) (h3 : y3 < 3) :
    (y0 * 131072 + y1 * 4096 + y2 * 16 + y3 * 4) % 4 = 0 ∧ (y0 * 131072 + y1 * 4096 + y2 * 16 + y3 * 4) / 128 % 32 = 0 ∧ (y0 * 131072 + y1 * 4096 + y2 * 16 + y3 * 4) / 131072 % 32 = y0 ∧ (y0 * 131072 + y1 * 4096 + y2 * 16 + y3 * 4) / 4096 % 32 = y1 ∧ (y0 * 131072 + y1 * 4096 + y2 * 16 + y3 * 4) / 16 % 8 = y2 ∧ (y0 * 131072 + y1 * 4096 + y2 * 16 + y3 * 4) / 4 % 4 = y3 ∧ y0 * 131072 + y1 * 4096 + y2 * 16 + y3 * 4 < 4194304 :=
  ⟨by omega, by omega, by omega, by omega, by omega, by omega, by omega⟩
theorem fields_21 (y0 y1 y2 y3 y4 : Nat) (h0 : y0 < 32) (h1 : y1 < 32) (h2 : y2 < 8) (h3 : y3 < 3) (h4 : y4 < 3) :
    (y0 * 4096 + y1 * 128 + y2 * 16 + y3 * 4 + y4) / 131072 % 32 = 0 ∧ (y0 * 4096 + y1 * 128 + y2 * 16 + y3 * 4 + y4) / 4096 % 32 = y0 ∧ (y0 * 4096 + y1 * 128 + y2 * 16 + y3 * 4 + y4) / 128 % 32 = y1 ∧ (y0 * 4096 + y1 * 128 + y2 * 16 + y3 * 4 + y4) / 16 % 8 = y2 ∧ (y0 * 4096 + y1 * 128 + y2 * 16 + y3 * 4 + y4) / 4 % 4 = y3 ∧ (y0 * 4096 + y1 * 128 + y2 * 16 + y3 * 4 + y4) % 4 = y4 ∧ y0 * 4096 + y1 * 128 + y2 * 16 + y3 * 4 + y4 < 4194304 :=
  ⟨by omega, by omega, by omega, by omega, by omega, by omega, by omega⟩
theorem fields_22 (y0 y1 y2 : Nat) (h0 : y0 < 32) (h1 : y1 < 32) (h2 : y2 < 4096) :
    (y0 * 131072 + y1 * 4096 + y2) / 131072 % 32 = y0 ∧ (y0 * 131072 + y1 * 4096 + y2) / 4096 % 32 = y1 ∧ (y0 * 131072 + y1 * 4096 + y2) % 4096 = y2 ∧ y0 * 131072 + y1 * 4096 + y2 < 4194304 :=
  ⟨by omega, by omega, by omega, by omega⟩
theorem fields_23 (y0 y1 y2 : Nat) (h0 : y0 < 32) (h1 : y1 < 32) (h2 : y2 < 2) :
    (y0 * 4096 + y1 * 128 + y2) / 16 % 8 = 0 ∧ (y0 * 4096 + y1 * 128 + y2) / 131072 % 32 = 0 ∧ (y0 * 4096 + y1 * 128 + y2) / 4096 % 32 = y0 ∧ (y0 * 4096 + y1 * 128 + y2) / 128 % 32 = y1 ∧ (y0 * 4096 + y1 * 128 + y2) / 2 % 8 = 0 ∧ (y0 * 4096 + y1 * 128 + y2) % 2 = y2 ∧ y0 * 4096 + y1 * 128 + y2 < 4194304 :=
  ⟨by omega, by omega, by omega, by omega, by omega, by omega, by omega⟩
theorem fields_24 (y0 y1 y2 y3 : Nat) (h0 : y0 < 32) (h1 : y1 < 32) (h2 : y2 < 32) (h3 : y3 < 2) :
    (y0 * 131072 + y1 * 4096 + y2 * 128 + y3) / 16 % 8 = 0 ∧ (y0 * 131072 + y1 * 4096 + y2 * 128 + y3) / 131072 % 32 = y0 ∧ (y0 * 131072 + y1 * 4096 + y2 * 128 + y3) / 4096 % 32 = y1 ∧ (y0 * 131072 + y1 * 4096 + y2 * 128 + y3) / 128 % 32 = y2 ∧ (y0 * 131072 + y1 * 4096 + y2 * 128 + y3) / 2 % 8 = 0 ∧ (y0 * 131072 + y1 * 4096 + y2 * 128 + y3) % 2 = y3 ∧ y0 * 131072 + y1 * 4096 + y2 * 128 + y3 < 4194304 :=
  ⟨by omega, by omega, by omega, by omega, by omega, by omega, by omega⟩
theorem fields_25 (y0 y1 y2 : Nat) (h0 : y0 < 32) (h1 : y1 < 2) (h2 : y2 < 2048) :
    (y0 * 4096 + y1 * 2048 + y2) / 131072 % 32 = 0 ∧ (y0 * 4096 + y1 * 2048 + y2) / 4096 % 32 = y0 ∧ (y0 * 4096 + y1 * 2048 + y2) / 2048 % 2 = y1 ∧ (y0 * 4096 + y1 * 2048 + y2) % 2048 = y2 ∧ y0 * 4096 + y1 * 2048 + y2 < 4194304 :=
  ⟨by omega, by omega, by omega, by omega, by omega⟩
theorem fields_26 (y0 y1 y2 y3 : Nat) (h0 : y0 < 32) (h1 : y1 < 32) (h2 : y2 < 2) (h3 : y3 < 2048) :
    (y0 * 131072 + y1 * 4096 + y2 * 2048 + y3) / 131072 % 32 = y0 ∧ (y0 * 131072 + y1 * 4096 + y2 * 2048 + y3) / 4096 % 32 = y1 ∧ (y0 * 131072 + y1 * 4096 + y2 * 2048 + y3) / 2048 % 2 = y2 ∧ (y0 * 131072 + y1 * 4096 + y2 * 2048 + y3) % 2048 = y3 ∧ y0 * 131072 + y1 * 4096 + y2 * 2048 + y3 < 4194304 :=
  ⟨by omega, by omega, by omega, by omega, by omega⟩
theorem fields_27 (y0 y1 y2 : Nat) (h0 : y0 < 32) (h1 : y1 < 32) (h2 : y2 < 8) :
    (y0 * 4096 + y1 * 128 + y2 * 16) % 16 = 0 ∧ (y0 * 4096 + y1 * 128 + y2 * 16) / 131072 % 32 = 0 ∧ (y0 * 4096 + y1 * 128 + y2 * 16) / 4096 % 32 = y0 ∧ (y0 * 4096 + y1 * 128 + y2 * 16) / 128 % 32 = y1 ∧ (y0 * 4096 + y1 * 128 + y2 * 16) / 16 % 8 = y2 ∧ y0 * 4096 + y1 * 128 + y2 * 16 < 4194304 :=
  ⟨by omega, by omega, by omega, by omega, by omega, by omega⟩
theorem fields_28 (y0 y1 : Nat) (h0 : y0 < 32) (h1 : y1 < 8) :
    (y0 * 4096 + y1 * 16) % 4 = 0 ∧ (y0 * 4096 + y1 * 16) % 16 = 0 ∧ (y0 * 4096 + y1 * 16) / 128 % 32 = 0 ∧ (y0 * 4096 + y1 * 16) / 131072 % 32 = 0 ∧ (y0 * 4096 + y1 * 16) / 4096 % 32 = y0 ∧ (y0 * 4096 + y1 * 16) / 16 % 8 = y1 ∧ y0 * 4096 + y1 * 16 < 4194304 :=
  ⟨by omega, by omega, by omega, by omega, by omega, by omega, by omega⟩
theorem fields_29 (y0 : Nat) (h0 : y0 < 8) :
    (y0 * 16 + 1) % 4 = 1 ∧ (y0 * 16 + 1) / 4 % 4 = 0 ∧ (y0 * 16 + 1) / 128 % 32768 = 0 ∧ (y0 * 16 + 1) / 16 % 8 = y0 ∧ y0 * 16 + 1 < 4194304 :=
  ⟨by omega, by omega, by omega, by omega, by omega⟩
theorem fields_30 (y0 y1 y2 y3 y4 : Nat) (h0 : y0 < 32) (h1 : y1 < 32) (h2 : y2 < 8) (h3 : y3 < 2) (h4 : y4 < 3) :
    (y0 * 4096 + y1 * 128 + y2 * 16 + y3 * 4 + y4) / 131072 % 32 = 0 ∧ (y0 * 4096 + y1 * 128 + y2 * 16 + y3 * 4 + y4) / 4096 % 32 = y0 ∧ (y0 * 4096 + y1 * 128 + y2 * 16 + y3 * 4 + y4) / 128 % 32 = y1 ∧ (y0 * 4096 + y1 * 128 + y2 * 16 + y3 * 4 + y4) / 16 % 8 = y2 ∧ (y0 * 4096 + y1 * 128 + y2 * 16 + y3 * 4 + y4) / 8 % 2 = 0 ∧ (y0 * 4096 + y1 * 128 + y2 * 16 + y3 * 4 + y4) / 4 % 2 = y3 ∧ (y0 * 4096 + y1 * 128 + y2 * 16 + y3 * 4 + y4) % 4 = y4 ∧ y0 * 4096 + y1 * 128 + y2 * 16 + y3 * 4 + y4 < 4194304 :=
  ⟨by omega, by omega, by omega, by omega, by omega, by omega, by omega, by omega⟩
theorem fields_31 (y0 y1 y2 y3 y4 y5 : Nat) (h0 : y0 < 32) (h1 : y1 < 32) (h2 : y2 < 32) (h3 : y3 < 8) (h4 : y4 < 2) (h5 : y5 < 3) :
    (y0 * 131072 + y1 * 4096 + y2 * 128 + y3 * 16 + y4 * 4 + y5) / 131072 % 32 = y0 ∧ (y0 * 131072 + y1 * 4096 + y2 * 128 + y3 * 16 + y4 * 4 + y5) / 4096 % 32 = y1 ∧ (y0 * 131072 + y1 * 4096 + y2 * 128 + y3 * 16 + y4 * 4 + y5) / 128 % 32 = y2 ∧ (y0 * 131072 + y1 * 4096 + y2 * 128 + y3 * 16 + y4 * 4 + y5) / 16 % 8 = y3 ∧ (y0 * 131072 + y1 * 4096 + y2 * 128 + y3 * 16 + y4 * 4 + y5) / 8 % 2 = 0 ∧ (y0 * 131072 + y1 * 4096 + y2 * 128 + y3 * 16 + y4 * 4 + y5) / 4 % 2 = y4 ∧ (y0 * 131072 + y1 * 4096 + y2 * 128 + y3 * 16 + y4 * 4 + y5) % 4 = y5 ∧ y0 * 131072 + y1 * 4096 + y2 * 128 + y3 * 16 + y4 * 4 + y5 < 4194304 :=
  ⟨by omega, by omega, by omega, by omega, by omega, by omega, by omega, by omega⟩
theorem fields_32 (y0 y1 y2 y3 : Nat) (h0 : y0 < 32) (h1 : y1 < 32) (h2 : y2 < 8) (h3 : y3 < 2) :
    (y0 * 4096 + y1 * 128 + y2 * 16 + y3) / 4 % 4 = 0 ∧ (y0 * 4096 + y1 * 128 + y2 * 16 + y3) / 131072 % 32 = 0 ∧ (y0 * 4096 + y1 * 128 + y2 * 16 + y3) / 4096 % 32 = y0 ∧ (y0 * 4096 + y1 * 128 + y2 * 16 + y3) / 128 % 32 = y1 ∧ (y0 * 4096 + y1 * 128 + y2 * 16 + y3) / 16 % 8 = y2 ∧ (y0 * 4096 + y1 * 128 + y2 * 16 + y3) / 2 % 2 = 0 ∧ (y0 * 4096 + y1 * 128 + y2 * 16 + y3) % 2 = y3 ∧ y0 * 4096 + y1 * 128 + y2 * 16 + y3 < 4194304 :=
  ⟨by omega, by omega, by omega, by omega, by omega, by omega, by omega, by omega⟩
theorem fields_33 (y0 y1 y2 : Nat) (h0 : y0 < 32) (h1 : y1 < 8) (h2 : y2 < 2) :
    (y0 * 4096 + y1 * 16 + y2) / 4 % 4 = 0 ∧ (y0 * 4096 + y1 * 16 + y2) / 128 % 32 = 0 ∧ (y0 * 4096 + y1 * 16 + y2) / 131072 % 32 = 0 ∧ (y0 * 4096 + y1 * 16 + y2) / 4096 % 32 = y0 ∧ (y0 * 4096 + y1 * 16 + y2) / 16 % 8 = y1 ∧ (y0 * 4096 + y1 * 16 + y2) / 2 % 2 = 0 ∧ (y0 * 4096 + y1 * 16 + y2) % 2 = y2 ∧ y0 * 4096 + y1 * 16 + y2 < 4194304 :=
  ⟨by omega, by omega, by omega, by omega, by omega, by omega, by omega, by omega⟩
theorem fields_34 (y0 y1 y2 : Nat) (h0 : y0 < 32) (h1 : y1 < 32) (h2 : y2 < 11) :
    (y0 * 4096 + y1 * 128 + y2) / 16 % 8 = 0 ∧ (y0 * 4096 + y1 * 128 + y2) / 131072 % 32 = 0 ∧ (y0 * 4096 + y1 * 128 + y2) / 4096 % 32 = y0 ∧ (y0 * 4096 + y1 * 128 + y2) / 128 % 32 = y1 ∧ (y0 * 4096 + y1 * 128 + y2) % 16 = y2 ∧ y0 * 4096 + y1 * 128 + y2 < 4194304 :=
  ⟨by omega, by omega, by omega, by omega, by omega, by omega⟩
theorem fields_35 (y0 y1 y2 y3 : Nat) (h0 : y0 < 32) (h1 : y1 < 32) (h2 : y2 < 2) (h3 : y3 < 11) :
    (y0 * 4096 + y1 * 128 + y2 * 16 + y3) / 131072 % 32 = 0 ∧ (y0 * 4096 + y1 * 128 + y2 * 16 + y3) / 4096 % 32 = y0 ∧ (y0 * 4096 + y1 * 128 + y2 * 16 + y3) / 128 % 32 = y1 ∧ (y0 * 4096 + y1 * 128 + y2 * 16 + y3) / 32 % 4 = 0 ∧ (y0 * 4096 + y1 * 128 + y2 * 16 + y3) / 16 % 2 = y2 ∧ (y0 * 4096 + y1 * 128 + y2 * 16 + y3) % 16 = y3 ∧ y0 * 4096 + y1 * 128 + y2 * 16 + y3 < 4194304 :=
  ⟨by omega, by omega, by omega, by omega, by omega, by omega, by omega⟩
theorem fields_36 (y0 y1 y2 : Nat) (h0 : y0 < 8) (h1 : y1 < 32) (h2 : y2 < 4) :
    (y0 * 131072 + y1 * 4096 + y2 * 128) % 128 = 0 ∧ (y0 * 131072 + y1 * 4096 + y2 * 128) / 131072 % 32 = y0 ∧ (y0 * 131072 + y1 * 4096 + y2 * 128) / 4096 % 32 = y1 ∧ (y0 * 131072 + y1 * 4096 + y2 * 128) / 128 % 32 = y2 ∧ y0 * 131072 + y1 * 4096 + y2 * 128 < 4194304 :=
  ⟨by omega, by omega, by omega, by omega, by omega⟩
theorem fields_37 (y0 y1 y2 y3 y4 : Nat) (h0 : y0 < 8) (h1 : y1 < 8) (h2 : y2 < 8) (h3 : y3 < 2) (h4 : y4 < 2) :
    (y0 * 131072 + y1 * 4096 + y2 * 128 + y3 * 2 + y4) / 4 % 32 = 0 ∧ (y0 * 131072 + y1 * 4096 + y2 * 128 + y3 * 2 + y4) / 131072 % 32 = y0 ∧ (y0 * 131072 + y1 * 4096 + y2 * 128 + y3 * 2 + y4) / 4096 % 32 = y1 ∧ (y0 * 131072 + y1 * 4096 + y2 * 128 + y3 * 2 + y4) / 128 % 32 = y2 ∧ (y0 * 131072 + y1 * 4096 + y2 * 128 + y3 * 2 + y4) / 2 % 2 = y3 ∧ (y0 * 131072 + y1 * 4096 + y2 * 128 + y3 * 2 + y4) % 2 = y4 ∧ y0 * 131072 + y1 * 4096 + y2 * 128 + y3 * 2 + y4 < 4194304 :=
  ⟨by omega, by omega, by omega, by omega, by omega, by omega, by omega⟩
theorem fields_38 (y0 y1 y2 y3 y4 y5 y6 : Nat) (h0 : y0 < 8) (h1 : y1 < 2) (h2 : y2 < 2) (h3 : y3 < 8) (h4 : y4 < 2) (h5 : y5 < 8) (h6 : y6 < 256) :
    (y0 * 131072 + y1 * 65536 + y2 * 32768 + y3 * 4096 + y4 * 2048 + y5 * 256 + y6) / 131072 % 32 = y0 ∧ (y0 * 131072 + y1 * 65536 + y2 * 32768 + y3 * 4096 + y4 * 2048 + y5 * 256 + y6) / 65536 % 2 = y1 ∧ (y0 * 131072 + y1 * 65536 + y2 * 32768 + y3 * 4096 + y4 * 2048 + y5 * 256 + y6) / 32768 % 2 = y2 ∧ (y0 * 131072 + y1 * 65536 + y2 * 32768 + y3 * 4096 + y4 * 2048 + y5 * 256 + y6) / 4096 % 8 = y3 ∧ (y0 * 131072 + y1 * 65536 + y2 * 32768 + y3 * 4096 + y4 * 2048 + y5 * 256 + y6) / 2048 % 2 = y4 ∧ (y0 * 131072 + y1 * 65536 + y2 * 32768 + y3 * 4096 + y4 * 2048 + y5 * 256 + y6) / 256 % 8 = y5 ∧ (y0 * 131072 + y1 * 65536 + y2 * 32768 + y3 * 4096 + y4 * 2048 + y5 * 256 + y6) % 256 = y6 ∧ y0 * 131072 + y1 * 65536 + y2 * 32768 + y3 * 4096 + y4 * 2048 + y5 * 256 + y6 < 4194304 :=
  ⟨by omega, by omega, by omega, by omega, by omega, by omega, by omega, by omega⟩
theorem fields_39 (y0 y1 y2 y3 : Nat) (h0 : y0 < 8) (h1 : y1 < 3) (h2 : y2 < 16) (h3 : y3 < 16) :
    (y0 * 131072 + y1 * 256 + y2 * 16 + y3) / 1024 % 128 = 0 ∧ (y0 * 131072 + y1 * 256 + y2 * 16 + y3) / 131072 % 32 = y0 ∧ (y0 * 131072 + y1 * 256 + y2 * 16 + y3) / 256 % 4 = y1 ∧ (y0 * 131072 + y1 * 256 + y2 * 16 + y3) / 16 % 16 = y2 ∧ (y0 * 131072 + y1 * 256 + y2 * 16 + y3) % 16 = y3 ∧ y0 * 131072 + y1 * 256 + y2 * 16 + y3 < 4194304 :=
  ⟨by omega, by omega, by omega, by omega, by omega, by omega⟩
theorem fields_40 (y0 : Nat) (h0 : y0 < 8) :
    (y0 * 131072) % 131072 = 0 ∧ (y0 * 131072) / 131072 % 32 = y0 ∧ y0 * 131072 < 4194304 :=
  ⟨by omega, by omega, by omega⟩
theorem fields_41 (y0 y1 y2 y3 y4 : Nat) (h0 : y0 < 8) (h1 : y1 < 32) (h2 : y2 < 16) (h3 : y3 < 8) (h4 : y4 < 2) :
    (y0 * 131072 + y1 * 4096 + y2 * 128 + y3 * 16 + y4) / 4 % 4 = 0 ∧ (y0 * 131072 + y1 * 4096 + y2 * 128 + y3 * 16 + y4) / 131072 % 32 = y0 ∧ (y0 * 131072 + y1 * 4096 + y2 * 128 + y3 * 16 + y4) / 4096 % 32 = y1 ∧ (y0 * 131072 + y1 * 4096 + y2 * 128 + y3 * 16 + y4) / 128 % 32 = y2 ∧ (y0 * 131072 + y1 * 4096 + y2 * 128 + y3 * 16 + y4) / 16 % 8 = y3 ∧ (y0 * 131072 + y1 * 4096 + y2 * 128 + y3 * 16 + y4) / 2 % 2 = 0 ∧ (y0 * 131072 + y1 * 4096 + y2 * 128 + y3 * 16 + y4) % 2 = y4 ∧ y0 * 131072 + y1 * 4096 + y2 * 128 + y3 * 16 + y4 < 4194304 :=
  ⟨by omega, by omega, by omega, by omega, by omega, by omega, by omega, by omega⟩
theorem fields_42 (y0 y1 y2 y3 y4 : Nat) (h0 : y0 < 31) (h1 : y1 < 8) (h2 : y2 < 16) (h3 : y3 < 8) (h4 : y4 < 2) :
    (y0 * 131072 + y1 * 4096 + y2 * 128 + y3 * 16 + y4) / 4 % 4 = 0 ∧ (y0 * 131072 + y1 * 4096 + y2 * 128 + y3 * 16 + y4) / 131072 % 32 = y0 ∧ (y0 * 131072 + y1 * 4096 + y2 * 128 + y3 * 16 + y4) / 4096 % 32 = y1 ∧ (y0 * 131072 + y1 * 4096 + y2 * 128 + y3 * 16 + y4) / 128 % 32 = y2 ∧ (y0 * 131072 + y1 * 4096 + y2 * 128 + y3 * 16 + y4) / 16 % 8 = y3 ∧ (y0 * 131072 + y1 * 4096 + y2 * 128 + y3 * 16 + y4) / 2 % 2 = 0 ∧ (y0 * 131072 + y1 * 4096 + y2 * 128 + y3 * 16 + y4) % 2 = y4 ∧ y0 * 131072 + y1 * 4096 + y2 * 128 + y3 * 16 + y4 < 4194304 :=
  ⟨by omega, by omega, by omega, by omega, by omega, by omega, by omega, by omega⟩
theorem fields_43 (y0 y1 y2 : Nat) (h0 : y0 < 8) (h1 : y1 < 32) (h2 : y2 < 32) :
    (y0 * 131072 + y1 * 4096 + y2 * 128) % 128 = 0 ∧ (y0 * 131072 + y1 * 4096 + y2 * 128) / 131072 % 32 = y0 ∧ (y0 * 131072 + y1 * 4096 + y2 * 128) / 4096 % 32 = y1 ∧ (y0 * 131072 + y1 * 4096 + y2 * 128) / 128 % 32 = y2 ∧ y0 * 131072 + y1 * 4096 + y2 * 128 < 4194304 :=
  ⟨by omega, by omega, by omega, by omega, by omega⟩
theorem fields_44 (y0 y1 y2 y3 y4 : Nat) (h0 : y0 < 32) (h1 : y1 < 32) (h2 : y2 < 32) (h3 : y3 < 4) (h4 : y4 < 8) :
    (y0 * 131072 + y1 * 4096 + y2 * 128 + y3 * 16 + y4) % 16 = y4 ∧ (y0 * 131072 + y1 * 4096 + y2 * 128 + y3 * 16 + y4) / 131072 % 32 = y0 ∧ (y0 * 131072 + y1 * 4096 + y2 * 128 + y3 * 16 + y4) / 4096 % 32 = y1 ∧ (y0 * 131072 + y1 * 4096 + y2 * 128 + y3 * 16 + y4) / 128 % 32 = y2 ∧ (y0 * 131072 + y1 * 4096 + y2 * 128 + y3 * 16 + y4) / 16 % 8 = y3 ∧ y0 * 131072 + y1 * 4096 + y2 * 128 + y3 * 16 + y4 < 4194304 :=
  ⟨by omega, by omega, by omega, by omega, by omega, by omega⟩
theorem fields_45 (y0 y1 y2 y3 : Nat) (h0 : y0 < 8) (h1 : y1 < 32) (h2 : y2 < 32) (h3 : y3 < 4) :
    (y0 * 131072 + y1 * 4096 + y2 * 128 + y3 * 16 + 8) % 16 = 8 ∧ (y0 * 131072 + y1 * 4096 + y2 * 128 + y3 * 16 + 8) / 131072 % 32 = y0 ∧ (y0 * 131072 + y1 * 4096 + y2 * 128 + y3 * 16 + 8) / 4096 % 32 = y1 ∧ (y0 * 131072 + y1 * 4096 + y2 * 128 + y3 * 16 + 8) / 128 % 32 = y2 ∧ (y0 * 131072 + y1 * 4096 + y2 * 128 + y3 * 16 + 8) / 16 % 8 = y3 ∧ y0 * 131072 + y1 * 4096 + y2 * 128 + y3 * 16 + 8 < 4194304 :=
  ⟨by omega, by omega, by omega, by omega, by omega, by omega⟩
theorem fields_46 (y0 y1 y2 y3 y4 : Nat) (h0 : y0 < 32) (h1 : y1 < 32) (h2 : y2 < 32) (h3 : y3 < 4) (h4 : y4 < 8) :
    (y0 * 131072 + y1 * 4096 + y2 * 128 + y3 * 16 + y4) / 131072 % 32 = y0 ∧ (y0 * 131072 + y1 * 4096 + y2 * 128 + y3 * 16 + y4) / 4096 % 32 = y1 ∧ (y0 * 131072 + y1 * 4096 + y2 * 128 + y3 * 16 + y4) / 128 % 32 = y2 ∧ (y0 * 131072 + y1 * 4096 + y2 * 128 + y3 * 16 + y4) / 16 % 8 = y3 ∧ (y0 * 131072 + y1 * 4096 + y2 * 128 + y3 * 16 + y4) % 16 = y4 ∧ y0 * 131072 + y1 * 4096 + y2 * 128 + y3 * 16 + y4 < 4194304 :=
  ⟨by omega, by omega, by omega, by omega, by omega, by omega⟩
theorem fields_47 (y0 y1 y2 y3 y4 : Nat) (h0 : y0 < 32) (h1 : y1 < 32) (h2 : y2 < 32) (h3 : y3 < 4) (h4 : y4 < 2) :
    (y0 * 131072 + y1 * 4096 + y2 * 128 + y3 * 4 + y4) / 16 % 8 = 0 ∧ (y0 * 131072 + y1 * 4096 + y2 * 128 + y3 * 4 + y4) / 131072 % 32 = y0 ∧ (y0 * 131072 + y1 * 4096 + y2 * 128 + y3 * 4 + y4) / 4096 % 32 = y1 ∧ (y0 * 131072 + y1 * 4096 + y2 * 128 + y3 * 4 + y4) / 128 % 32 = y2 ∧ (y0 * 131072 + y1 * 4096 + y2 * 128 + y3 * 4 + y4) / 4 % 4 = y3 ∧ (y0 * 131072 + y1 * 4096 + y2 * 128 + y3 * 4 + y4) / 2 % 2 = 0 ∧ (y0 * 131072 + y1 * 4096 + y2 * 128 + y3 * 4 + y4) % 2 = y4 ∧ y0 * 131072 + y1 * 4096 + y2 * 128 + y3 * 4 + y4 < 4194304 :=
  ⟨by omega, by omega, by omega, by omega, by omega, by omega, by omega, by omega⟩
theorem fields_48 (y0 y1 y2 y3 : Nat) (h0 : y0 < 32) (h1 : y1 < 32) (h2 : y2 < 32) (h3 : y3 < 8) :
    (y0 * 131072 + y1 * 4096 + y2 * 128 + y3 * 16) % 16 = 0 ∧ (y0 * 131072 + y1 * 4096 + y2 * 128 + y3 * 16) / 131072 % 32 = y0 ∧ (y0 * 131072 + y1 * 4096 + y2 * 128 + y3 * 16) / 4096 % 32 = y1 ∧ (y0 * 131072 + y1 * 4096 + y2 * 128 + y3 * 16) / 128 % 32 = y2 ∧ (y0 * 131072 + y1 * 4096 + y2 * 128 + y3 * 16) / 16 % 8 = y3 ∧ y0 * 131072 + y1 * 4096 + y2 * 128 + y3 * 16 < 4194304 :=
  ⟨by omega, by omega, by omega, by omega, by omega, by omega⟩
theorem fields_49 (y0 y1 y2 y3 y4 : Nat) (h0 : y0 < 32) (h1 : y1 < 32) (h2 : y2 < 32) (h3 : y3 < 3) (h4 : y4 < 8) :
    (y0 * 131072 + y1 * 4096 + y2 * 128 + y3 * 16 + y4) / 131072 % 32 = y0 ∧ (y0 * 131072 + y1 * 4096 + y2 * 128 + y3 * 16 + y4) / 4096 % 32 = y1 ∧ (y0 * 131072 + y1 * 4096 + y2 * 128 + y3 * 16 + y4) / 128 % 32 = y2 ∧ (y0 * 131072 + y1 * 4096 + y2 * 128 + y3 * 16 + y4) / 16 % 8 = y3 ∧ (y0 * 131072 + y1 * 4096 + y2 * 128 + y3 * 16 + y4) % 16 = y4 ∧ y0 * 131072 + y1 * 4096 + y2 * 128 + y3 * 16 + y4 < 4194304 :=
  ⟨by omega, by omega, by omega, by omega, by omega, by omega⟩
theorem fields_50 (y0 y1 y2 : Nat) (h0 : y0 < 32) (h1 : y1 < 32) (h2 : y2 < 32) :
    (y0 * 131072 + y1 * 4096 + y2 * 128) % 128 = 0 ∧ (y0 * 131072 + y1 * 4096 + y2 * 128) / 131072 % 32 = y0 ∧ (y0 * 131072 + y1 * 4096 + y2 * 128) / 4096 % 32 = y1 ∧ (y0 * 131072 + y1 * 4096 + y2 * 128) / 128 % 32 = y2 ∧ y0 * 131072 + y1 * 4096 + y2 * 128 < 4194304 :=
  ⟨by omega, by omega, by omega, by omega, by omega⟩
theorem fields_51 (y0 : Nat) (h0 : y0 < 65) :
    (y0) / 131072 % 32 = 0 ∧ (y0) % 131072 = y0 ∧ y0 < 4194304 :=
  ⟨by omega, by omega, by omega⟩
theorem fields_52 (y0 y1 : Nat) (h0 : y0 < 16) (h1 : y1 < 131072) :
    (y0 * 131072 + y1) / 131072 % 32 = y0 ∧ (y0 * 131072 + y1) % 131072 = y1 ∧ y0 * 131072 + y1 < 4194304 :=
  ⟨by omega, by omega, by omega⟩
theorem fields_53 (y0 y1 y2 : Nat) (h0 : y0 < 16) (h1 : y1 < 16) (h2 : y2 < 16) :
    (y0 * 131072 + y1 * 4096 + y2 * 128) % 128 = 0 ∧ (y0 * 131072 + y1 * 4096 + y2 * 128) / 131072 % 32 = y0 ∧ (y0 * 131072 + y1 * 4096 + y2 * 128) / 4096 % 32 = y1 ∧ (y0 * 131072 + y1 * 4096 + y2 * 128) / 128 % 32 = y2 ∧ y0 * 131072 + y1 * 4096 + y2 * 128 < 4194304 :=
  ⟨by omega, by omega, by omega, by omega, by omega⟩
theorem fields_54 (y0 y1 y2 : Nat) (h0 : y0 < 16) (h1 : y1 < 16) (h2 : y2 < 4096) :
    (y0 * 131072 + y1 * 4096 + y2) / 131072 % 32 = y0 ∧ (y0 * 131072 + y1 * 4096 + y2) / 4096 % 32 = y1 ∧ (y0 * 131072 + y1 * 4096 + y2) % 4096 = y2 ∧ y0 * 131072 + y1 * 4096 + y2 < 4194304 :=
  ⟨by omega, by omega, by omega, by omega⟩
theorem fields_55 (y0 y1 : Nat) (h0 : y0 < 16) (h1 : y1 < 4096) :
    (y0 * 131072 + y1) / 4096 % 32 = 0 ∧ (y0 * 131072 + y1) / 131072 % 32 = y0 ∧ (y0 * 131072 + y1) % 4096 = y1 ∧ y0 * 131072 + y1 < 4194304 :=
  ⟨by omega, by omega, by omega, by omega⟩
theorem fields_56 (y0 y1 : Nat) (h0 : y0 < 16) (h1 : y1 < 4096) :
    (y0 * 4096 + y1) / 131072 % 32 = 0 ∧ (y0 * 4096 + y1) / 4096 % 32 = y0 ∧ (y0 * 4096 + y1) % 4096 = y1 ∧ y0 * 4096 + y1 < 4194304 :=
  ⟨by omega, by omega, by omega, by omega⟩
theorem fields_57 (y0 y1 y2 y3 : Nat) (h0 : y0 < 16) (h1 : y1 < 32) (h2 : y2 < 8) (h3 : y3 < 4) :
    (y0 * 131072 + y1 * 4096 + y2 * 16 + y3) / 4 % 4 = 0 ∧ (y0 * 131072 + y1 * 4096 + y2 * 16 + y3) / 128 % 32 = 0 ∧ (y0 * 131072 + y1 * 4096 + y2 * 16 + y3) / 131072 % 32 = y0 ∧ (y0 * 131072 + y1 * 4096 + y2 * 16 + y3) / 4096 % 32 = y1 ∧ (y0 * 131072 + y1 * 4096 + y2 * 16 + y3) / 16 % 8 = y2 ∧ (y0 * 131072 + y1 * 4096 + y2 * 16 + y3) % 4 = y3 ∧ y0 * 131072 + y1 * 4096 + y2 * 16 + y3 < 4194304 :=
  ⟨by omega, by omega, by omega, by omega, by omega, by omega, by omega⟩
theorem fields_58 (y0 : Nat) (h0 : y0 < 32768) :
    (y0) / 131072 % 32 = 0 ∧ (y0) / 32768 % 4 = 0 ∧ (y0) % 32768 = y0 ∧ y0 < 4194304 :=
  ⟨by omega, by omega, by omega, by omega⟩
theorem fields_59 (y0 y1 : Nat) (h0 : y0 < 16) (h1 : y1 < 32768) :
    (y0 * 131072 + y1) / 131072 % 32 = y0 ∧ (y0 * 131072 + y1) / 32768 % 4 = 0 ∧ (y0 * 131072 + y1) % 32768 = y1 ∧ y0 * 131072 + y1 < 4194304 :=
  ⟨by omega, by omega, by omega, by omega⟩
theorem fields_60 :
    (0) % 4194304 = 0 ∧ 0 < 4194304 :=
  ⟨by omega, by omega⟩
theorem fields_61 (y0 y1 : Nat) (h0 : y0 < 16) (h1 : y1 < 64) :
    (y0 * 131072 + y1) / 131072 % 32 = y0 ∧ (y0 * 131072 + y1) % 131072 = y1 ∧ y0 * 131072 + y1 < 4194304 :=
  ⟨by omega, by omega, by omega⟩
theorem fields_62 (y0 y1 : Nat) (h0 : y0 < 65536) (h1 : y1 < 64) :
    (y0 * 64 + y1) / 64 % 65536 = y0 ∧ (y0 * 64 + y1) % 64 = y1 ∧ y0 * 64 + y1 < 4194304 :=
  ⟨by omega, by omega, by omega⟩
theorem fields_63 (y0 : Nat) (h0 : y0 < 16) :
    (y0 * 131072) % 131072 = 0 ∧ (y0 * 131072) / 131072 % 32 = y0 ∧ y0 * 131072 < 4194304 :=
  ⟨by omega, by omega, by omega⟩
theorem fields_64 :
    (1) % 131072 = 1 ∧ (1) / 131072 % 32 = 0 ∧ 1 < 4194304 :=
  ⟨by omega, by omega, by omega⟩
theorem fields_65 (y0 : Nat) (h0 : y0 < 16) :
    (y0 * 4096) % 4096 = 0 ∧ (y0 * 4096) / 131072 % 32 = 0 ∧ (y0 * 4096) / 4096 % 32 = y0 ∧ y0 * 4096 < 4194304 :=
  ⟨by omega, by omega, by omega, by omega⟩
theorem fields_66 (y0 y1 : Nat) (h0 : y0 < 8) (h1 : y1 < 16) :
    (y0 * 131072 + y1 * 4096) % 4096 = 0 ∧ (y0 * 131072 + y1 * 4096) / 131072 % 32 = y0 ∧ (y0 * 131072 + y1 * 4096) / 4096 % 32 = y1 ∧ y0 * 131072 + y1 * 4096 < 4194304 :=
  ⟨by omega, by omega, by omega, by omega⟩
theorem fields_67 (y0 y1 : Nat) (h0 : y0 < 16) (h1 : y1 < 9) :
    (y0 * 16 + y1) / 256 % 16384 = 0 ∧ (y0 * 16 + y1) / 16 % 16 = y0 ∧ (y0 * 16 + y1) % 16 = y1 ∧ y0 * 16 + y1 < 4194304 :=
  ⟨by omega, by omega, by omega, by omega⟩
theorem fields_68 (y0 : Nat) (h0 : y0 < 9) :
    (y0) / 16 % 262144 = 0 ∧ (y0) % 16 = y0 ∧ y0 < 4194304 :=
  ⟨by omega, by omega, by omega⟩
theorem fields_69 (y0 : Nat) (h0 : y0 < 8) :
    (y0) / 8 % 524288 = 0 ∧ (y0) % 8 = y0 ∧ y0 < 4194304 :=
  ⟨by omega, by omega, by omega⟩
theorem fields_70 (y0 : Nat) (h0 : y0 < 256) :
    (y0) / 256 % 16384 = 0 ∧ (y0) % 256 = y0 ∧ y0 < 4194304 :=
  ⟨by omega, by omega, by omega⟩
theorem fields_71 (y0 : Nat) (h0 : y0 < 65536) :
    (y0) / 65536 % 64 = 0 ∧ (y0) % 65536 = y0 ∧ y0 < 4194304 :=
  ⟨by omega, by omega, by omega⟩
theorem fields_72 :
    (0) % 16 = 0 ∧ (0) / 16 % 262144 = 0 ∧ 0 < 4194304 :=
  ⟨by omega, by omega, by omega⟩
theorem fields_73 :
    (1) % 16 = 1 ∧ (1) / 16 % 262144 = 0 ∧ 1 < 4194304 :=
  ⟨by omega, by omega, by omega⟩
theorem fields_74 (y0 y1 : Nat) (h0 : y0 < 16) (h1 : y1 < 16) :
    (y0 * 131072 + y1 * 4096) % 4096 = 0 ∧ (y0 * 131072 + y1 * 4096) / 131072 % 32 = y0 ∧ (y0 * 131072 + y1 * 4096) / 4096 % 32 = y1 ∧ y0 * 131072 + y1 * 4096 < 4194304 :=
  ⟨by omega, by omega, by omega, by omega⟩
theorem fields_75 :
    (2) % 16 = 2 ∧ (2) / 16 % 262144 = 0 ∧ 2 < 4194304 :=
  ⟨by omega, by omega, by omega⟩
theorem fields_76 (y0 : Nat) (h0 : y0 < 16) :
    (y0 * 16 + 3) % 16 = 3 ∧ (y0 * 16 + 3) / 256 % 16384 = 0 ∧ (y0 * 16 + 3) / 16 % 16 = y0 ∧ y0 * 16 + 3 < 4194304 :=
  ⟨by omega, by omega, by omega, by omega⟩
theorem fields_77 :
    (4) % 16 = 4 ∧ (4) / 16 % 262144 = 0 ∧ 4 < 4194304 :=
  ⟨by omega, by omega, by omega⟩

/-! ## The family -/

theorem RoundTrip.add (u : Twin) (d : SDst) (a : SReg) (b : SReg) (q : QReg) : RoundTrip.Statement (.add u d a b q) := by
  intro _
  have hx := fields_0 _ _ _ _ d.isLt a.isLt b.isLt q.isLt
  exact of_S rfl (by decide) hx.2.2.2.2.2 (by rw [decodeS.eq_1, zero_ok hx.1, fin_ok d hx.2.1, fin_ok a hx.2.2.1, fin_ok b hx.2.2.2.1, fin_ok q hx.2.2.2.2.1])
theorem RoundTrip.sub (u : Twin) (d : SDst) (a : SReg) (b : SReg) (q : QReg) : RoundTrip.Statement (.sub u d a b q) := by
  intro _
  have hx := fields_0 _ _ _ _ d.isLt a.isLt b.isLt q.isLt
  exact of_S rfl (by decide) hx.2.2.2.2.2 (by rw [decodeS.eq_2, zero_ok hx.1, fin_ok d hx.2.1, fin_ok a hx.2.2.1, fin_ok b hx.2.2.2.1, fin_ok q hx.2.2.2.2.1])
theorem RoundTrip.mul (u : Twin) (d : SDst) (a : SReg) (b : SReg) (q : QReg) : RoundTrip.Statement (.mul u d a b q) := by
  intro _
  have hx := fields_0 _ _ _ _ d.isLt a.isLt b.isLt q.isLt
  exact of_S rfl (by decide) hx.2.2.2.2.2 (by rw [decodeS.eq_3, zero_ok hx.1, fin_ok d hx.2.1, fin_ok a hx.2.2.1, fin_ok b hx.2.2.2.1, fin_ok q hx.2.2.2.2.1])
theorem RoundTrip.mulh (u : Twin) (d : SDst) (a : SReg) (b : SReg) (q : QReg) : RoundTrip.Statement (.mulh u d a b q) := by
  intro _
  have hx := fields_0 _ _ _ _ d.isLt a.isLt b.isLt q.isLt
  exact of_S rfl (by decide) hx.2.2.2.2.2 (by rw [decodeS.eq_4, zero_ok hx.1, fin_ok d hx.2.1, fin_ok a hx.2.2.1, fin_ok b hx.2.2.2.1, fin_ok q hx.2.2.2.2.1])
theorem RoundTrip.mulhn (u : Twin) (d : SDst) (a : SReg) (b : SReg) (q : QReg) : RoundTrip.Statement (.mulhn u d a b q) := by
  intro _
  have hx := fields_0 _ _ _ _ d.isLt a.isLt b.isLt q.isLt
  exact of_S rfl (by decide) hx.2.2.2.2.2 (by rw [decodeS.eq_5, zero_ok hx.1, fin_ok d hx.2.1, fin_ok a hx.2.2.1, fin_ok b hx.2.2.2.1, fin_ok q hx.2.2.2.2.1])
theorem RoundTrip.div (u : Twin) (d : SDst) (a : SReg) (b : SReg) (q : QReg) : RoundTrip.Statement (.div u d a b q) := by
  intro _
  have hx := fields_0 _ _ _ _ d.isLt a.isLt b.isLt q.isLt
  exact of_S rfl (by decide) hx.2.2.2.2.2 (by rw [decodeS.eq_6, zero_ok hx.1, fin_ok d hx.2.1, fin_ok a hx.2.2.1, fin_ok b hx.2.2.2.1, fin_ok q hx.2.2.2.2.1])
theorem RoundTrip.divn (u : Twin) (d : SDst) (a : SReg) (b : SReg) (q : QReg) : RoundTrip.Statement (.divn u d a b q) := by
  intro _
  have hx := fields_0 _ _ _ _ d.isLt a.isLt b.isLt q.isLt
  exact of_S rfl (by decide) hx.2.2.2.2.2 (by rw [decodeS.eq_7, zero_ok hx.1, fin_ok d hx.2.1, fin_ok a hx.2.2.1, fin_ok b hx.2.2.2.1, fin_ok q hx.2.2.2.2.1])
theorem RoundTrip.rem (u : Twin) (d : SDst) (a : SReg) (b : SReg) (q : QReg) : RoundTrip.Statement (.rem u d a b q) := by
  intro _
  have hx := fields_0 _ _ _ _ d.isLt a.isLt b.isLt q.isLt
  exact of_S rfl (by decide) hx.2.2.2.2.2 (by rw [decodeS.eq_8, zero_ok hx.1, fin_ok d hx.2.1, fin_ok a hx.2.2.1, fin_ok b hx.2.2.2.1, fin_ok q hx.2.2.2.2.1])
theorem RoundTrip.remn (u : Twin) (d : SDst) (a : SReg) (b : SReg) (q : QReg) : RoundTrip.Statement (.remn u d a b q) := by
  intro _
  have hx := fields_0 _ _ _ _ d.isLt a.isLt b.isLt q.isLt
  exact of_S rfl (by decide) hx.2.2.2.2.2 (by rw [decodeS.eq_9, zero_ok hx.1, fin_ok d hx.2.1, fin_ok a hx.2.2.1, fin_ok b hx.2.2.2.1, fin_ok q hx.2.2.2.2.1])
theorem RoundTrip.and (u : Twin) (d : SDst) (a : SReg) (b : SReg) (q : QReg) : RoundTrip.Statement (.and u d a b q) := by
  intro _
  have hx := fields_0 _ _ _ _ d.isLt a.isLt b.isLt q.isLt
  exact of_S rfl (by decide) hx.2.2.2.2.2 (by rw [decodeS.eq_10, zero_ok hx.1, fin_ok d hx.2.1, fin_ok a hx.2.2.1, fin_ok b hx.2.2.2.1, fin_ok q hx.2.2.2.2.1])
theorem RoundTrip.or (u : Twin) (d : SDst) (a : SReg) (b : SReg) (q : QReg) : RoundTrip.Statement (.or u d a b q) := by
  intro _
  have hx := fields_0 _ _ _ _ d.isLt a.isLt b.isLt q.isLt
  exact of_S rfl (by decide) hx.2.2.2.2.2 (by rw [decodeS.eq_11, zero_ok hx.1, fin_ok d hx.2.1, fin_ok a hx.2.2.1, fin_ok b hx.2.2.2.1, fin_ok q hx.2.2.2.2.1])
theorem RoundTrip.xor (u : Twin) (d : SDst) (a : SReg) (b : SReg) (q : QReg) : RoundTrip.Statement (.xor u d a b q) := by
  intro _
  have hx := fields_0 _ _ _ _ d.isLt a.isLt b.isLt q.isLt
  exact of_S rfl (by decide) hx.2.2.2.2.2 (by rw [decodeS.eq_12, zero_ok hx.1, fin_ok d hx.2.1, fin_ok a hx.2.2.1, fin_ok b hx.2.2.2.1, fin_ok q hx.2.2.2.2.1])
theorem RoundTrip.andn (u : Twin) (d : SDst) (a : SReg) (b : SReg) (q : QReg) : RoundTrip.Statement (.andn u d a b q) := by
  intro _
  have hx := fields_0 _ _ _ _ d.isLt a.isLt b.isLt q.isLt
  exact of_S rfl (by decide) hx.2.2.2.2.2 (by rw [decodeS.eq_13, zero_ok hx.1, fin_ok d hx.2.1, fin_ok a hx.2.2.1, fin_ok b hx.2.2.2.1, fin_ok q hx.2.2.2.2.1])
theorem RoundTrip.shl (u : Twin) (d : SDst) (a : SReg) (b : SReg) (q : QReg) : RoundTrip.Statement (.shl u d a b q) := by
  intro _
  have hx := fields_0 _ _ _ _ d.isLt a.isLt b.isLt q.isLt
  exact of_S rfl (by decide) hx.2.2.2.2.2 (by rw [decodeS.eq_14, zero_ok hx.1, fin_ok d hx.2.1, fin_ok a hx.2.2.1, fin_ok b hx.2.2.2.1, fin_ok q hx.2.2.2.2.1])
theorem RoundTrip.shr (u : Twin) (d : SDst) (a : SReg) (b : SReg) (q : QReg) : RoundTrip.Statement (.shr u d a b q) := by
  intro _
  have hx := fields_0 _ _ _ _ d.isLt a.isLt b.isLt q.isLt
  exact of_S rfl (by decide) hx.2.2.2.2.2 (by rw [decodeS.eq_15, zero_ok hx.1, fin_ok d hx.2.1, fin_ok a hx.2.2.1, fin_ok b hx.2.2.2.1, fin_ok q hx.2.2.2.2.1])
theorem RoundTrip.sar (u : Twin) (d : SDst) (a : SReg) (b : SReg) (q : QReg) : RoundTrip.Statement (.sar u d a b q) := by
  intro _
  have hx := fields_0 _ _ _ _ d.isLt a.isLt b.isLt q.isLt
  exact of_S rfl (by decide) hx.2.2.2.2.2 (by rw [decodeS.eq_16, zero_ok hx.1, fin_ok d hx.2.1, fin_ok a hx.2.2.1, fin_ok b hx.2.2.2.1, fin_ok q hx.2.2.2.2.1])
theorem RoundTrip.rol (u : Twin) (d : SDst) (a : SReg) (b : SReg) (q : QReg) : RoundTrip.Statement (.rol u d a b q) := by
  intro _
  have hx := fields_0 _ _ _ _ d.isLt a.isLt b.isLt q.isLt
  exact of_S rfl (by decide) hx.2.2.2.2.2 (by rw [decodeS.eq_17, zero_ok hx.1, fin_ok d hx.2.1, fin_ok a hx.2.2.1, fin_ok b hx.2.2.2.1, fin_ok q hx.2.2.2.2.1])
theorem RoundTrip.min (u : Twin) (d : SDst) (a : SReg) (b : SReg) (q : QReg) : RoundTrip.Statement (.min u d a b q) := by
  intro _
  have hx := fields_0 _ _ _ _ d.isLt a.isLt b.isLt q.isLt
  exact of_S rfl (by decide) hx.2.2.2.2.2 (by rw [decodeS.eq_18, zero_ok hx.1, fin_ok d hx.2.1, fin_ok a hx.2.2.1, fin_ok b hx.2.2.2.1, fin_ok q hx.2.2.2.2.1])
theorem RoundTrip.max (u : Twin) (d : SDst) (a : SReg) (b : SReg) (q : QReg) : RoundTrip.Statement (.max u d a b q) := by
  intro _
  have hx := fields_0 _ _ _ _ d.isLt a.isLt b.isLt q.isLt
  exact of_S rfl (by decide) hx.2.2.2.2.2 (by rw [decodeS.eq_19, zero_ok hx.1, fin_ok d hx.2.1, fin_ok a hx.2.2.1, fin_ok b hx.2.2.2.1, fin_ok q hx.2.2.2.2.1])
theorem RoundTrip.minn (u : Twin) (d : SDst) (a : SReg) (b : SReg) (q : QReg) : RoundTrip.Statement (.minn u d a b q) := by
  intro _
  have hx := fields_0 _ _ _ _ d.isLt a.isLt b.isLt q.isLt
  exact of_S rfl (by decide) hx.2.2.2.2.2 (by rw [decodeS.eq_20, zero_ok hx.1, fin_ok d hx.2.1, fin_ok a hx.2.2.1, fin_ok b hx.2.2.2.1, fin_ok q hx.2.2.2.2.1])
theorem RoundTrip.maxn (u : Twin) (d : SDst) (a : SReg) (b : SReg) (q : QReg) : RoundTrip.Statement (.maxn u d a b q) := by
  intro _
  have hx := fields_0 _ _ _ _ d.isLt a.isLt b.isLt q.isLt
  exact of_S rfl (by decide) hx.2.2.2.2.2 (by rw [decodeS.eq_21, zero_ok hx.1, fin_ok d hx.2.1, fin_ok a hx.2.2.1, fin_ok b hx.2.2.2.1, fin_ok q hx.2.2.2.2.1])
theorem RoundTrip.slt (u : Twin) (d : SDst) (a : SReg) (b : SReg) (q : QReg) : RoundTrip.Statement (.slt u d a b q) := by
  intro _
  have hx := fields_0 _ _ _ _ d.isLt a.isLt b.isLt q.isLt
  exact of_S rfl (by decide) hx.2.2.2.2.2 (by rw [decodeS.eq_22, zero_ok hx.1, fin_ok d hx.2.1, fin_ok a hx.2.2.1, fin_ok b hx.2.2.2.1, fin_ok q hx.2.2.2.2.1])
theorem RoundTrip.sltn (u : Twin) (d : SDst) (a : SReg) (b : SReg) (q : QReg) : RoundTrip.Statement (.sltn u d a b q) := by
  intro _
  have hx := fields_0 _ _ _ _ d.isLt a.isLt b.isLt q.isLt
  exact of_S rfl (by decide) hx.2.2.2.2.2 (by rw [decodeS.eq_23, zero_ok hx.1, fin_ok d hx.2.1, fin_ok a hx.2.2.1, fin_ok b hx.2.2.2.1, fin_ok q hx.2.2.2.2.1])
theorem RoundTrip.seq (u : Twin) (d : SDst) (a : SReg) (b : SReg) (q : QReg) : RoundTrip.Statement (.seq u d a b q) := by
  intro _
  have hx := fields_0 _ _ _ _ d.isLt a.isLt b.isLt q.isLt
  exact of_S rfl (by decide) hx.2.2.2.2.2 (by rw [decodeS.eq_24, zero_ok hx.1, fin_ok d hx.2.1, fin_ok a hx.2.2.1, fin_ok b hx.2.2.2.1, fin_ok q hx.2.2.2.2.1])
theorem RoundTrip.sne (u : Twin) (d : SDst) (a : SReg) (b : SReg) (q : QReg) : RoundTrip.Statement (.sne u d a b q) := by
  intro _
  have hx := fields_0 _ _ _ _ d.isLt a.isLt b.isLt q.isLt
  exact of_S rfl (by decide) hx.2.2.2.2.2 (by rw [decodeS.eq_25, zero_ok hx.1, fin_ok d hx.2.1, fin_ok a hx.2.2.1, fin_ok b hx.2.2.2.1, fin_ok q hx.2.2.2.2.1])
theorem RoundTrip.sel (u : Twin) (d : SDst) (a : SReg) (b : SReg) (q : QReg) : RoundTrip.Statement (.sel u d a b q) := by
  intro _
  have hx := fields_0 _ _ _ _ d.isLt a.isLt b.isLt q.isLt
  exact of_S rfl (by decide) hx.2.2.2.2.2 (by rw [decodeS.eq_26, zero_ok hx.1, fin_ok d hx.2.1, fin_ok a hx.2.2.1, fin_ok b hx.2.2.2.1, fin_ok q hx.2.2.2.2.1])
theorem RoundTrip.clz (u : Twin) (d : SDst) (a : SReg) (q : QReg) : RoundTrip.Statement (.clz u d a q) := by
  intro _
  have hx := fields_1 _ _ _ d.isLt a.isLt q.isLt
  exact of_S rfl (by decide) hx.2.2.2.2.2 (by rw [decodeS.eq_27, zero_ok hx.1, zero_ok hx.2.1, fin_ok d hx.2.2.1, fin_ok a hx.2.2.2.1, fin_ok q hx.2.2.2.2.1])
theorem RoundTrip.ctz (u : Twin) (d : SDst) (a : SReg) (q : QReg) : RoundTrip.Statement (.ctz u d a q) := by
  intro _
  have hx := fields_1 _ _ _ d.isLt a.isLt q.isLt
  exact of_S rfl (by decide) hx.2.2.2.2.2 (by rw [decodeS.eq_28, zero_ok hx.1, zero_ok hx.2.1, fin_ok d hx.2.2.1, fin_ok a hx.2.2.2.1, fin_ok q hx.2.2.2.2.1])
theorem RoundTrip.popc (u : Twin) (d : SDst) (a : SReg) (q : QReg) : RoundTrip.Statement (.popc u d a q) := by
  intro _
  have hx := fields_1 _ _ _ d.isLt a.isLt q.isLt
  exact of_S rfl (by decide) hx.2.2.2.2.2 (by rw [decodeS.eq_29, zero_ok hx.1, zero_ok hx.2.1, fin_ok d hx.2.2.1, fin_ok a hx.2.2.2.1, fin_ok q hx.2.2.2.2.1])
theorem RoundTrip.sext (u : Twin) (d : SDst) (a : SReg) (q : QReg) (m : ExtW) : RoundTrip.Statement (.sext u d a q m) := by
  intro _
  have hx := fields_2 _ _ _ _ d.isLt a.isLt q.isLt (extCode_lt m)
  exact of_S rfl (by decide) hx.2.2.2.2.2.2 (by rw [decodeS.eq_30, zero_ok hx.1, zero_ok hx.2.1, fin_ok d hx.2.2.1, fin_ok a hx.2.2.2.1, fin_ok q hx.2.2.2.2.1, code_ok m ((congrArg extOf hx.2.2.2.2.2.1).trans (extOf_code m))])
theorem RoundTrip.zext (u : Twin) (d : SDst) (a : SReg) (q : QReg) (m : ExtW) : RoundTrip.Statement (.zext u d a q m) := by
  intro _
  have hx := fields_2 _ _ _ _ d.isLt a.isLt q.isLt (extCode_lt m)
  exact of_S rfl (by decide) hx.2.2.2.2.2.2 (by rw [decodeS.eq_31, zero_ok hx.1, zero_ok hx.2.1, fin_ok d hx.2.2.1, fin_ok a hx.2.2.2.1, fin_ok q hx.2.2.2.2.1, code_ok m ((congrArg extOf hx.2.2.2.2.2.1).trans (extOf_code m))])
theorem RoundTrip.mfs (u : Twin) (d : SDst) (c : CReg) : RoundTrip.Statement (.mfs u d c) := by
  intro hw
  have hf : (c.mfsOk) = true := hw
  have hx := fields_3 _ _ d.isLt (cregCode_lt c)
  exact of_S rfl (by decide) hx.2.2.2 (by rw [decodeS.eq_32, zero_ok hx.1, fin_ok d hx.2.1, code_ok c ((congrArg cregOf hx.2.2.1).trans (cregOf_code c)), need_ok hf])
theorem RoundTrip.chk (u : Twin) (a : SReg) (b : SReg) (q : QReg) (m : ChkOp) : RoundTrip.Statement (.chk u a b q m) := by
  intro _
  have hx := fields_4 _ _ _ _ a.isLt b.isLt q.isLt (chkCode_lt m)
  exact of_S rfl (by decide) hx.2.2.2.2.2.2 (by rw [decodeS.eq_33, zero_ok hx.1, zero_ok hx.2.1, fin_ok a hx.2.2.1, fin_ok b hx.2.2.2.1, fin_ok q hx.2.2.2.2.1, code_ok m ((congrArg chkOf hx.2.2.2.2.2.1).trans (chkOf_code m))])
theorem RoundTrip.addi (u : Twin) (d : SDst) (a : SReg) (imm : (BitVec 12)) : RoundTrip.Statement (.addi u d a imm) := by
  intro _
  have hx := fields_5 _ _ _ d.isLt a.isLt imm.isLt
  exact of_S rfl (by decide) hx.2.2.2 (by rw [decodeS.eq_34, fin_ok d hx.1, fin_ok a hx.2.1, bits_ok imm hx.2.2.1])
theorem RoundTrip.andi (u : Twin) (d : SDst) (a : SReg) (imm : (BitVec 12)) : RoundTrip.Statement (.andi u d a imm) := by
  intro _
  have hx := fields_5 _ _ _ d.isLt a.isLt imm.isLt
  exact of_S rfl (by decide) hx.2.2.2 (by rw [decodeS.eq_35, fin_ok d hx.1, fin_ok a hx.2.1, bits_ok imm hx.2.2.1])
theorem RoundTrip.ori (u : Twin) (d : SDst) (a : SReg) (imm : (BitVec 12)) : RoundTrip.Statement (.ori u d a imm) := by
  intro _
  have hx := fields_5 _ _ _ d.isLt a.isLt imm.isLt
  exact of_S rfl (by decide) hx.2.2.2 (by rw [decodeS.eq_36, fin_ok d hx.1, fin_ok a hx.2.1, bits_ok imm hx.2.2.1])
theorem RoundTrip.xori (u : Twin) (d : SDst) (a : SReg) (imm : (BitVec 12)) : RoundTrip.Statement (.xori u d a imm) := by
  intro _
  have hx := fields_5 _ _ _ d.isLt a.isLt imm.isLt
  exact of_S rfl (by decide) hx.2.2.2 (by rw [decodeS.eq_37, fin_ok d hx.1, fin_ok a hx.2.1, bits_ok imm hx.2.2.1])
theorem RoundTrip.shli (u : Twin) (d : SDst) (a : SReg) (n : (Fin 64)) : RoundTrip.Statement (.shli u d a n) := by
  intro _
  have hx := fields_6 _ _ _ d.isLt a.isLt n.isLt
  exact of_S rfl (by decide) hx.2.2.2 (by rw [decodeS.eq_38, fin_ok d hx.1, fin_ok a hx.2.1, fin_ok n hx.2.2.1])
theorem RoundTrip.shri (u : Twin) (d : SDst) (a : SReg) (n : (Fin 64)) : RoundTrip.Statement (.shri u d a n) := by
  intro _
  have hx := fields_6 _ _ _ d.isLt a.isLt n.isLt
  exact of_S rfl (by decide) hx.2.2.2 (by rw [decodeS.eq_39, fin_ok d hx.1, fin_ok a hx.2.1, fin_ok n hx.2.2.1])
theorem RoundTrip.sari (u : Twin) (d : SDst) (a : SReg) (n : (Fin 64)) : RoundTrip.Statement (.sari u d a n) := by
  intro _
  have hx := fields_6 _ _ _ d.isLt a.isLt n.isLt
  exact of_S rfl (by decide) hx.2.2.2 (by rw [decodeS.eq_40, fin_ok d hx.1, fin_ok a hx.2.1, fin_ok n hx.2.2.1])
theorem RoundTrip.li (u : Twin) (d : SDst) (imm : (BitVec 17)) : RoundTrip.Statement (.li u d imm) := by
  intro _
  have hx := fields_7 _ _ d.isLt imm.isLt
  exact of_S rfl (by decide) hx.2.2 (by rw [decodeS.eq_41, fin_ok d hx.1, bits_ok imm hx.2.1])
theorem RoundTrip.lui (u : Twin) (d : SDst) (imm : (BitVec 17)) : RoundTrip.Statement (.lui u d imm) := by
  intro _
  have hx := fields_7 _ _ d.isLt imm.isLt
  exact of_S rfl (by decide) hx.2.2 (by rw [decodeS.eq_42, fin_ok d hx.1, bits_ok imm hx.2.1])
theorem RoundTrip.vadd (u : Twin) (d : VDst) (a : VReg) (b : VReg) (q : QReg) (w : Width) (t : EType) : RoundTrip.Statement (.vadd u d a b q w t) := by
  intro _
  have hx := fields_8 _ _ _ _ _ _ d.isLt a.isLt b.isLt q.isLt (widthCode_lt w) (eTypeCode_lt t)
  exact of_V rfl (by decide) hx.2.2.2.2.2.2 (by rw [decodeV.eq_1, fin_ok d hx.1, fin_ok a hx.2.1, fin_ok b hx.2.2.1, fin_ok q hx.2.2.2.1, code_ok w ((congrArg widthOf hx.2.2.2.2.1).trans (widthOf_code w)), code_ok t ((congrArg eTypeOf hx.2.2.2.2.2.1).trans (eTypeOf_code t))])
theorem RoundTrip.vsub (u : Twin) (d : VDst) (a : VReg) (b : VReg) (q : QReg) (w : Width) (t : EType) : RoundTrip.Statement (.vsub u d a b q w t) := by
  intro _
  have hx := fields_8 _ _ _ _ _ _ d.isLt a.isLt b.isLt q.isLt (widthCode_lt w) (eTypeCode_lt t)
  exact of_V rfl (by decide) hx.2.2.2.2.2.2 (by rw [decodeV.eq_2, fin_ok d hx.1, fin_ok a hx.2.1, fin_ok b hx.2.2.1, fin_ok q hx.2.2.2.1, code_ok w ((congrArg widthOf hx.2.2.2.2.1).trans (widthOf_code w)), code_ok t ((congrArg eTypeOf hx.2.2.2.2.2.1).trans (eTypeOf_code t))])
theorem RoundTrip.vmul (u : Twin) (d : VDst) (a : VReg) (b : VReg) (q : QReg) (w : Width) (t : EType) : RoundTrip.Statement (.vmul u d a b q w t) := by
  intro _
  have hx := fields_8 _ _ _ _ _ _ d.isLt a.isLt b.isLt q.isLt (widthCode_lt w) (eTypeCode_lt t)
  exact of_V rfl (by decide) hx.2.2.2.2.2.2 (by rw [decodeV.eq_3, fin_ok d hx.1, fin_ok a hx.2.1, fin_ok b hx.2.2.1, fin_ok q hx.2.2.2.1, code_ok w ((congrArg widthOf hx.2.2.2.2.1).trans (widthOf_code w)), code_ok t ((congrArg eTypeOf hx.2.2.2.2.2.1).trans (eTypeOf_code t))])
theorem RoundTrip.vmulh (u : Twin) (d : VDst) (a : VReg) (b : VReg) (q : QReg) (w : Width) (t : EType) : RoundTrip.Statement (.vmulh u d a b q w t) := by
  intro _
  have hx := fields_8 _ _ _ _ _ _ d.isLt a.isLt b.isLt q.isLt (widthCode_lt w) (eTypeCode_lt t)
  exact of_V rfl (by decide) hx.2.2.2.2.2.2 (by rw [decodeV.eq_4, fin_ok d hx.1, fin_ok a hx.2.1, fin_ok b hx.2.2.1, fin_ok q hx.2.2.2.1, code_ok w ((congrArg widthOf hx.2.2.2.2.1).trans (widthOf_code w)), code_ok t ((congrArg eTypeOf hx.2.2.2.2.2.1).trans (eTypeOf_code t))])
theorem RoundTrip.vmin (u : Twin) (d : VDst) (a : VReg) (b : VReg) (q : QReg) (w : Width) (t : EType) : RoundTrip.Statement (.vmin u d a b q w t) := by
  intro _
  have hx := fields_8 _ _ _ _ _ _ d.isLt a.isLt b.isLt q.isLt (widthCode_lt w) (eTypeCode_lt t)
  exact of_V rfl (by decide) hx.2.2.2.2.2.2 (by rw [decodeV.eq_5, fin_ok d hx.1, fin_ok a hx.2.1, fin_ok b hx.2.2.1, fin_ok q hx.2.2.2.1, code_ok w ((congrArg widthOf hx.2.2.2.2.1).trans (widthOf_code w)), code_ok t ((congrArg eTypeOf hx.2.2.2.2.2.1).trans (eTypeOf_code t))])
theorem RoundTrip.vmax (u : Twin) (d : VDst) (a : VReg) (b : VReg) (q : QReg) (w : Width) (t : EType) : RoundTrip.Statement (.vmax u d a b q w t) := by
  intro _
  have hx := fields_8 _ _ _ _ _ _ d.isLt a.isLt b.isLt q.isLt (widthCode_lt w) (eTypeCode_lt t)
  exact of_V rfl (by decide) hx.2.2.2.2.2.2 (by rw [decodeV.eq_6, fin_ok d hx.1, fin_ok a hx.2.1, fin_ok b hx.2.2.1, fin_ok q hx.2.2.2.1, code_ok w ((congrArg widthOf hx.2.2.2.2.1).trans (widthOf_code w)), code_ok t ((congrArg eTypeOf hx.2.2.2.2.2.1).trans (eTypeOf_code t))])
theorem RoundTrip.vabs (u : Twin) (d : VDst) (a : VReg) (q : QReg) (w : Width) (t : EType) : RoundTrip.Statement (.vabs u d a q w t) := by
  intro _
  have hx := fields_9 _ _ _ _ _ d.isLt a.isLt q.isLt (widthCode_lt w) (eTypeCode_lt t)
  exact of_V rfl (by decide) hx.2.2.2.2.2.2 (by rw [decodeV.eq_7, zero_ok hx.1, fin_ok d hx.2.1, fin_ok a hx.2.2.1, fin_ok q hx.2.2.2.1, code_ok w ((congrArg widthOf hx.2.2.2.2.1).trans (widthOf_code w)), code_ok t ((congrArg eTypeOf hx.2.2.2.2.2.1).trans (eTypeOf_code t))])
theorem RoundTrip.vneg (u : Twin) (d : VDst) (a : VReg) (q : QReg) (w : Width) (t : EType) : RoundTrip.Statement (.vneg u d a q w t) := by
  intro _
  have hx := fields_9 _ _ _ _ _ d.isLt a.isLt q.isLt (widthCode_lt w) (eTypeCode_lt t)
  exact of_V rfl (by decide) hx.2.2.2.2.2.2 (by rw [decodeV.eq_8, zero_ok hx.1, fin_ok d hx.2.1, fin_ok a hx.2.2.1, fin_ok q hx.2.2.2.1, code_ok w ((congrArg widthOf hx.2.2.2.2.1).trans (widthOf_code w)), code_ok t ((congrArg eTypeOf hx.2.2.2.2.2.1).trans (eTypeOf_code t))])
theorem RoundTrip.vand (u : Twin) (d : VDst) (a : VReg) (b : VReg) (q : QReg) (w : Width) : RoundTrip.Statement (.vand u d a b q w) := by
  intro _
  have hx := fields_10 _ _ _ _ _ d.isLt a.isLt b.isLt q.isLt (widthCode_lt w)
  exact of_V rfl (by decide) hx.2.2.2.2.2.2 (by rw [decodeV.eq_9, zero_ok hx.1, fin_ok d hx.2.1, fin_ok a hx.2.2.1, fin_ok b hx.2.2.2.1, fin_ok q hx.2.2.2.2.1, code_ok w ((congrArg widthOf hx.2.2.2.2.2.1).trans (widthOf_code w))])
theorem RoundTrip.vor (u : Twin) (d : VDst) (a : VReg) (b : VReg) (q : QReg) (w : Width) : RoundTrip.Statement (.vor u d a b q w) := by
  intro _
  have hx := fields_10 _ _ _ _ _ d.isLt a.isLt b.isLt q.isLt (widthCode_lt w)
  exact of_V rfl (by decide) hx.2.2.2.2.2.2 (by rw [decodeV.eq_10, zero_ok hx.1, fin_ok d hx.2.1, fin_ok a hx.2.2.1, fin_ok b hx.2.2.2.1, fin_ok q hx.2.2.2.2.1, code_ok w ((congrArg widthOf hx.2.2.2.2.2.1).trans (widthOf_code w))])
theorem RoundTrip.vxor (u : Twin) (d : VDst) (a : VReg) (b : VReg) (q : QReg) (w : Width) : RoundTrip.Statement (.vxor u d a b q w) := by
  intro _
  have hx := fields_10 _ _ _ _ _ d.isLt a.isLt b.isLt q.isLt (widthCode_lt w)
  exact of_V rfl (by decide) hx.2.2.2.2.2.2 (by rw [decodeV.eq_11, zero_ok hx.1, fin_ok d hx.2.1, fin_ok a hx.2.2.1, fin_ok b hx.2.2.2.1, fin_ok q hx.2.2.2.2.1, code_ok w ((congrArg widthOf hx.2.2.2.2.2.1).trans (widthOf_code w))])
theorem RoundTrip.vandn (u : Twin) (d : VDst) (a : VReg) (b : VReg) (q : QReg) (w : Width) : RoundTrip.Statement (.vandn u d a b q w) := by
  intro _
  have hx := fields_10 _ _ _ _ _ d.isLt a.isLt b.isLt q.isLt (widthCode_lt w)
  exact of_V rfl (by decide) hx.2.2.2.2.2.2 (by rw [decodeV.eq_12, zero_ok hx.1, fin_ok d hx.2.1, fin_ok a hx.2.2.1, fin_ok b hx.2.2.2.1, fin_ok q hx.2.2.2.2.1, code_ok w ((congrArg widthOf hx.2.2.2.2.2.1).trans (widthOf_code w))])
theorem RoundTrip.vshl (u : Twin) (d : VDst) (a : VReg) (b : VReg) (q : QReg) (w : Width) (t : EType) : RoundTrip.Statement (.vshl u d a b q w t) := by
  intro _
  have hx := fields_8 _ _ _ _ _ _ d.isLt a.isLt b.isLt q.isLt (widthCode_lt w) (eTypeCode_lt t)
  exact of_V rfl (by decide) hx.2.2.2.2.2.2 (by rw [decodeV.eq_13, fin_ok d hx.1, fin_ok a hx.2.1, fin_ok b hx.2.2.1, fin_ok q hx.2.2.2.1, code_ok w ((congrArg widthOf hx.2.2.2.2.1).trans (widthOf_code w)), code_ok t ((congrArg eTypeOf hx.2.2.2.2.2.1).trans (eTypeOf_code t))])
theorem RoundTrip.vshr (u : Twin) (d : VDst) (a : VReg) (b : VReg) (q : QReg) (w : Width) (t : EType) : RoundTrip.Statement (.vshr u d a b q w t) := by
  intro _
  have hx := fields_8 _ _ _ _ _ _ d.isLt a.isLt b.isLt q.isLt (widthCode_lt w) (eTypeCode_lt t)
  exact of_V rfl (by decide) hx.2.2.2.2.2.2 (by rw [decodeV.eq_14, fin_ok d hx.1, fin_ok a hx.2.1, fin_ok b hx.2.2.1, fin_ok q hx.2.2.2.1, code_ok w ((congrArg widthOf hx.2.2.2.2.1).trans (widthOf_code w)), code_ok t ((congrArg eTypeOf hx.2.2.2.2.2.1).trans (eTypeOf_code t))])
theorem RoundTrip.vsar (u : Twin) (d : VDst) (a : VReg) (b : VReg) (q : QReg) (w : Width) (t : EType) : RoundTrip.Statement (.vsar u d a b q w t) := by
  intro _
  have hx := fields_8 _ _ _ _ _ _ d.isLt a.isLt b.isLt q.isLt (widthCode_lt w) (eTypeCode_lt t)
  exact of_V rfl (by decide) hx.2.2.2.2.2.2 (by rw [decodeV.eq_15, fin_ok d hx.1, fin_ok a hx.2.1, fin_ok b hx.2.2.1, fin_ok q hx.2.2.2.1, code_ok w ((congrArg widthOf hx.2.2.2.2.1).trans (widthOf_code w)), code_ok t ((congrArg eTypeOf hx.2.2.2.2.2.1).trans (eTypeOf_code t))])
theorem RoundTrip.vadds (u : Twin) (d : VDst) (a : VReg) (b : VReg) (q : QReg) (w : Width) (t : EType) : RoundTrip.Statement (.vadds u d a b q w t) := by
  intro _
  have hx := fields_8 _ _ _ _ _ _ d.isLt a.isLt b.isLt q.isLt (widthCode_lt w) (eTypeCode_lt t)
  exact of_V rfl (by decide) hx.2.2.2.2.2.2 (by rw [decodeV.eq_16, fin_ok d hx.1, fin_ok a hx.2.1, fin_ok b hx.2.2.1, fin_ok q hx.2.2.2.1, code_ok w ((congrArg widthOf hx.2.2.2.2.1).trans (widthOf_code w)), code_ok t ((congrArg eTypeOf hx.2.2.2.2.2.1).trans (eTypeOf_code t))])
theorem RoundTrip.vsubs (u : Twin) (d : VDst) (a : VReg) (b : VReg) (q : QReg) (w : Width) (t : EType) : RoundTrip.Statement (.vsubs u d a b q w t) := by
  intro _
  have hx := fields_8 _ _ _ _ _ _ d.isLt a.isLt b.isLt q.isLt (widthCode_lt w) (eTypeCode_lt t)
  exact of_V rfl (by decide) hx.2.2.2.2.2.2 (by rw [decodeV.eq_17, fin_ok d hx.1, fin_ok a hx.2.1, fin_ok b hx.2.2.1, fin_ok q hx.2.2.2.1, code_ok w ((congrArg widthOf hx.2.2.2.2.1).trans (widthOf_code w)), code_ok t ((congrArg eTypeOf hx.2.2.2.2.2.1).trans (eTypeOf_code t))])
theorem RoundTrip.vfadd (u : Twin) (d : VDst) (a : VReg) (b : VReg) (q : QReg) (w : Width) (f : FType) : RoundTrip.Statement (.vfadd u d a b q w f) := by
  intro _
  have hx := fields_11 _ _ _ _ _ _ d.isLt a.isLt b.isLt q.isLt (widthCode_lt w) (fTypeCode_lt f)
  exact of_V rfl (by decide) hx.2.2.2.2.2.2 (by rw [decodeV.eq_18, fin_ok d hx.1, fin_ok a hx.2.1, fin_ok b hx.2.2.1, fin_ok q hx.2.2.2.1, code_ok w ((congrArg widthOf hx.2.2.2.2.1).trans (widthOf_code w)), code_ok f ((congrArg fTypeOf hx.2.2.2.2.2.1).trans (fTypeOf_code f))])
theorem RoundTrip.vfsub (u : Twin) (d : VDst) (a : VReg) (b : VReg) (q : QReg) (w : Width) (f : FType) : RoundTrip.Statement (.vfsub u d a b q w f) := by
  intro _
  have hx := fields_11 _ _ _ _ _ _ d.isLt a.isLt b.isLt q.isLt (widthCode_lt w) (fTypeCode_lt f)
  exact of_V rfl (by decide) hx.2.2.2.2.2.2 (by rw [decodeV.eq_19, fin_ok d hx.1, fin_ok a hx.2.1, fin_ok b hx.2.2.1, fin_ok q hx.2.2.2.1, code_ok w ((congrArg widthOf hx.2.2.2.2.1).trans (widthOf_code w)), code_ok f ((congrArg fTypeOf hx.2.2.2.2.2.1).trans (fTypeOf_code f))])
theorem RoundTrip.vfmul (u : Twin) (d : VDst) (a : VReg) (b : VReg) (q : QReg) (w : Width) (f : FType) : RoundTrip.Statement (.vfmul u d a b q w f) := by
  intro _
  have hx := fields_11 _ _ _ _ _ _ d.isLt a.isLt b.isLt q.isLt (widthCode_lt w) (fTypeCode_lt f)
  exact of_V rfl (by decide) hx.2.2.2.2.2.2 (by rw [decodeV.eq_20, fin_ok d hx.1, fin_ok a hx.2.1, fin_ok b hx.2.2.1, fin_ok q hx.2.2.2.1, code_ok w ((congrArg widthOf hx.2.2.2.2.1).trans (widthOf_code w)), code_ok f ((congrArg fTypeOf hx.2.2.2.2.2.1).trans (fTypeOf_code f))])
theorem RoundTrip.vfma (u : Twin) (d : VDst) (a : VReg) (b : VReg) (q : QReg) (w : Width) (f : FType) : RoundTrip.Statement (.vfma u d a b q w f) := by
  intro _
  have hx := fields_11 _ _ _ _ _ _ d.isLt a.isLt b.isLt q.isLt (widthCode_lt w) (fTypeCode_lt f)
  exact of_V rfl (by decide) hx.2.2.2.2.2.2 (by rw [decodeV.eq_21, fin_ok d hx.1, fin_ok a hx.2.1, fin_ok b hx.2.2.1, fin_ok q hx.2.2.2.1, code_ok w ((congrArg widthOf hx.2.2.2.2.1).trans (widthOf_code w)), code_ok f ((congrArg fTypeOf hx.2.2.2.2.2.1).trans (fTypeOf_code f))])
theorem RoundTrip.vfms (u : Twin) (d : VDst) (a : VReg) (b : VReg) (q : QReg) (w : Width) (f : FType) : RoundTrip.Statement (.vfms u d a b q w f) := by
  intro _
  have hx := fields_11 _ _ _ _ _ _ d.isLt a.isLt b.isLt q.isLt (widthCode_lt w) (fTypeCode_lt f)
  exact of_V rfl (by decide) hx.2.2.2.2.2.2 (by rw [decodeV.eq_22, fin_ok d hx.1, fin_ok a hx.2.1, fin_ok b hx.2.2.1, fin_ok q hx.2.2.2.1, code_ok w ((congrArg widthOf hx.2.2.2.2.1).trans (widthOf_code w)), code_ok f ((congrArg fTypeOf hx.2.2.2.2.2.1).trans (fTypeOf_code f))])
theorem RoundTrip.vfmin (u : Twin) (d : VDst) (a : VReg) (b : VReg) (q : QReg) (w : Width) (f : FType) : RoundTrip.Statement (.vfmin u d a b q w f) := by
  intro _
  have hx := fields_11 _ _ _ _ _ _ d.isLt a.isLt b.isLt q.isLt (widthCode_lt w) (fTypeCode_lt f)
  exact of_V rfl (by decide) hx.2.2.2.2.2.2 (by rw [decodeV.eq_23, fin_ok d hx.1, fin_ok a hx.2.1, fin_ok b hx.2.2.1, fin_ok q hx.2.2.2.1, code_ok w ((congrArg widthOf hx.2.2.2.2.1).trans (widthOf_code w)), code_ok f ((congrArg fTypeOf hx.2.2.2.2.2.1).trans (fTypeOf_code f))])
theorem RoundTrip.vfmax (u : Twin) (d : VDst) (a : VReg) (b : VReg) (q : QReg) (w : Width) (f : FType) : RoundTrip.Statement (.vfmax u d a b q w f) := by
  intro _
  have hx := fields_11 _ _ _ _ _ _ d.isLt a.isLt b.isLt q.isLt (widthCode_lt w) (fTypeCode_lt f)
  exact of_V rfl (by decide) hx.2.2.2.2.2.2 (by rw [decodeV.eq_24, fin_ok d hx.1, fin_ok a hx.2.1, fin_ok b hx.2.2.1, fin_ok q hx.2.2.2.1, code_ok w ((congrArg widthOf hx.2.2.2.2.1).trans (widthOf_code w)), code_ok f ((congrArg fTypeOf hx.2.2.2.2.2.1).trans (fTypeOf_code f))])
theorem RoundTrip.vfabs (u : Twin) (d : VDst) (a : VReg) (q : QReg) (w : Width) (f : FType) : RoundTrip.Statement (.vfabs u d a q w f) := by
  intro _
  have hx := fields_12 _ _ _ _ _ d.isLt a.isLt q.isLt (widthCode_lt w) (fTypeCode_lt f)
  exact of_V rfl (by decide) hx.2.2.2.2.2.2 (by rw [decodeV.eq_25, zero_ok hx.1, fin_ok d hx.2.1, fin_ok a hx.2.2.1, fin_ok q hx.2.2.2.1, code_ok w ((congrArg widthOf hx.2.2.2.2.1).trans (widthOf_code w)), code_ok f ((congrArg fTypeOf hx.2.2.2.2.2.1).trans (fTypeOf_code f))])
theorem RoundTrip.vfneg (u : Twin) (d : VDst) (a : VReg) (q : QReg) (w : Width) (f : FType) : RoundTrip.Statement (.vfneg u d a q w f) := by
  intro _
  have hx := fields_12 _ _ _ _ _ d.isLt a.isLt q.isLt (widthCode_lt w) (fTypeCode_lt f)
  exact of_V rfl (by decide) hx.2.2.2.2.2.2 (by rw [decodeV.eq_26, zero_ok hx.1, fin_ok d hx.2.1, fin_ok a hx.2.2.1, fin_ok q hx.2.2.2.1, code_ok w ((congrArg widthOf hx.2.2.2.2.1).trans (widthOf_code w)), code_ok f ((congrArg fTypeOf hx.2.2.2.2.2.1).trans (fTypeOf_code f))])
theorem RoundTrip.vexp2 (u : Twin) (d : VDst) (a : VReg) (q : QReg) (w : Width) (f : FType) : RoundTrip.Statement (.vexp2 u d a q w f) := by
  intro _
  have hx := fields_12 _ _ _ _ _ d.isLt a.isLt q.isLt (widthCode_lt w) (fTypeCode_lt f)
  exact of_V rfl (by decide) hx.2.2.2.2.2.2 (by rw [decodeV.eq_27, zero_ok hx.1, fin_ok d hx.2.1, fin_ok a hx.2.2.1, fin_ok q hx.2.2.2.1, code_ok w ((congrArg widthOf hx.2.2.2.2.1).trans (widthOf_code w)), code_ok f ((congrArg fTypeOf hx.2.2.2.2.2.1).trans (fTypeOf_code f))])
theorem RoundTrip.vlog2 (u : Twin) (d : VDst) (a : VReg) (q : QReg) (w : Width) (f : FType) : RoundTrip.Statement (.vlog2 u d a q w f) := by
  intro _
  have hx := fields_12 _ _ _ _ _ d.isLt a.isLt q.isLt (widthCode_lt w) (fTypeCode_lt f)
  exact of_V rfl (by decide) hx.2.2.2.2.2.2 (by rw [decodeV.eq_28, zero_ok hx.1, fin_ok d hx.2.1, fin_ok a hx.2.2.1, fin_ok q hx.2.2.2.1, code_ok w ((congrArg widthOf hx.2.2.2.2.1).trans (widthOf_code w)), code_ok f ((congrArg fTypeOf hx.2.2.2.2.2.1).trans (fTypeOf_code f))])
theorem RoundTrip.vrcp (u : Twin) (d : VDst) (a : VReg) (q : QReg) (w : Width) (f : FType) : RoundTrip.Statement (.vrcp u d a q w f) := by
  intro _
  have hx := fields_12 _ _ _ _ _ d.isLt a.isLt q.isLt (widthCode_lt w) (fTypeCode_lt f)
  exact of_V rfl (by decide) hx.2.2.2.2.2.2 (by rw [decodeV.eq_29, zero_ok hx.1, fin_ok d hx.2.1, fin_ok a hx.2.2.1, fin_ok q hx.2.2.2.1, code_ok w ((congrArg widthOf hx.2.2.2.2.1).trans (widthOf_code w)), code_ok f ((congrArg fTypeOf hx.2.2.2.2.2.1).trans (fTypeOf_code f))])
theorem RoundTrip.vrsqrt (u : Twin) (d : VDst) (a : VReg) (q : QReg) (w : Width) (f : FType) : RoundTrip.Statement (.vrsqrt u d a q w f) := by
  intro _
  have hx := fields_12 _ _ _ _ _ d.isLt a.isLt q.isLt (widthCode_lt w) (fTypeCode_lt f)
  exact of_V rfl (by decide) hx.2.2.2.2.2.2 (by rw [decodeV.eq_30, zero_ok hx.1, fin_ok d hx.2.1, fin_ok a hx.2.2.1, fin_ok q hx.2.2.2.1, code_ok w ((congrArg widthOf hx.2.2.2.2.1).trans (widthOf_code w)), code_ok f ((congrArg fTypeOf hx.2.2.2.2.2.1).trans (fTypeOf_code f))])
theorem RoundTrip.vcmp (u : Twin) (d : QReg) (a : VReg) (b : VReg) (c : VCond) (w : Width) (t : EType) : RoundTrip.Statement (.vcmp u d a b c w t) := by
  intro hw
  have hf : (d != 0) = true := hw
  have hx := fields_13 _ _ _ _ _ _ d.isLt a.isLt b.isLt (vCondCode_lt c) (widthCode_lt w) (eTypeCode_lt t)
  exact of_V rfl (by decide) hx.2.2.2.2.2.2 (by rw [decodeV.eq_31, fin_ok d hx.1, fin_ok a hx.2.1, fin_ok b hx.2.2.1, code_ok c ((congrArg vCondOf hx.2.2.2.1).trans (vCondOf_code c)), code_ok w ((congrArg widthOf hx.2.2.2.2.1).trans (widthOf_code w)), code_ok t ((congrArg eTypeOf hx.2.2.2.2.2.1).trans (eTypeOf_code t)), need_ok hf])
theorem RoundTrip.vfcmp (u : Twin) (d : QReg) (a : VReg) (b : VReg) (c : FCond) (w : Width) (f : FType) : RoundTrip.Statement (.vfcmp u d a b c w f) := by
  intro hw
  have hf : (d != 0) = true := hw
  have hx := fields_14 _ _ _ _ _ _ d.isLt a.isLt b.isLt (fCondCode_lt c) (widthCode_lt w) (fTypeCode_lt f)
  exact of_V rfl (by decide) hx.2.2.2.2.2.2 (by rw [decodeV.eq_32, fin_ok d hx.1, fin_ok a hx.2.1, fin_ok b hx.2.2.1, code_ok c ((congrArg fCondOf hx.2.2.2.1).trans (fCondOf_code c)), code_ok w ((congrArg widthOf hx.2.2.2.2.1).trans (widthOf_code w)), code_ok f ((congrArg fTypeOf hx.2.2.2.2.2.1).trans (fTypeOf_code f)), need_ok hf])
theorem RoundTrip.qand (u : Twin) (d : QReg) (a : QReg) (b : QReg) (w : Width) : RoundTrip.Statement (.qand u d a b w) := by
  intro hw
  have hf : (d != 0) = true := hw
  have hx := fields_15 _ _ _ _ d.isLt a.isLt b.isLt (widthCode_lt w)
  exact of_V rfl (by decide) hx.2.2.2.2.2.2 (by rw [decodeV.eq_33, zero_ok hx.1, zero_ok hx.2.1, fin_ok d hx.2.2.1, fin_ok a hx.2.2.2.1, fin_ok b hx.2.2.2.2.1, code_ok w ((congrArg widthOf hx.2.2.2.2.2.1).trans (widthOf_code w)), need_ok hf])
theorem RoundTrip.qor (u : Twin) (d : QReg) (a : QReg) (b : QReg) (w : Width) : RoundTrip.Statement (.qor u d a b w) := by
  intro hw
  have hf : (d != 0) = true := hw
  have hx := fields_15 _ _ _ _ d.isLt a.isLt b.isLt (widthCode_lt w)
  exact of_V rfl (by decide) hx.2.2.2.2.2.2 (by rw [decodeV.eq_34, zero_ok hx.1, zero_ok hx.2.1, fin_ok d hx.2.2.1, fin_ok a hx.2.2.2.1, fin_ok b hx.2.2.2.2.1, code_ok w ((congrArg widthOf hx.2.2.2.2.2.1).trans (widthOf_code w)), need_ok hf])
theorem RoundTrip.qxor (u : Twin) (d : QReg) (a : QReg) (b : QReg) (w : Width) : RoundTrip.Statement (.qxor u d a b w) := by
  intro hw
  have hf : (d != 0) = true := hw
  have hx := fields_15 _ _ _ _ d.isLt a.isLt b.isLt (widthCode_lt w)
  exact of_V rfl (by decide) hx.2.2.2.2.2.2 (by rw [decodeV.eq_35, zero_ok hx.1, zero_ok hx.2.1, fin_ok d hx.2.2.1, fin_ok a hx.2.2.2.1, fin_ok b hx.2.2.2.2.1, code_ok w ((congrArg widthOf hx.2.2.2.2.2.1).trans (widthOf_code w)), need_ok hf])
theorem RoundTrip.qnot (u : Twin) (d : QReg) (a : QReg) (w : Width) : RoundTrip.Statement (.qnot u d a w) := by
  intro hw
  have hf : (d != 0) = true := hw
  have hx := fields_16 _ _ _ d.isLt a.isLt (widthCode_lt w)
  exact of_V rfl (by decide) hx.2.2.2.2.2 (by rw [decodeV.eq_36, zero_ok hx.1, zero_ok hx.2.1, fin_ok d hx.2.2.1, fin_ok a hx.2.2.2.1, code_ok w ((congrArg widthOf hx.2.2.2.2.1).trans (widthOf_code w)), need_ok hf])
theorem RoundTrip.qcnt (u : Twin) (d : SDst) (a : QReg) (w : Width) : RoundTrip.Statement (.qcnt u d a w) := by
  intro _
  have hx := fields_17 _ _ _ d.isLt a.isLt (widthCode_lt w)
  exact of_V rfl (by decide) hx.2.2.2.2.2 (by rw [decodeV.eq_37, zero_ok hx.1, zero_ok hx.2.1, fin_ok d hx.2.2.1, fin_ok a hx.2.2.2.1, code_ok w ((congrArg widthOf hx.2.2.2.2.1).trans (widthOf_code w))])
theorem RoundTrip.vsel (u : Twin) (d : VDst) (a : VReg) (b : VReg) (q : QReg) (w : Width) : RoundTrip.Statement (.vsel u d a b q w) := by
  intro _
  have hx := fields_10 _ _ _ _ _ d.isLt a.isLt b.isLt q.isLt (widthCode_lt w)
  exact of_V rfl (by decide) hx.2.2.2.2.2.2 (by rw [decodeV.eq_38, zero_ok hx.1, fin_ok d hx.2.1, fin_ok a hx.2.2.1, fin_ok b hx.2.2.2.1, fin_ok q hx.2.2.2.2.1, code_ok w ((congrArg widthOf hx.2.2.2.2.2.1).trans (widthOf_code w))])
theorem RoundTrip.vcvt (u : Twin) (d : VDst) (a : VReg) (c : (Fin 32)) (q : QReg) (w : Width) (m : RMode) : RoundTrip.Statement (.vcvt u d a c q w m) := by
  intro hw
  have hf : (cvtRounds c || m == .rne) = true := hw
  have hx := fields_8 _ _ _ _ _ _ d.isLt a.isLt c.isLt q.isLt (widthCode_lt w) (rModeCode_lt m)
  exact of_V rfl (by decide) hx.2.2.2.2.2.2 (by rw [decodeV.eq_39, fin_ok d hx.1, fin_ok a hx.2.1, fin_ok c hx.2.2.1, fin_ok q hx.2.2.2.1, code_ok w ((congrArg widthOf hx.2.2.2.2.1).trans (widthOf_code w)), code_ok m ((congrArg rModeOf hx.2.2.2.2.2.1).trans (rModeOf_code m)), need_ok hf])
theorem RoundTrip.vbcast (u : Twin) (d : VDst) (a : SReg) (q : QReg) (w : Width) (t : EType) : RoundTrip.Statement (.vbcast u d a q w t) := by
  intro _
  have hx := fields_9 _ _ _ _ _ d.isLt a.isLt q.isLt (widthCode_lt w) (eTypeCode_lt t)
  exact of_V rfl (by decide) hx.2.2.2.2.2.2 (by rw [decodeV.eq_40, zero_ok hx.1, fin_ok d hx.2.1, fin_ok a hx.2.2.1, fin_ok q hx.2.2.2.1, code_ok w ((congrArg widthOf hx.2.2.2.2.1).trans (widthOf_code w)), code_ok t ((congrArg eTypeOf hx.2.2.2.2.2.1).trans (eTypeOf_code t))])
theorem RoundTrip.vext (u : Twin) (d : SDst) (a : VReg) (b : SReg) (w : Width) (t : EType) : RoundTrip.Statement (.vext u d a b w t) := by
  intro _
  have hx := fields_18 _ _ _ _ _ d.isLt a.isLt b.isLt (widthCode_lt w) (eTypeCode_lt t)
  exact of_V rfl (by decide) hx.2.2.2.2.2.2 (by rw [decodeV.eq_41, zero_ok hx.1, fin_ok d hx.2.1, fin_ok a hx.2.2.1, fin_ok b hx.2.2.2.1, code_ok w ((congrArg widthOf hx.2.2.2.2.1).trans (widthOf_code w)), code_ok t ((congrArg eTypeOf hx.2.2.2.2.2.1).trans (eTypeOf_code t))])
theorem RoundTrip.vperm (u : Twin) (d : VDst) (a : VReg) (b : VReg) (q : QReg) (w : Width) (t : EType) : RoundTrip.Statement (.vperm u d a b q w t) := by
  intro _
  have hx := fields_8 _ _ _ _ _ _ d.isLt a.isLt b.isLt q.isLt (widthCode_lt w) (eTypeCode_lt t)
  exact of_V rfl (by decide) hx.2.2.2.2.2.2 (by rw [decodeV.eq_42, fin_ok d hx.1, fin_ok a hx.2.1, fin_ok b hx.2.2.1, fin_ok q hx.2.2.2.1, code_ok w ((congrArg widthOf hx.2.2.2.2.1).trans (widthOf_code w)), code_ok t ((congrArg eTypeOf hx.2.2.2.2.2.1).trans (eTypeOf_code t))])
theorem RoundTrip.vred (u : Twin) (d : VDst) (a : VReg) (o : RedOp) (q : QReg) (w : Width) : RoundTrip.Statement (.vred u d a o q w) := by
  intro _
  have hx := fields_19 _ _ _ _ _ _ d.isLt a.isLt (redOpB_lt o) (redOpM_lt o) q.isLt (widthCode_lt w)
  exact of_V rfl (by decide) hx.2.2.2.2.2.2 (by rw [decodeV.eq_43, fin_ok d hx.1, fin_ok a hx.2.1, code_ok o ((congrArg₂ redOpOf hx.2.2.1 hx.2.2.2.1).trans (redOpOf_code o)), fin_ok q hx.2.2.2.2.1, code_ok w ((congrArg widthOf hx.2.2.2.2.2.1).trans (widthOf_code w))])
theorem RoundTrip.vscan (u : Twin) (d : VDst) (a : VReg) (o : RedOp) (q : QReg) (w : Width) : RoundTrip.Statement (.vscan u d a o q w) := by
  intro _
  have hx := fields_19 _ _ _ _ _ _ d.isLt a.isLt (redOpB_lt o) (redOpM_lt o) q.isLt (widthCode_lt w)
  exact of_V rfl (by decide) hx.2.2.2.2.2.2 (by rw [decodeV.eq_44, fin_ok d hx.1, fin_ok a hx.2.1, code_ok o ((congrArg₂ redOpOf hx.2.2.1 hx.2.2.2.1).trans (redOpOf_code o)), fin_ok q hx.2.2.2.2.1, code_ok w ((congrArg widthOf hx.2.2.2.2.2.1).trans (widthOf_code w))])
theorem RoundTrip.vpack (u : Twin) (d : VDst) (a : VReg) (q : QReg) (w : Width) : RoundTrip.Statement (.vpack u d a q w) := by
  intro _
  have hx := fields_20 _ _ _ _ d.isLt a.isLt q.isLt (widthCode_lt w)
  exact of_V rfl (by decide) hx.2.2.2.2.2.2 (by rw [decodeV.eq_45, zero_ok hx.1, zero_ok hx.2.1, fin_ok d hx.2.2.1, fin_ok a hx.2.2.2.1, fin_ok q hx.2.2.2.2.1, code_ok w ((congrArg widthOf hx.2.2.2.2.2.1).trans (widthOf_code w))])
theorem RoundTrip.vunpack (u : Twin) (d : VDst) (a : VReg) (b : SReg) (q : QReg) (w : Width) (f : FType) : RoundTrip.Statement (.vunpack u d a b q w f) := by
  intro _
  have hx := fields_11 _ _ _ _ _ _ d.isLt a.isLt b.isLt q.isLt (widthCode_lt w) (fTypeCode_lt f)
  exact of_V rfl (by decide) hx.2.2.2.2.2.2 (by rw [decodeV.eq_46, fin_ok d hx.1, fin_ok a hx.2.1, fin_ok b hx.2.2.1, fin_ok q hx.2.2.2.1, code_ok w ((congrArg widthOf hx.2.2.2.2.1).trans (widthOf_code w)), code_ok f ((congrArg fTypeOf hx.2.2.2.2.2.1).trans (fTypeOf_code f))])
theorem RoundTrip.vchk (u : Twin) (a : VReg) (b : VReg) (q : QReg) (w : Width) (c : ChkOp) : RoundTrip.Statement (.vchk u a b q w c) := by
  intro _
  have hx := fields_21 _ _ _ _ _ a.isLt b.isLt q.isLt (widthCode_lt w) (chkCode_lt c)
  exact of_V rfl (by decide) hx.2.2.2.2.2.2 (by rw [decodeV.eq_47, zero_ok hx.1, fin_ok a hx.2.1, fin_ok b hx.2.2.1, fin_ok q hx.2.2.2.1, code_ok w ((congrArg widthOf hx.2.2.2.2.1).trans (widthOf_code w)), code_ok c ((congrArg chkOf hx.2.2.2.2.2.1).trans (chkOf_code c))])
theorem RoundTrip.ldLS (d : SDst) (a : SReg) (off : (BitVec 12)) : RoundTrip.Statement (.ldLS d a off) := by
  intro _
  have hx := fields_5 _ _ _ d.isLt a.isLt off.isLt
  exact of_AG rfl (by decide) hx.2.2.2 (by rw [decodeAG.eq_1, fin_ok d hx.1, fin_ok a hx.2.1, bits_ok off hx.2.2.1])
theorem RoundTrip.ldLV (d : VDst) (a : SReg) (off : (BitVec 12)) : RoundTrip.Statement (.ldLV d a off) := by
  intro _
  have hx := fields_5 _ _ _ d.isLt a.isLt off.isLt
  exact of_AG rfl (by decide) hx.2.2.2 (by rw [decodeAG.eq_2, fin_ok d hx.1, fin_ok a hx.2.1, bits_ok off hx.2.2.1])
theorem RoundTrip.stLS (d : SReg) (a : SReg) (off : (BitVec 12)) : RoundTrip.Statement (.stLS d a off) := by
  intro _
  have hx := fields_22 _ _ _ d.isLt a.isLt off.isLt
  exact of_AG rfl (by decide) hx.2.2.2 (by rw [decodeAG.eq_3, fin_ok d hx.1, fin_ok a hx.2.1, bits_ok off hx.2.2.1])
theorem RoundTrip.stLV (d : VReg) (a : SReg) (off : (BitVec 12)) : RoundTrip.Statement (.stLV d a off) := by
  intro _
  have hx := fields_22 _ _ _ d.isLt a.isLt off.isLt
  exact of_AG rfl (by decide) hx.2.2.2 (by rw [decodeAG.eq_4, fin_ok d hx.1, fin_ok a hx.2.1, bits_ok off hx.2.2.1])
theorem RoundTrip.ldQS (d : SDst) (a : SReg) (off : (BitVec 12)) : RoundTrip.Statement (.ldQS d a off) := by
  intro _
  have hx := fields_5 _ _ _ d.isLt a.isLt off.isLt
  exact of_AG rfl (by decide) hx.2.2.2 (by rw [decodeAG.eq_5, fin_ok d hx.1, fin_ok a hx.2.1, bits_ok off hx.2.2.1])
theorem RoundTrip.ldQV (d : VDst) (a : SReg) (off : (BitVec 12)) : RoundTrip.Statement (.ldQV d a off) := by
  intro _
  have hx := fields_5 _ _ _ d.isLt a.isLt off.isLt
  exact of_AG rfl (by decide) hx.2.2.2 (by rw [decodeAG.eq_6, fin_ok d hx.1, fin_ok a hx.2.1, bits_ok off hx.2.2.1])
theorem RoundTrip.stQS (d : SReg) (a : SReg) (off : (BitVec 12)) : RoundTrip.Statement (.stQS d a off) := by
  intro _
  have hx := fields_22 _ _ _ d.isLt a.isLt off.isLt
  exact of_AG rfl (by decide) hx.2.2.2 (by rw [decodeAG.eq_7, fin_ok d hx.1, fin_ok a hx.2.1, bits_ok off hx.2.2.1])
theorem RoundTrip.stQV (d : VReg) (a : SReg) (off : (BitVec 12)) : RoundTrip.Statement (.stQV d a off) := by
  intro _
  have hx := fields_22 _ _ _ d.isLt a.isLt off.isLt
  exact of_AG rfl (by decide) hx.2.2.2 (by rw [decodeAG.eq_8, fin_ok d hx.1, fin_ok a hx.2.1, bits_ok off hx.2.2.1])
theorem RoundTrip.ldt (a : SReg) (b : SReg) (v : Bool) : RoundTrip.Statement (.ldt a b v) := by
  intro _
  have hx := fields_23 _ _ _ a.isLt b.isLt v.toNat_lt
  exact of_AG rfl (by decide) hx.2.2.2.2.2.2 (by rw [decodeAG.eq_9, zero_ok hx.1, zero_ok hx.2.1, fin_ok a hx.2.2.1, fin_ok b hx.2.2.2.1, zero_ok hx.2.2.2.2.1, flag_ok v hx.2.2.2.2.2.1])
theorem RoundTrip.stt (d : (Fin 32)) (a : SReg) (b : SReg) (v : Bool) : RoundTrip.Statement (.stt d a b v) := by
  intro _
  have hx := fields_24 _ _ _ _ d.isLt a.isLt b.isLt v.toNat_lt
  exact of_AG rfl (by decide) hx.2.2.2.2.2.2 (by rw [decodeAG.eq_10, zero_ok hx.1, fin_ok d hx.2.1, fin_ok a hx.2.2.1, fin_ok b hx.2.2.2.1, zero_ok hx.2.2.2.2.1, flag_ok v hx.2.2.2.2.2.1])
theorem RoundTrip.ldg (a : SReg) (v : Bool) (off : (BitVec 11)) : RoundTrip.Statement (.ldg a v off) := by
  intro _
  have hx := fields_25 _ _ _ a.isLt v.toNat_lt off.isLt
  exact of_AG rfl (by decide) hx.2.2.2.2 (by rw [decodeAG.eq_11, zero_ok hx.1, fin_ok a hx.2.1, flag_ok v hx.2.2.1, bits_ok off hx.2.2.2.1])
theorem RoundTrip.stg (d : (Fin 32)) (a : SReg) (v : Bool) (off : (BitVec 11)) : RoundTrip.Statement (.stg d a v off) := by
  intro _
  have hx := fields_26 _ _ _ _ d.isLt a.isLt v.toNat_lt off.isLt
  exact of_AG rfl (by decide) hx.2.2.2.2 (by rw [decodeAG.eq_12, fin_ok d hx.1, fin_ok a hx.2.1, flag_ok v hx.2.2.1, bits_ok off hx.2.2.2.1])
theorem RoundTrip.tagq (d : SDst) (a : SReg) (q : QReg) : RoundTrip.Statement (.tagq d a q) := by
  intro _
  have hx := fields_1 _ _ _ d.isLt a.isLt q.isLt
  exact of_AG rfl (by decide) hx.2.2.2.2.2 (by rw [decodeAG.eq_13, zero_ok hx.1, zero_ok hx.2.1, fin_ok d hx.2.2.1, fin_ok a hx.2.2.2.1, fin_ok q hx.2.2.2.2.1])
theorem RoundTrip.tagset (a : SReg) (b : SReg) (q : QReg) : RoundTrip.Statement (.tagset a b q) := by
  intro _
  have hx := fields_27 _ _ _ a.isLt b.isLt q.isLt
  exact of_AG rfl (by decide) hx.2.2.2.2.2 (by rw [decodeAG.eq_14, zero_ok hx.1, zero_ok hx.2.1, fin_ok a hx.2.2.1, fin_ok b hx.2.2.2.1, fin_ok q hx.2.2.2.2.1])
theorem RoundTrip.tagclr (a : SReg) (q : QReg) : RoundTrip.Statement (.tagclr a q) := by
  intro _
  have hx := fields_28 _ _ a.isLt q.isLt
  exact of_AG rfl (by decide) hx.2.2.2.2.2.2 (by rw [decodeAG.eq_15, if_neg (by rw [hx.1]; decide), zero_ok hx.2.1, zero_ok hx.2.2.1, zero_ok hx.2.2.2.1, fin_ok a hx.2.2.2.2.1, fin_ok q hx.2.2.2.2.2.1])
theorem RoundTrip.tagclrAll (q : QReg) : RoundTrip.Statement (.tagclrAll q) := by
  intro _
  have hx := fields_29 _ q.isLt
  exact of_AG rfl (by decide) hx.2.2.2.2 (by rw [decodeAG.eq_15, if_pos hx.1, zero_ok hx.2.1, zero_ok hx.2.2.1, fin_ok q hx.2.2.2.1])
theorem RoundTrip.atomAdd (a : SReg) (b : SReg) (sc : Scope) (ret : Bool) (t : AType) : RoundTrip.Statement (.atomAdd a b sc ret t) := by
  intro hw
  have hf : (sc != .lane) = true := hw
  have hl : sc ≠ .lane := by rintro rfl; revert hw; simp [Instr.wellFormed]
  have hx := fields_30 _ _ _ _ _ a.isLt b.isLt (scopeQCode_lt sc) ret.toNat_lt (aTypeCode_lt t)
  exact of_AG rfl (by decide) hx.2.2.2.2.2.2.2 (by rw [decodeAG.eq_16, zero_ok hx.1, fin_ok a hx.2.1, fin_ok b hx.2.2.1, code_ok sc ((congrArg scopeQOf hx.2.2.2.1).trans (scopeQOf_code sc hl)), zero_ok hx.2.2.2.2.1, flag_ok ret hx.2.2.2.2.2.1, code_ok t ((congrArg aTypeOf hx.2.2.2.2.2.2.1).trans (aTypeOf_code t)), need_ok hf])
theorem RoundTrip.atomMin (a : SReg) (b : SReg) (sc : Scope) (ret : Bool) (t : AType) : RoundTrip.Statement (.atomMin a b sc ret t) := by
  intro hw
  have hf : (sc != .lane) = true := hw
  have hl : sc ≠ .lane := by rintro rfl; revert hw; simp [Instr.wellFormed]
  have hx := fields_30 _ _ _ _ _ a.isLt b.isLt (scopeQCode_lt sc) ret.toNat_lt (aTypeCode_lt t)
  exact of_AG rfl (by decide) hx.2.2.2.2.2.2.2 (by rw [decodeAG.eq_17, zero_ok hx.1, fin_ok a hx.2.1, fin_ok b hx.2.2.1, code_ok sc ((congrArg scopeQOf hx.2.2.2.1).trans (scopeQOf_code sc hl)), zero_ok hx.2.2.2.2.1, flag_ok ret hx.2.2.2.2.2.1, code_ok t ((congrArg aTypeOf hx.2.2.2.2.2.2.1).trans (aTypeOf_code t)), need_ok hf])
theorem RoundTrip.atomMax (a : SReg) (b : SReg) (sc : Scope) (ret : Bool) (t : AType) : RoundTrip.Statement (.atomMax a b sc ret t) := by
  intro hw
  have hf : (sc != .lane) = true := hw
  have hl : sc ≠ .lane := by rintro rfl; revert hw; simp [Instr.wellFormed]
  have hx := fields_30 _ _ _ _ _ a.isLt b.isLt (scopeQCode_lt sc) ret.toNat_lt (aTypeCode_lt t)
  exact of_AG rfl (by decide) hx.2.2.2.2.2.2.2 (by rw [decodeAG.eq_18, zero_ok hx.1, fin_ok a hx.2.1, fin_ok b hx.2.2.1, code_ok sc ((congrArg scopeQOf hx.2.2.2.1).trans (scopeQOf_code sc hl)), zero_ok hx.2.2.2.2.1, flag_ok ret hx.2.2.2.2.2.1, code_ok t ((congrArg aTypeOf hx.2.2.2.2.2.2.1).trans (aTypeOf_code t)), need_ok hf])
theorem RoundTrip.atomAnd (a : SReg) (b : SReg) (sc : Scope) (ret : Bool) (t : AType) : RoundTrip.Statement (.atomAnd a b sc ret t) := by
  intro hw
  have hf : (sc != .lane && t != .f32) = true := hw
  have hl : sc ≠ .lane := by rintro rfl; revert hw; simp [Instr.wellFormed]
  have hx := fields_30 _ _ _ _ _ a.isLt b.isLt (scopeQCode_lt sc) ret.toNat_lt (aTypeCode_lt t)
  exact of_AG rfl (by decide) hx.2.2.2.2.2.2.2 (by rw [decodeAG.eq_19, zero_ok hx.1, fin_ok a hx.2.1, fin_ok b hx.2.2.1, code_ok sc ((congrArg scopeQOf hx.2.2.2.1).trans (scopeQOf_code sc hl)), zero_ok hx.2.2.2.2.1, flag_ok ret hx.2.2.2.2.2.1, code_ok t ((congrArg aTypeOf hx.2.2.2.2.2.2.1).trans (aTypeOf_code t)), need_ok hf])
theorem RoundTrip.atomOr (a : SReg) (b : SReg) (sc : Scope) (ret : Bool) (t : AType) : RoundTrip.Statement (.atomOr a b sc ret t) := by
  intro hw
  have hf : (sc != .lane && t != .f32) = true := hw
  have hl : sc ≠ .lane := by rintro rfl; revert hw; simp [Instr.wellFormed]
  have hx := fields_30 _ _ _ _ _ a.isLt b.isLt (scopeQCode_lt sc) ret.toNat_lt (aTypeCode_lt t)
  exact of_AG rfl (by decide) hx.2.2.2.2.2.2.2 (by rw [decodeAG.eq_20, zero_ok hx.1, fin_ok a hx.2.1, fin_ok b hx.2.2.1, code_ok sc ((congrArg scopeQOf hx.2.2.2.1).trans (scopeQOf_code sc hl)), zero_ok hx.2.2.2.2.1, flag_ok ret hx.2.2.2.2.2.1, code_ok t ((congrArg aTypeOf hx.2.2.2.2.2.2.1).trans (aTypeOf_code t)), need_ok hf])
theorem RoundTrip.atomXor (a : SReg) (b : SReg) (sc : Scope) (ret : Bool) (t : AType) : RoundTrip.Statement (.atomXor a b sc ret t) := by
  intro hw
  have hf : (sc != .lane && t != .f32) = true := hw
  have hl : sc ≠ .lane := by rintro rfl; revert hw; simp [Instr.wellFormed]
  have hx := fields_30 _ _ _ _ _ a.isLt b.isLt (scopeQCode_lt sc) ret.toNat_lt (aTypeCode_lt t)
  exact of_AG rfl (by decide) hx.2.2.2.2.2.2.2 (by rw [decodeAG.eq_21, zero_ok hx.1, fin_ok a hx.2.1, fin_ok b hx.2.2.1, code_ok sc ((congrArg scopeQOf hx.2.2.2.1).trans (scopeQOf_code sc hl)), zero_ok hx.2.2.2.2.1, flag_ok ret hx.2.2.2.2.2.1, code_ok t ((congrArg aTypeOf hx.2.2.2.2.2.2.1).trans (aTypeOf_code t)), need_ok hf])
theorem RoundTrip.atomSwap (a : SReg) (b : SReg) (sc : Scope) (ret : Bool) (t : AType) : RoundTrip.Statement (.atomSwap a b sc ret t) := by
  intro hw
  have hf : (sc != .lane) = true := hw
  have hl : sc ≠ .lane := by rintro rfl; revert hw; simp [Instr.wellFormed]
  have hx := fields_30 _ _ _ _ _ a.isLt b.isLt (scopeQCode_lt sc) ret.toNat_lt (aTypeCode_lt t)
  exact of_AG rfl (by decide) hx.2.2.2.2.2.2.2 (by rw [decodeAG.eq_22, zero_ok hx.1, fin_ok a hx.2.1, fin_ok b hx.2.2.1, code_ok sc ((congrArg scopeQOf hx.2.2.2.1).trans (scopeQOf_code sc hl)), zero_ok hx.2.2.2.2.1, flag_ok ret hx.2.2.2.2.2.1, code_ok t ((congrArg aTypeOf hx.2.2.2.2.2.2.1).trans (aTypeOf_code t)), need_ok hf])
theorem RoundTrip.atomCas (d : SReg) (a : SReg) (b : SReg) (sc : Scope) (ret : Bool) (t : AType) : RoundTrip.Statement (.atomCas d a b sc ret t) := by
  intro hw
  have hf : (sc != .lane) = true := hw
  have hl : sc ≠ .lane := by rintro rfl; revert hw; simp [Instr.wellFormed]
  have hx := fields_31 _ _ _ _ _ _ d.isLt a.isLt b.isLt (scopeQCode_lt sc) ret.toNat_lt (aTypeCode_lt t)
  exact of_AG rfl (by decide) hx.2.2.2.2.2.2.2 (by rw [decodeAG.eq_23, fin_ok d hx.1, fin_ok a hx.2.1, fin_ok b hx.2.2.1, code_ok sc ((congrArg scopeQOf hx.2.2.2.1).trans (scopeQOf_code sc hl)), zero_ok hx.2.2.2.2.1, flag_ok ret hx.2.2.2.2.2.1, code_ok t ((congrArg aTypeOf hx.2.2.2.2.2.2.1).trans (aTypeOf_code t)), need_ok hf])
theorem RoundTrip.arrive (a : SReg) (b : SReg) (sc : Scope) (row : Bool) : RoundTrip.Statement (.arrive a b sc row) := by
  intro hw
  have hf : (sc != .lane) = true := hw
  have hl : sc ≠ .lane := by rintro rfl; revert hw; simp [Instr.wellFormed]
  have hx := fields_32 _ _ _ _ a.isLt b.isLt (scopeQCode_lt sc) row.toNat_lt
  exact of_AG rfl (by decide) hx.2.2.2.2.2.2.2 (by rw [decodeAG.eq_24, zero_ok hx.1, zero_ok hx.2.1, fin_ok a hx.2.2.1, fin_ok b hx.2.2.2.1, code_ok sc ((congrArg scopeQOf hx.2.2.2.2.1).trans (scopeQOf_code sc hl)), zero_ok hx.2.2.2.2.2.1, flag_ok row hx.2.2.2.2.2.2.1, need_ok hf])
theorem RoundTrip.waitp (d : SDst) (a : SReg) (b : SReg) (sc : Scope) : RoundTrip.Statement (.waitp d a b sc) := by
  intro hw
  have hf : (sc != .lane) = true := hw
  have hl : sc ≠ .lane := by rintro rfl; revert hw; simp [Instr.wellFormed]
  have hx := fields_0 _ _ _ _ d.isLt a.isLt b.isLt (scopeQCode_lt sc)
  exact of_AG rfl (by decide) hx.2.2.2.2.2 (by rw [decodeAG.eq_25, zero_ok hx.1, fin_ok d hx.2.1, fin_ok a hx.2.2.1, fin_ok b hx.2.2.2.1, code_ok sc ((congrArg scopeQOf hx.2.2.2.2.1).trans (scopeQOf_code sc hl)), need_ok hf])
theorem RoundTrip.acq (a : SReg) (sc : Scope) (row : Bool) : RoundTrip.Statement (.acq a sc row) := by
  intro hw
  have hf : (sc != .lane) = true := hw
  have hl : sc ≠ .lane := by rintro rfl; revert hw; simp [Instr.wellFormed]
  have hx := fields_33 _ _ _ a.isLt (scopeQCode_lt sc) row.toNat_lt
  exact of_AG rfl (by decide) hx.2.2.2.2.2.2.2 (by rw [decodeAG.eq_26, zero_ok hx.1, zero_ok hx.2.1, zero_ok hx.2.2.1, fin_ok a hx.2.2.2.1, code_ok sc ((congrArg scopeQOf hx.2.2.2.2.1).trans (scopeQOf_code sc hl)), zero_ok hx.2.2.2.2.2.1, flag_ok row hx.2.2.2.2.2.2.1, need_ok hf])
theorem RoundTrip.rel (a : SReg) (sc : Scope) (row : Bool) : RoundTrip.Statement (.rel a sc row) := by
  intro hw
  have hf : (sc != .lane) = true := hw
  have hl : sc ≠ .lane := by rintro rfl; revert hw; simp [Instr.wellFormed]
  have hx := fields_33 _ _ _ a.isLt (scopeQCode_lt sc) row.toNat_lt
  exact of_AG rfl (by decide) hx.2.2.2.2.2.2.2 (by rw [decodeAG.eq_27, zero_ok hx.1, zero_ok hx.2.1, zero_ok hx.2.2.1, fin_ok a hx.2.2.2.1, code_ok sc ((congrArg scopeQOf hx.2.2.2.2.1).trans (scopeQOf_code sc hl)), zero_ok hx.2.2.2.2.2.1, flag_ok row hx.2.2.2.2.2.2.1, need_ok hf])
theorem RoundTrip.discard (a : SReg) (b : SReg) (n : (Fin 11)) : RoundTrip.Statement (.discard a b n) := by
  intro _
  have hx := fields_34 _ _ _ a.isLt b.isLt n.isLt
  exact of_AG rfl (by decide) hx.2.2.2.2.2 (by rw [decodeAG.eq_28, zero_ok hx.1, zero_ok hx.2.1, fin_ok a hx.2.2.1, fin_ok b hx.2.2.2.1, fin_ok n hx.2.2.2.2.1])
theorem RoundTrip.pref (a : SReg) (b : SReg) (w : Bool) (n : (Fin 11)) : RoundTrip.Statement (.pref a b w n) := by
  intro _
  have hx := fields_35 _ _ _ _ a.isLt b.isLt w.toNat_lt n.isLt
  exact of_AG rfl (by decide) hx.2.2.2.2.2.2 (by rw [decodeAG.eq_29, zero_ok hx.1, fin_ok a hx.2.1, fin_ok b hx.2.2.1, zero_ok hx.2.2.2.1, flag_ok w hx.2.2.2.2.1, fin_ok n hx.2.2.2.2.2.1])
theorem RoundTrip.vpush (d : Reel) (a : VReg) (p : (Fin 4)) : RoundTrip.Statement (.vpush d a p) := by
  intro _
  have hx := fields_36 _ _ _ d.isLt a.isLt p.isLt
  exact of_AG rfl (by decide) hx.2.2.2.2 (by rw [decodeAG.eq_30, zero_ok hx.1, fin_ok d hx.2.1, fin_ok a hx.2.2.1, fin_ok p hx.2.2.2.1])
theorem RoundTrip.mma (d : TReg) (a : Reel) (b : Reel) (kb : Bool) (ka : Bool) : RoundTrip.Statement (.mma d a b kb ka) := by
  intro hw
  have hf : (a != b) = true := hw
  have hx := fields_37 _ _ _ _ _ d.isLt a.isLt b.isLt kb.toNat_lt ka.toNat_lt
  exact of_MX rfl (by decide) hx.2.2.2.2.2.2 (by rw [decodeMX.eq_1, zero_ok hx.1, fin_ok d hx.2.1, fin_ok a hx.2.2.1, fin_ok b hx.2.2.2.1, flag_ok kb hx.2.2.2.2.1, flag_ok ka hx.2.2.2.2.2.1, need_ok hf])
theorem RoundTrip.mmaZ (d : TReg) (a : Reel) (b : Reel) (kb : Bool) (ka : Bool) : RoundTrip.Statement (.mmaZ d a b kb ka) := by
  intro hw
  have hf : (a != b) = true := hw
  have hx := fields_37 _ _ _ _ _ d.isLt a.isLt b.isLt kb.toNat_lt ka.toNat_lt
  exact of_MX rfl (by decide) hx.2.2.2.2.2.2 (by rw [decodeMX.eq_2, zero_ok hx.1, fin_ok d hx.2.1, fin_ok a hx.2.2.1, fin_ok b hx.2.2.2.1, flag_ok kb hx.2.2.2.2.1, flag_ok ka hx.2.2.2.2.2.1, need_ok hf])
theorem RoundTrip.mmaSat (d : TReg) (a : Reel) (b : Reel) (kb : Bool) (ka : Bool) : RoundTrip.Statement (.mmaSat d a b kb ka) := by
  intro hw
  have hf : (a != b) = true := hw
  have hx := fields_37 _ _ _ _ _ d.isLt a.isLt b.isLt kb.toNat_lt ka.toNat_lt
  exact of_MX rfl (by decide) hx.2.2.2.2.2.2 (by rw [decodeMX.eq_3, zero_ok hx.1, fin_ok d hx.2.1, fin_ok a hx.2.2.1, fin_ok b hx.2.2.2.1, flag_ok kb hx.2.2.2.2.1, flag_ok ka hx.2.2.2.2.2.1, need_ok hf])
theorem RoundTrip.mmaN (d : TReg) (kb : Bool) (ka : Bool) (a : Reel) (z : Bool) (b : Reel) (n : (Fin 256)) : RoundTrip.Statement (.mmaN d kb ka a z b n) := by
  intro hw
  have hf : (a != b) = true := hw
  have hx := fields_38 _ _ _ _ _ _ _ d.isLt kb.toNat_lt ka.toNat_lt a.isLt z.toNat_lt b.isLt n.isLt
  exact of_MX rfl (by decide) hx.2.2.2.2.2.2.2 (by rw [decodeMX.eq_4, fin_ok d hx.1, flag_ok kb hx.2.1, flag_ok ka hx.2.2.1, fin_ok a hx.2.2.2.1, flag_ok z hx.2.2.2.2.1, fin_ok b hx.2.2.2.2.2.1, fin_ok n hx.2.2.2.2.2.2.1, need_ok hf])
theorem RoundTrip.tcfg (d : TReg) (t : TType) (c : (Fin 16)) (r : (Fin 16)) : RoundTrip.Statement (.tcfg d t c r) := by
  intro _
  have hx := fields_39 _ _ _ _ d.isLt (tTypeCode_lt t) c.isLt r.isLt
  exact of_MX rfl (by decide) hx.2.2.2.2.2 (by rw [decodeMX.eq_5, zero_ok hx.1, fin_ok d hx.2.1, code_ok t ((congrArg tTypeOf hx.2.2.1).trans (tTypeOf_code t)), fin_ok c hx.2.2.2.1, fin_ok r hx.2.2.2.2.1])
theorem RoundTrip.tzero (d : TReg) : RoundTrip.Statement (.tzero d) := by
  intro _
  have hx := fields_40 _ d.isLt
  exact of_MX rfl (by decide) hx.2.2 (by rw [decodeMX.eq_6, zero_ok hx.1, fin_ok d hx.2.1])
theorem RoundTrip.trowW (d : TReg) (a : VReg) (i : (Fin 16)) (q : QReg) (hi : Bool) : RoundTrip.Statement (.trowW d a i q hi) := by
  intro _
  have hx := fields_41 _ _ _ _ _ d.isLt a.isLt i.isLt q.isLt hi.toNat_lt
  exact of_MX rfl (by decide) hx.2.2.2.2.2.2.2 (by rw [decodeMX.eq_7, zero_ok hx.1, fin_ok d hx.2.1, fin_ok a hx.2.2.1, fin_ok i hx.2.2.2.1, fin_ok q hx.2.2.2.2.1, zero_ok hx.2.2.2.2.2.1, flag_ok hi hx.2.2.2.2.2.2.1])
theorem RoundTrip.trowR (d : VDst) (a : TReg) (i : (Fin 16)) (q : QReg) (hi : Bool) : RoundTrip.Statement (.trowR d a i q hi) := by
  intro _
  have hx := fields_42 _ _ _ _ _ d.isLt a.isLt i.isLt q.isLt hi.toNat_lt
  exact of_MX rfl (by decide) hx.2.2.2.2.2.2.2 (by rw [decodeMX.eq_8, zero_ok hx.1, fin_ok d hx.2.1, fin_ok a hx.2.2.1, fin_ok i hx.2.2.2.1, fin_ok q hx.2.2.2.2.1, zero_ok hx.2.2.2.2.2.1, flag_ok hi hx.2.2.2.2.2.2.1])
theorem RoundTrip.tcolW (d : TReg) (a : VReg) (i : (Fin 16)) (q : QReg) (hi : Bool) : RoundTrip.Statement (.tcolW d a i q hi) := by
  intro _
  have hx := fields_41 _ _ _ _ _ d.isLt a.isLt i.isLt q.isLt hi.toNat_lt
  exact of_MX rfl (by decide) hx.2.2.2.2.2.2.2 (by rw [decodeMX.eq_9, zero_ok hx.1, fin_ok d hx.2.1, fin_ok a hx.2.2.1, fin_ok i hx.2.2.2.1, fin_ok q hx.2.2.2.2.1, zero_ok hx.2.2.2.2.2.1, flag_ok hi hx.2.2.2.2.2.2.1])
theorem RoundTrip.tcolR (d : VDst) (a : TReg) (i : (Fin 16)) (q : QReg) (hi : Bool) : RoundTrip.Statement (.tcolR d a i q hi) := by
  intro _
  have hx := fields_42 _ _ _ _ _ d.isLt a.isLt i.isLt q.isLt hi.toNat_lt
  exact of_MX rfl (by decide) hx.2.2.2.2.2.2.2 (by rw [decodeMX.eq_10, zero_ok hx.1, fin_ok d hx.2.1, fin_ok a hx.2.2.1, fin_ok i hx.2.2.2.1, fin_ok q hx.2.2.2.2.1, zero_ok hx.2.2.2.2.2.1, flag_ok hi hx.2.2.2.2.2.2.1])
theorem RoundTrip.tld (d : TReg) (a : SReg) (b : SReg) : RoundTrip.Statement (.tld d a b) := by
  intro _
  have hx := fields_43 _ _ _ d.isLt a.isLt b.isLt
  exact of_MX rfl (by decide) hx.2.2.2.2 (by rw [decodeMX.eq_11, zero_ok hx.1, fin_ok d hx.2.1, fin_ok a hx.2.2.1, fin_ok b hx.2.2.2.1])
theorem RoundTrip.tst (d : TReg) (a : SReg) (b : SReg) : RoundTrip.Statement (.tst d a b) := by
  intro _
  have hx := fields_43 _ _ _ d.isLt a.isLt b.isLt
  exact of_MX rfl (by decide) hx.2.2.2.2 (by rw [decodeMX.eq_12, zero_ok hx.1, fin_ok d hx.2.1, fin_ok a hx.2.2.1, fin_ok b hx.2.2.2.1])
theorem RoundTrip.cpyIn (d : SReg) (a : SReg) (b : SReg) (h : (Fin 4)) (n : (Fin 8)) : RoundTrip.Statement (.cpyIn d a b h n) := by
  intro _
  have hx := fields_44 _ _ _ _ _ d.isLt a.isLt b.isLt h.isLt n.isLt
  exact of_CX rfl (by decide) hx.2.2.2.2.2 (by rw [decodeCX.eq_1, if_neg (by have := n.isLt; omega), fin_ok d hx.2.1, fin_ok a hx.2.2.1, fin_ok b hx.2.2.2.1, fin_ok h hx.2.2.2.2.1, fin_ok n hx.1])
theorem RoundTrip.cpyInR (d : Reel) (a : SReg) (b : SReg) (h : (Fin 4)) : RoundTrip.Statement (.cpyInR d a b h) := by
  intro _
  have hx := fields_45 _ _ _ _ d.isLt a.isLt b.isLt h.isLt
  exact of_CX rfl (by decide) hx.2.2.2.2.2 (by rw [decodeCX.eq_1, if_pos hx.1, fin_ok d hx.2.1, fin_ok a hx.2.2.1, fin_ok b hx.2.2.2.1, fin_ok h hx.2.2.2.2.1])
theorem RoundTrip.cpyOut (d : SReg) (a : SReg) (b : SReg) (h : (Fin 4)) (n : (Fin 8)) : RoundTrip.Statement (.cpyOut d a b h n) := by
  intro _
  have hx := fields_46 _ _ _ _ _ d.isLt a.isLt b.isLt h.isLt n.isLt
  exact of_CX rfl (by decide) hx.2.2.2.2.2 (by rw [decodeCX.eq_2, fin_ok d hx.1, fin_ok a hx.2.1, fin_ok b hx.2.2.1, fin_ok h hx.2.2.2.1, fin_ok n hx.2.2.2.2.1])
theorem RoundTrip.cpyGat (d : SReg) (a : SReg) (b : SReg) (h : (Fin 4)) (n : (Fin 8)) : RoundTrip.Statement (.cpyGat d a b h n) := by
  intro _
  have hx := fields_46 _ _ _ _ _ d.isLt a.isLt b.isLt h.isLt n.isLt
  exact of_CX rfl (by decide) hx.2.2.2.2.2 (by rw [decodeCX.eq_3, fin_ok d hx.1, fin_ok a hx.2.1, fin_ok b hx.2.2.1, fin_ok h hx.2.2.2.1, fin_ok n hx.2.2.2.2.1])
theorem RoundTrip.cpySct (d : SReg) (a : SReg) (b : SReg) (h : (Fin 4)) (n : (Fin 8)) : RoundTrip.Statement (.cpySct d a b h n) := by
  intro _
  have hx := fields_46 _ _ _ _ _ d.isLt a.isLt b.isLt h.isLt n.isLt
  exact of_CX rfl (by decide) hx.2.2.2.2.2 (by rw [decodeCX.eq_4, fin_ok d hx.1, fin_ok a hx.2.1, fin_ok b hx.2.2.1, fin_ok h hx.2.2.2.1, fin_ok n hx.2.2.2.2.1])
theorem RoundTrip.cpyLl (d : SReg) (a : SReg) (b : SReg) (h : (Fin 4)) (qw : Bool) : RoundTrip.Statement (.cpyLl d a b h qw) := by
  intro _
  have hx := fields_47 _ _ _ _ _ d.isLt a.isLt b.isLt h.isLt qw.toNat_lt
  exact of_CX rfl (by decide) hx.2.2.2.2.2.2.2 (by rw [decodeCX.eq_5, zero_ok hx.1, fin_ok d hx.2.1, fin_ok a hx.2.2.1, fin_ok b hx.2.2.2.1, fin_ok h hx.2.2.2.2.1, zero_ok hx.2.2.2.2.2.1, flag_ok qw hx.2.2.2.2.2.2.1])
theorem RoundTrip.send (d : VReg) (a : SReg) (b : SReg) (q : QReg) : RoundTrip.Statement (.send d a b q) := by
  intro _
  have hx := fields_48 _ _ _ _ d.isLt a.isLt b.isLt q.isLt
  exact of_CX rfl (by decide) hx.2.2.2.2.2 (by rw [decodeCX.eq_6, zero_ok hx.1, fin_ok d hx.2.1, fin_ok a hx.2.2.1, fin_ok b hx.2.2.2.1, fin_ok q hx.2.2.2.2.1])
theorem RoundTrip.red (d : VReg) (a : SReg) (b : SReg) (t : AType) (sc : Scope) : RoundTrip.Statement (.red d a b t sc) := by
  intro hw
  have hf : (sc.redOk) = true := hw
  have hl : sc ≠ .lane := by rintro rfl; revert hw; simp [Instr.wellFormed, Scope.redOk]
  have hx := fields_49 _ _ _ _ _ d.isLt a.isLt b.isLt (aTypeCode_lt t) (scopeQCode_lt sc)
  exact of_CX rfl (by decide) hx.2.2.2.2.2 (by rw [decodeCX.eq_7, fin_ok d hx.1, fin_ok a hx.2.1, fin_ok b hx.2.2.1, code_ok t ((congrArg aTypeOf hx.2.2.2.1).trans (aTypeOf_code t)), code_ok sc ((congrArg scopeQOf hx.2.2.2.2.1).trans (scopeQOf_code sc hl)), need_ok hf])
theorem RoundTrip.seal (d : SReg) (a : SReg) (b : SReg) : RoundTrip.Statement (.seal d a b) := by
  intro _
  have hx := fields_50 _ _ _ d.isLt a.isLt b.isLt
  exact of_CX rfl (by decide) hx.2.2.2.2 (by rw [decodeCX.eq_8, zero_ok hx.1, fin_ok d hx.2.1, fin_ok a hx.2.2.1, fin_ok b hx.2.2.2.1])
theorem RoundTrip.opn (d : SReg) (a : SReg) (b : SReg) : RoundTrip.Statement (.opn d a b) := by
  intro _
  have hx := fields_50 _ _ _ d.isLt a.isLt b.isLt
  exact of_CX rfl (by decide) hx.2.2.2.2 (by rw [decodeCX.eq_9, zero_ok hx.1, fin_ok d hx.2.1, fin_ok a hx.2.2.1, fin_ok b hx.2.2.2.1])
theorem RoundTrip.nop (n : (Fin 65)) : RoundTrip.Statement (.nop n) := by
  intro hw
  have hf : (n != 0) = true := hw
  have hx := fields_51 _ n.isLt
  exact of_KC rfl (by decide) hx.2.2 (by rw [decodeKC.eq_1, zero_ok hx.1, fin_ok n hx.2.1, need_ok hf])
theorem RoundTrip.kli (d : KReg) (imm : (BitVec 17)) : RoundTrip.Statement (.kli d imm) := by
  intro _
  have hx := fields_52 _ _ d.isLt imm.isLt
  exact of_KC rfl (by decide) hx.2.2 (by rw [decodeKC.eq_2, fin_ok d hx.1, bits_ok imm hx.2.1])
theorem RoundTrip.kadd (d : KReg) (a : KReg) (b : KReg) : RoundTrip.Statement (.kadd d a b) := by
  intro _
  have hx := fields_53 _ _ _ d.isLt a.isLt b.isLt
  exact of_KC rfl (by decide) hx.2.2.2.2 (by rw [decodeKC.eq_3, zero_ok hx.1, fin_ok d hx.2.1, fin_ok a hx.2.2.1, fin_ok b hx.2.2.2.1])
theorem RoundTrip.ksub (d : KReg) (a : KReg) (b : KReg) : RoundTrip.Statement (.ksub d a b) := by
  intro _
  have hx := fields_53 _ _ _ d.isLt a.isLt b.isLt
  exact of_KC rfl (by decide) hx.2.2.2.2 (by rw [decodeKC.eq_4, zero_ok hx.1, fin_ok d hx.2.1, fin_ok a hx.2.2.1, fin_ok b hx.2.2.2.1])
theorem RoundTrip.kaddi (d : KReg) (a : KReg) (imm : (BitVec 12)) : RoundTrip.Statement (.kaddi d a imm) := by
  intro _
  have hx := fields_54 _ _ _ d.isLt a.isLt imm.isLt
  exact of_KC rfl (by decide) hx.2.2.2 (by rw [decodeKC.eq_5, fin_ok d hx.1, fin_ok a hx.2.1, bits_ok imm hx.2.2.1])
theorem RoundTrip.kand (d : KReg) (a : KReg) (b : KReg) : RoundTrip.Statement (.kand d a b) := by
  intro _
  have hx := fields_53 _ _ _ d.isLt a.isLt b.isLt
  exact of_KC rfl (by decide) hx.2.2.2.2 (by rw [decodeKC.eq_6, zero_ok hx.1, fin_ok d hx.2.1, fin_ok a hx.2.2.1, fin_ok b hx.2.2.2.1])
theorem RoundTrip.kor (d : KReg) (a : KReg) (b : KReg) : RoundTrip.Statement (.kor d a b) := by
  intro _
  have hx := fields_53 _ _ _ d.isLt a.isLt b.isLt
  exact of_KC rfl (by decide) hx.2.2.2.2 (by rw [decodeKC.eq_7, zero_ok hx.1, fin_ok d hx.2.1, fin_ok a hx.2.2.1, fin_ok b hx.2.2.2.1])
theorem RoundTrip.kshl (d : KReg) (a : KReg) (b : KReg) : RoundTrip.Statement (.kshl d a b) := by
  intro _
  have hx := fields_53 _ _ _ d.isLt a.isLt b.isLt
  exact of_KC rfl (by decide) hx.2.2.2.2 (by rw [decodeKC.eq_8, zero_ok hx.1, fin_ok d hx.2.1, fin_ok a hx.2.2.1, fin_ok b hx.2.2.2.1])
theorem RoundTrip.kshr (d : KReg) (a : KReg) (b : KReg) : RoundTrip.Statement (.kshr d a b) := by
  intro _
  have hx := fields_53 _ _ _ d.isLt a.isLt b.isLt
  exact of_KC rfl (by decide) hx.2.2.2.2 (by rw [decodeKC.eq_9, zero_ok hx.1, fin_ok d hx.2.1, fin_ok a hx.2.2.1, fin_ok b hx.2.2.2.1])
theorem RoundTrip.kget (d : KReg) (c : CReg) : RoundTrip.Statement (.kget d c) := by
  intro hw
  have hf : (c.kgetOk) = true := hw
  have hx := fields_55 _ _ d.isLt (cregCode_lt c)
  exact of_KC rfl (by decide) hx.2.2.2 (by rw [decodeKC.eq_10, zero_ok hx.1, fin_ok d hx.2.1, code_ok c ((congrArg cregOf hx.2.2.1).trans (cregOf_code c)), need_ok hf])
theorem RoundTrip.kset (a : KReg) (c : CReg) : RoundTrip.Statement (.kset a c) := by
  intro hw
  have hf : (c.ksetOk) = true := hw
  have hx := fields_56 _ _ a.isLt (cregCode_lt c)
  exact of_KC rfl (by decide) hx.2.2.2 (by rw [decodeKC.eq_11, zero_ok hx.1, fin_ok a hx.2.1, code_ok c ((congrArg cregOf hx.2.2.1).trans (cregOf_code c)), need_ok hf])
theorem RoundTrip.kvote (d : KReg) (a : SReg) (q : QReg) (m : VoteOp) : RoundTrip.Statement (.kvote d a q m) := by
  intro _
  have hx := fields_57 _ _ _ _ d.isLt a.isLt q.isLt (voteCode_lt m)
  exact of_KC rfl (by decide) hx.2.2.2.2.2.2 (by rw [decodeKC.eq_12, zero_ok hx.1, zero_ok hx.2.1, fin_ok d hx.2.2.1, fin_ok a hx.2.2.2.1, fin_ok q hx.2.2.2.2.1, code_ok m ((congrArg voteOf hx.2.2.2.2.2.1).trans (voteOf_code m))])
theorem RoundTrip.br (t : (BitVec 15)) : RoundTrip.Statement (.br t) := by
  intro _
  have hx := fields_58 _ t.isLt
  exact of_KC rfl (by decide) hx.2.2.2 (by rw [decodeKC.eq_13, zero_ok hx.1, zero_ok hx.2.1, bits_ok t hx.2.2.1])
theorem RoundTrip.bz (c : KReg) (t : (BitVec 15)) : RoundTrip.Statement (.bz c t) := by
  intro _
  have hx := fields_59 _ _ c.isLt t.isLt
  exact of_KC rfl (by decide) hx.2.2.2 (by rw [decodeKC.eq_14, fin_ok c hx.1, zero_ok hx.2.1, bits_ok t hx.2.2.1])
theorem RoundTrip.bnz (c : KReg) (t : (BitVec 15)) : RoundTrip.Statement (.bnz c t) := by
  intro _
  have hx := fields_59 _ _ c.isLt t.isLt
  exact of_KC rfl (by decide) hx.2.2.2 (by rw [decodeKC.eq_15, fin_ok c hx.1, zero_ok hx.2.1, bits_ok t hx.2.2.1])
theorem RoundTrip.beq (d : KReg) (a : KReg) (off : (BitVec 12)) : RoundTrip.Statement (.beq d a off) := by
  intro _
  have hx := fields_54 _ _ _ d.isLt a.isLt off.isLt
  exact of_KC rfl (by decide) hx.2.2.2 (by rw [decodeKC.eq_16, fin_ok d hx.1, fin_ok a hx.2.1, bits_ok off hx.2.2.1])
theorem RoundTrip.bne (d : KReg) (a : KReg) (off : (BitVec 12)) : RoundTrip.Statement (.bne d a off) := by
  intro _
  have hx := fields_54 _ _ _ d.isLt a.isLt off.isLt
  exact of_KC rfl (by decide) hx.2.2.2 (by rw [decodeKC.eq_17, fin_ok d hx.1, fin_ok a hx.2.1, bits_ok off hx.2.2.1])
theorem RoundTrip.blt (d : KReg) (a : KReg) (off : (BitVec 12)) : RoundTrip.Statement (.blt d a off) := by
  intro _
  have hx := fields_54 _ _ _ d.isLt a.isLt off.isLt
  exact of_KC rfl (by decide) hx.2.2.2 (by rw [decodeKC.eq_18, fin_ok d hx.1, fin_ok a hx.2.1, bits_ok off hx.2.2.1])
theorem RoundTrip.bge (d : KReg) (a : KReg) (off : (BitVec 12)) : RoundTrip.Statement (.bge d a off) := by
  intro _
  have hx := fields_54 _ _ _ d.isLt a.isLt off.isLt
  exact of_KC rfl (by decide) hx.2.2.2 (by rw [decodeKC.eq_19, fin_ok d hx.1, fin_ok a hx.2.1, bits_ok off hx.2.2.1])
theorem RoundTrip.call (t : (BitVec 15)) : RoundTrip.Statement (.call t) := by
  intro _
  have hx := fields_58 _ t.isLt
  exact of_KC rfl (by decide) hx.2.2.2 (by rw [decodeKC.eq_20, zero_ok hx.1, zero_ok hx.2.1, bits_ok t hx.2.2.1])
theorem RoundTrip.ret : RoundTrip.Statement (.ret) := by
  intro _
  have hx := fields_60
  exact of_KC rfl (by decide) hx.2 (by rw [decodeKC.eq_21, zero_ok hx.1])
theorem RoundTrip.loop (c : KReg) (l : (Fin 64)) : RoundTrip.Statement (.loop c l) := by
  intro _
  have hx := fields_61 _ _ c.isLt l.isLt
  exact of_KC rfl (by decide) hx.2.2 (by rw [decodeKC.eq_22, fin_ok c hx.1, fin_ok l hx.2.1])
theorem RoundTrip.loopImmediate (n : (BitVec 16)) (l : (Fin 64)) : RoundTrip.Statement (.loopImmediate n l) := by
  intro hw
  have hf : (n != 0) = true := hw
  have hx := fields_62 _ _ n.isLt l.isLt
  exact of_KC rfl (by decide) hx.2.2 (by rw [decodeKC.eq_23, bits_ok n hx.1, fin_ok l hx.2.1, need_ok hf])
theorem RoundTrip.lbreak (c : KReg) : RoundTrip.Statement (.lbreak c) := by
  intro _
  have hx := fields_63 _ c.isLt
  exact of_KC rfl (by decide) hx.2.2 (by rw [decodeKC.eq_24, if_pos hx.1, fin_ok c hx.2.1])
theorem RoundTrip.lbreakUnconditional : RoundTrip.Statement (.lbreakUnconditional) := by
  intro _
  have hx := fields_64
  exact of_KC rfl (by decide) hx.2.2 (by rw [decodeKC.eq_24, if_neg (by rw [hx.1]; decide), if_pos hx.1, zero_ok hx.2.1])
theorem RoundTrip.sfmt (a : KReg) : RoundTrip.Statement (.sfmt a) := by
  intro _
  have hx := fields_65 _ a.isLt
  exact of_KC rfl (by decide) hx.2.2.2 (by rw [decodeKC.eq_25, zero_ok hx.1, zero_ok hx.2.1, fin_ok a hx.2.2.1])
theorem RoundTrip.wait (d : TlReg) (a : KReg) : RoundTrip.Statement (.wait d a) := by
  intro _
  have hx := fields_66 _ _ d.isLt a.isLt
  exact of_KC rfl (by decide) hx.2.2.2 (by rw [decodeKC.eq_26, zero_ok hx.1, fin_ok d hx.2.1, fin_ok a hx.2.2.1])
theorem RoundTrip.bar (id : (Fin 16)) (sc : Scope) : RoundTrip.Statement (.bar id sc) := by
  intro hw
  have hf : (sc.barOk) = true := hw
  have hx := fields_67 _ _ id.isLt (scopeKCode_lt sc)
  exact of_KC rfl (by decide) hx.2.2.2 (by rw [decodeKC.eq_27, zero_ok hx.1, fin_ok id hx.2.1, code_ok sc ((congrArg scopeKOf hx.2.2.1).trans (scopeKOf_code sc)), need_ok hf])
theorem RoundTrip.fence (sc : Scope) : RoundTrip.Statement (.fence sc) := by
  intro hw
  have hf : (sc != .lane) = true := hw
  have hx := fields_68 _ (scopeKCode_lt sc)
  exact of_KC rfl (by decide) hx.2.2 (by rw [decodeKC.eq_28, zero_ok hx.1, code_ok sc ((congrArg scopeKOf hx.2.1).trans (scopeKOf_code sc)), need_ok hf])
theorem RoundTrip.leaveReq (c : (Fin 8)) : RoundTrip.Statement (.leaveReq c) := by
  intro _
  have hx := fields_69 _ c.isLt
  exact of_KC rfl (by decide) hx.2.2 (by rw [decodeKC.eq_29, zero_ok hx.1, fin_ok c hx.2.1])
theorem RoundTrip.leaveRet : RoundTrip.Statement (.leaveRet) := by
  intro _
  have hx := fields_60
  exact of_KC rfl (by decide) hx.2 (by rw [decodeKC.eq_30, zero_ok hx.1])
theorem RoundTrip.seg : RoundTrip.Statement (.seg) := by
  intro _
  have hx := fields_60
  exact of_KC rfl (by decide) hx.2 (by rw [decodeKC.eq_31, zero_ok hx.1])
theorem RoundTrip.rdv (id : (BitVec 8)) : RoundTrip.Statement (.rdv id) := by
  intro _
  have hx := fields_70 _ id.isLt
  exact of_KC rfl (by decide) hx.2.2 (by rw [decodeKC.eq_32, zero_ok hx.1, bits_ok id hx.2.1])
theorem RoundTrip.trap (code : (BitVec 16)) : RoundTrip.Statement (.trap code) := by
  intro _
  have hx := fields_71 _ code.isLt
  exact of_KC rfl (by decide) hx.2.2 (by rw [decodeKC.eq_33, zero_ok hx.1, bits_ok code hx.2.1])
theorem RoundTrip.halt : RoundTrip.Statement (.halt) := by
  intro _
  have hx := fields_60
  exact of_KC rfl (by decide) hx.2 (by rw [decodeKC.eq_34, zero_ok hx.1])
theorem RoundTrip.tret : RoundTrip.Statement (.tret) := by
  intro _
  have hx := fields_72
  exact of_KC rfl (by decide) hx.2.2 (by rw [decodeKC.eq_35, if_pos hx.1, zero_ok hx.2.1])
theorem RoundTrip.tretSkip : RoundTrip.Statement (.tretSkip) := by
  intro _
  have hx := fields_73
  exact of_KC rfl (by decide) hx.2.2 (by rw [decodeKC.eq_35, if_neg (by rw [hx.1]; decide), if_pos hx.1, zero_ok hx.2.1])
theorem RoundTrip.mtcr (a : KReg) (c : CReg) : RoundTrip.Statement (.mtcr a c) := by
  intro hw
  have hf : (c.mtcrOk) = true := hw
  have hx := fields_56 _ _ a.isLt (cregCode_lt c)
  exact of_KC rfl (by decide) hx.2.2.2 (by rw [decodeKC.eq_36, zero_ok hx.1, fin_ok a hx.2.1, code_ok c ((congrArg cregOf hx.2.2.1).trans (cregOf_code c)), need_ok hf])
theorem RoundTrip.mfcr (d : KReg) (c : CReg) : RoundTrip.Statement (.mfcr d c) := by
  intro hw
  have hf : (c.mtcrOk) = true := hw
  have hx := fields_55 _ _ d.isLt (cregCode_lt c)
  exact of_KC rfl (by decide) hx.2.2.2 (by rw [decodeKC.eq_37, zero_ok hx.1, fin_ok d hx.2.1, code_ok c ((congrArg cregOf hx.2.2.1).trans (cregOf_code c)), need_ok hf])
theorem RoundTrip.spawn (d : KReg) (a : KReg) : RoundTrip.Statement (.spawn d a) := by
  intro _
  have hx := fields_74 _ _ d.isLt a.isLt
  exact of_KC rfl (by decide) hx.2.2.2 (by rw [decodeKC.eq_38, zero_ok hx.1, fin_ok d hx.2.1, fin_ok a hx.2.2.1])
theorem RoundTrip.rerun (d : KReg) (a : KReg) : RoundTrip.Statement (.rerun d a) := by
  intro _
  have hx := fields_74 _ _ d.isLt a.isLt
  exact of_KC rfl (by decide) hx.2.2.2 (by rw [decodeKC.eq_39, zero_ok hx.1, fin_ok d hx.2.1, fin_ok a hx.2.2.1])
theorem RoundTrip.bankctlYield : RoundTrip.Statement (.bankctlYield) := by
  intro _
  have hx := fields_72
  exact of_KC rfl (by decide) hx.2.2 (by rw [decodeKC.eq_40, if_pos hx.1, zero_ok hx.2.1])
theorem RoundTrip.bankctlHold : RoundTrip.Statement (.bankctlHold) := by
  intro _
  have hx := fields_73
  exact of_KC rfl (by decide) hx.2.2 (by rw [decodeKC.eq_40, if_neg (by rw [hx.1]; decide), if_pos hx.1, zero_ok hx.2.1])
theorem RoundTrip.bankctlRelease : RoundTrip.Statement (.bankctlRelease) := by
  intro _
  have hx := fields_75
  exact of_KC rfl (by decide) hx.2.2 (by rw [decodeKC.eq_40, if_neg (by rw [hx.1]; decide), if_neg (by rw [hx.1]; decide), if_pos hx.1, zero_ok hx.2.1])
theorem RoundTrip.bankctlArm (a : KReg) : RoundTrip.Statement (.bankctlArm a) := by
  intro _
  have hx := fields_76 _ a.isLt
  exact of_KC rfl (by decide) hx.2.2.2 (by rw [decodeKC.eq_40, if_neg (by rw [hx.1]; decide), if_neg (by rw [hx.1]; decide), if_neg (by rw [hx.1]; decide), if_pos hx.1, zero_ok hx.2.1, fin_ok a hx.2.2.1])
theorem RoundTrip.bankctlDisarm : RoundTrip.Statement (.bankctlDisarm) := by
  intro _
  have hx := fields_77
  exact of_KC rfl (by decide) hx.2.2 (by rw [decodeKC.eq_40, if_neg (by rw [hx.1]; decide), if_neg (by rw [hx.1]; decide), if_neg (by rw [hx.1]; decide), if_neg (by rw [hx.1]; decide), if_pos hx.1, zero_ok hx.2.1])
theorem RoundTrip.lstep (n : Fin 8) (e : StepFields) : RoundTrip.Statement (.lstep n e) := by
  intro _
  have hx : stepFieldsCode e < 4194304 := stepFieldsCode_lt e
  have hd : decodeKC (32 + n.val) (stepFieldsCode e) = .ok (.lstep n e) := by
    have hc := stepFieldsOf_code e
    fin_cases n <;> (simp only [decodeKC, code_ok e hc]; rfl)
  exact of_KC rfl (by omega) hx hd

theorem RoundTrip.panelReset (stations : BitVec 4) (images : List (List Byte)) (deadDies : List DieId) (deadJunctions : List JunId) (deadEdges : List (Fin 72)) : RoundTrip.Statement (.panelReset stations images deadDies deadJunctions deadEdges) := fun _ _ _ h => nomatch h
theorem RoundTrip.bundleIssue (r : RowId) : RoundTrip.Statement (.bundleIssue r) := fun _ _ _ h => nomatch h
theorem RoundTrip.rowUnfreeze (r : RowId) : RoundTrip.Statement (.rowUnfreeze r) := fun _ _ _ h => nomatch h
theorem RoundTrip.resultLand (r : RowId) (x : Side) : RoundTrip.Statement (.resultLand r x) := fun _ _ _ h => nomatch h
theorem RoundTrip.kvoteResult (r : RowId) (x : Side) : RoundTrip.Statement (.kvoteResult r x) := fun _ _ _ h => nomatch h
theorem RoundTrip.chkVerdict (r : RowId) (x : Side) : RoundTrip.Statement (.chkVerdict r x) := fun _ _ _ h => nomatch h
theorem RoundTrip.translationWalk (r : RowId) : RoundTrip.Statement (.translationWalk r) := fun _ _ _ h => nomatch h
theorem RoundTrip.loadDataReturn (n : Nat) : RoundTrip.Statement (.loadDataReturn n) := fun _ _ _ h => nomatch h
theorem RoundTrip.storePerform (n : Nat) : RoundTrip.Statement (.storePerform n) := fun _ _ _ h => nomatch h
theorem RoundTrip.writeAcknowledge (r : RowId) (x : Side) : RoundTrip.Statement (.writeAcknowledge r x) := fun _ _ _ h => nomatch h
theorem RoundTrip.atomicPerform (n : Nat) : RoundTrip.Statement (.atomicPerform n) := fun _ _ _ h => nomatch h
theorem RoundTrip.arrivePerform (n : Nat) : RoundTrip.Statement (.arrivePerform n) := fun _ _ _ h => nomatch h
theorem RoundTrip.lockAcquire (n : Nat) : RoundTrip.Statement (.lockAcquire n) := fun _ _ _ h => nomatch h
theorem RoundTrip.lockRelease (n : Nat) : RoundTrip.Statement (.lockRelease n) := fun _ _ _ h => nomatch h
theorem RoundTrip.discardPerform (n : Nat) : RoundTrip.Statement (.discardPerform n) := fun _ _ _ h => nomatch h
theorem RoundTrip.copyComplete (n : Nat) : RoundTrip.Statement (.copyComplete n) := fun _ _ _ h => nomatch h
theorem RoundTrip.redPerform (n : Nat) : RoundTrip.Statement (.redPerform n) := fun _ _ _ h => nomatch h
theorem RoundTrip.cipherComplete (n : Nat) : RoundTrip.Statement (.cipherComplete n) := fun _ _ _ h => nomatch h
theorem RoundTrip.mmaStepBegin (r : RowId) (x : Side) : RoundTrip.Statement (.mmaStepBegin r x) := fun _ _ _ h => nomatch h
theorem RoundTrip.mmaStepLand (r : RowId) (x : Side) : RoundTrip.Statement (.mmaStepLand r x) := fun _ _ _ h => nomatch h
theorem RoundTrip.messageArrival (n : Nat) : RoundTrip.Statement (.messageArrival n) := fun _ _ _ h => nomatch h
theorem RoundTrip.spawnAnswer (r : RowId) (x : Side) : RoundTrip.Statement (.spawnAnswer r x) := fun _ _ _ h => nomatch h
theorem RoundTrip.bankSwitch (r : RowId) : RoundTrip.Statement (.bankSwitch r) := fun _ _ _ h => nomatch h
theorem RoundTrip.preemption (r : RowId) (x : Side) : RoundTrip.Statement (.preemption r x) := fun _ _ _ h => nomatch h
theorem RoundTrip.bankStop (r : RowId) (x : Side) : RoundTrip.Statement (.bankStop r x) := fun _ _ _ h => nomatch h
theorem RoundTrip.bankResume (r : RowId) (x : Side) : RoundTrip.Statement (.bankResume r x) := fun _ _ _ h => nomatch h
theorem RoundTrip.trapEntry (r : RowId) (x : Side) : RoundTrip.Statement (.trapEntry r x) := fun _ _ _ h => nomatch h
theorem RoundTrip.failedBankEmpty (r : RowId) (x : Side) : RoundTrip.Statement (.failedBankEmpty r x) := fun _ _ _ h => nomatch h
theorem RoundTrip.segmentCommit (r : RowId) (x : Side) : RoundTrip.Statement (.segmentCommit r x) := fun _ _ _ h => nomatch h
theorem RoundTrip.blockComplete (r : RowId) (x : Side) : RoundTrip.Statement (.blockComplete r x) := fun _ _ _ h => nomatch h
theorem RoundTrip.blockPlace (launch : BitVec 32) : RoundTrip.Statement (.blockPlace launch) := fun _ _ _ h => nomatch h
theorem RoundTrip.launchComplete (launch : BitVec 32) : RoundTrip.Statement (.launchComplete launch) := fun _ _ _ h => nomatch h
theorem RoundTrip.barrierRelease (r : RowId) (x : Side) : RoundTrip.Statement (.barrierRelease r x) := fun _ _ _ h => nomatch h
theorem RoundTrip.rendezvousRelease (launch : BitVec 32) : RoundTrip.Statement (.rendezvousRelease launch) := fun _ _ _ h => nomatch h
theorem RoundTrip.barmaskWrite (g : RegionId) (id : Fin 16) (die : Fin 10) (value : Word) : RoundTrip.Statement (.barmaskWrite g id die value) := fun _ _ _ h => nomatch h
theorem RoundTrip.packetTake (qn : QueueId) : RoundTrip.Statement (.packetTake qn) := fun _ _ _ h => nomatch h
theorem RoundTrip.packetStart (qn : QueueId) : RoundTrip.Statement (.packetStart qn) := fun _ _ _ h => nomatch h
theorem RoundTrip.launchPacket (qn : QueueId) (h : PktHdr) (record : Word) : RoundTrip.Statement (.launchPacket qn h record) := fun _ _ _ h => nomatch h
theorem RoundTrip.taskPacket (qn : QueueId) (h : PktHdr) (body : TaskBody) : RoundTrip.Statement (.taskPacket qn h body) := fun _ _ _ h => nomatch h
theorem RoundTrip.rerunPacket (qn : QueueId) (h : PktHdr) (header : Word) : RoundTrip.Statement (.rerunPacket qn h header) := fun _ _ _ h => nomatch h
theorem RoundTrip.waitPacket (qn : QueueId) (h : PktHdr) (kind : Byte) (addr : Word) (operand : Word) : RoundTrip.Statement (.waitPacket qn h kind addr operand) := fun _ _ _ h => nomatch h
theorem RoundTrip.signalPacket (qn : QueueId) (h : PktHdr) (kind : Byte) (addr : Word) (operand : Word) : RoundTrip.Statement (.signalPacket qn h kind addr operand) := fun _ _ _ h => nomatch h
theorem RoundTrip.indirectPacket (qn : QueueId) (h : PktHdr) (array : Word) (count : BitVec 32) : RoundTrip.Statement (.indirectPacket qn h array count) := fun _ _ _ h => nomatch h
theorem RoundTrip.fencePacket (qn : QueueId) (h : PktHdr) (scope : Byte) : RoundTrip.Statement (.fencePacket qn h scope) := fun _ _ _ h => nomatch h
theorem RoundTrip.budgetPacket (qn : QueueId) (h : PktHdr) (addr : Word) (length : BitVec 32) : RoundTrip.Statement (.budgetPacket qn h addr length) := fun _ _ _ h => nomatch h
theorem RoundTrip.ringDoorbell (qn : QueueId) (ring : Fin 8) (tail : BitVec 32) : RoundTrip.Statement (.ringDoorbell qn ring tail) := fun _ _ _ h => nomatch h
theorem RoundTrip.ringBaseWrite (qn : QueueId) (ring : Fin 8) (value : Word) : RoundTrip.Statement (.ringBaseWrite qn ring value) := fun _ _ _ h => nomatch h
theorem RoundTrip.queueRestart (qn : QueueId) : RoundTrip.Statement (.queueRestart qn) := fun _ _ _ h => nomatch h
theorem RoundTrip.xinvGo (tile : BitVec 32) : RoundTrip.Statement (.xinvGo tile) := fun _ _ _ h => nomatch h
theorem RoundTrip.invalidationComplete : RoundTrip.Statement (.invalidationComplete) := fun _ _ _ h => nomatch h
theorem RoundTrip.demotion (unit : TierUnit) : RoundTrip.Statement (.demotion unit) := fun _ _ _ h => nomatch h
theorem RoundTrip.requestDone (h : Fin 4) (request : Nat) (handle : BitVec 32) : RoundTrip.Statement (.requestDone h request handle) := fun _ _ _ h => nomatch h
theorem RoundTrip.moveComplete (n : Nat) : RoundTrip.Statement (.moveComplete n) := fun _ _ _ h => nomatch h
theorem RoundTrip.ageTick : RoundTrip.Statement (.ageTick) := fun _ _ _ h => nomatch h
theorem RoundTrip.timetableMessage (bytes : List Byte) : RoundTrip.Statement (.timetableMessage bytes) := fun _ _ _ h => nomatch h
theorem RoundTrip.ttSubmit (addr : Word) : RoundTrip.Statement (.ttSubmit addr) := fun _ _ _ h => nomatch h
theorem RoundTrip.timetableInForce : RoundTrip.Statement (.timetableInForce) := fun _ _ _ h => nomatch h
theorem RoundTrip.timetablePoint : RoundTrip.Statement (.timetablePoint) := fun _ _ _ h => nomatch h
theorem RoundTrip.killComplete (launch : BitVec 32) : RoundTrip.Statement (.killComplete launch) := fun _ _ _ h => nomatch h
theorem RoundTrip.taskResume (task : Word) : RoundTrip.Statement (.taskResume task) := fun _ _ _ h => nomatch h
theorem RoundTrip.evBaseWrite (value : Word) : RoundTrip.Statement (.evBaseWrite value) := fun _ _ _ h => nomatch h
theorem RoundTrip.contactSample (s : Bool) (h : Bool) : RoundTrip.Statement (.contactSample s h) := fun _ _ _ h => nomatch h
theorem RoundTrip.telemetrySample (watts : List Nat) : RoundTrip.Statement (.telemetrySample watts) := fun _ _ _ h => nomatch h
theorem RoundTrip.permitWindow (g : RegionId) : RoundTrip.Statement (.permitWindow g) := fun _ _ _ h => nomatch h
theorem RoundTrip.droopAlarm (g : RegionId) : RoundTrip.Statement (.droopAlarm g) := fun _ _ _ h => nomatch h
theorem RoundTrip.droopStretchEnd (g : RegionId) : RoundTrip.Statement (.droopStretchEnd g) := fun _ _ _ h => nomatch h
theorem RoundTrip.dieGate (g : RegionId) : RoundTrip.Statement (.dieGate g) := fun _ _ _ h => nomatch h
theorem RoundTrip.dieUngate (d : DieId) : RoundTrip.Statement (.dieUngate d) := fun _ _ _ h => nomatch h
theorem RoundTrip.rerunRound (launch : BitVec 32) : RoundTrip.Statement (.rerunRound launch) := fun _ _ _ h => nomatch h
theorem RoundTrip.coherenceRequest (asker : Requester) (line : Nat) (write : Bool) : RoundTrip.Statement (.coherenceRequest asker line write) := fun _ _ _ h => nomatch h
theorem RoundTrip.hostAccess (addr : Nat) (write : Bool) (data : List Byte) : RoundTrip.Statement (.hostAccess addr write data) := fun _ _ _ h => nomatch h
theorem RoundTrip.switchRecall (line : Nat) (dirty : Option LineReturn) : RoundTrip.Statement (.switchRecall line dirty) := fun _ _ _ h => nomatch h
theorem RoundTrip.switchLoss (sw : Nat) : RoundTrip.Statement (.switchLoss sw) := fun _ _ _ h => nomatch h
theorem RoundTrip.recoveryComplete (line : Nat) (outcome : Recovered) : RoundTrip.Statement (.recoveryComplete line outcome) := fun _ _ _ h => nomatch h
theorem RoundTrip.panelAnswerTimeout (answers : PanelAnswers) : RoundTrip.Statement (.panelAnswerTimeout answers) := fun _ _ _ h => nomatch h
theorem RoundTrip.linkWakeComplete (d : DieId) (j : JunId) : RoundTrip.Statement (.linkWakeComplete d j) := fun _ _ _ h => nomatch h
theorem RoundTrip.linkWakeFail (d : DieId) (j : JunId) : RoundTrip.Statement (.linkWakeFail d j) := fun _ _ _ h => nomatch h
theorem RoundTrip.dieDead (d : DieId) : RoundTrip.Statement (.dieDead d) := fun _ _ _ h => nomatch h
theorem RoundTrip.errorDetected (e : ErrorReport) : RoundTrip.Statement (.errorDetected e) := fun _ _ _ h => nomatch h
theorem RoundTrip.cpReloadComplete (g : RegionId) : RoundTrip.Statement (.cpReloadComplete g) := fun _ _ _ h => nomatch h
theorem RoundTrip.rasBaseWrite (value : Word) : RoundTrip.Statement (.rasBaseWrite value) := fun _ _ _ h => nomatch h
theorem RoundTrip.scrubStep (unit : TierUnit) (result : ScrubResult) : RoundTrip.Statement (.scrubStep unit result) := fun _ _ _ h => nomatch h
theorem RoundTrip.injectionArm (place : InjPlace) (value : Word) : RoundTrip.Statement (.injectionArm place value) := fun _ _ _ h => nomatch h
theorem RoundTrip.heartbeat : RoundTrip.Statement (.heartbeat) := fun _ _ _ h => nomatch h
theorem RoundTrip.stationTakeover (spares : Spares) : RoundTrip.Statement (.stationTakeover spares) := fun _ _ _ h => nomatch h
theorem RoundTrip.alarm (source : AlarmSource) : RoundTrip.Statement (.alarm source) := fun _ _ _ h => nomatch h
theorem RoundTrip.alarmPolicyWrite (value : Word) : RoundTrip.Statement (.alarmPolicyWrite value) := fun _ _ _ h => nomatch h
theorem RoundTrip.worldCreate (world : Byte) (rows : Nat) (slots : Word) : RoundTrip.Statement (.worldCreate world rows slots) := fun _ _ _ h => nomatch h
theorem RoundTrip.worldDestroy (world : Byte) : RoundTrip.Statement (.worldDestroy world) := fun _ _ _ h => nomatch h
theorem RoundTrip.measure (session : BitVec 32) (addr : Word) : RoundTrip.Statement (.measure session addr) := fun _ _ _ h => nomatch h
theorem RoundTrip.attest (session : BitVec 32) (addr : Word) : RoundTrip.Statement (.attest session addr) := fun _ _ _ h => nomatch h
theorem RoundTrip.releaseKey (session : BitVec 32) (addr : Word) : RoundTrip.Statement (.releaseKey session addr) := fun _ _ _ h => nomatch h
theorem RoundTrip.acknowledge (session : BitVec 32) (addr : Word) : RoundTrip.Statement (.acknowledge session addr) := fun _ _ _ h => nomatch h
theorem RoundTrip.lifeCycle (session : BitVec 32) (addr : Word) : RoundTrip.Statement (.lifeCycle session addr) := fun _ _ _ h => nomatch h
theorem RoundTrip.keyRevoke (value : Word) : RoundTrip.Statement (.keyRevoke value) := fun _ _ _ h => nomatch h
theorem RoundTrip.revocationComplete : RoundTrip.Statement (.revocationComplete) := fun _ _ _ h => nomatch h
theorem RoundTrip.fwStage (addr : Word) : RoundTrip.Statement (.fwStage addr) := fun _ _ _ h => nomatch h
theorem RoundTrip.fwActivate : RoundTrip.Statement (.fwActivate) := fun _ _ _ h => nomatch h
theorem RoundTrip.stagingLapse : RoundTrip.Statement (.stagingLapse) := fun _ _ _ h => nomatch h
theorem RoundTrip.registerWrite (addr : Nat) (value : Word) : RoundTrip.Statement (.registerWrite addr value) := fun _ _ _ h => nomatch h
theorem RoundTrip.retirementRequest (r : RowId) : RoundTrip.Statement (.retirementRequest r) := fun _ _ _ h => nomatch h

end Sys2Proof.Laws
end

