-- ==== Sys2Proof/Certificates/Slice0/Obligations.lean ====
section
/-! DEFINITION. The statements for the provers. Each names in its docstring the rules of spec/ it formalises; a name under Claims is a
part of a statement, or a term in which one is put. A calm bank (State.calm) presents a bundle in this cycle and has nothing under way. -/

namespace Sys2Proof.Claims
end Sys2Proof.Claims

open Sys2Proof Sys2Proof.Machine Sys2Proof.Claims

/-! ## Encoding and stepping -/

/-- R60-R62, R68-R74: no bit of an encoding is dropped. Every well-formed instruction, at every value of its operands, decodes from its
own word as itself, with its E bit. -/
def Obligations.DecodeOfEncode : Prop :=
  ∀ (i : Instr), i.wellFormed = true → ∀ (e : Bool) (w : BitVec 32), encodeSyl e i = some w → decodeSyl w = .ok i ∧ sylE w = e

/-- R60-R62: a word has one meaning, and reserved fields are refused. What a word decodes to is well formed and encodes as that word. -/
def Obligations.EncodeOfDecode : Prop :=
  ∀ (w : BitVec 32) (i : Instr), decodeSyl w = .ok i → i.wellFormed = true ∧ encodeSyl (sylE w) i = some w

/-- The words the spec's worked examples write out, of every unit, decode to the syllables named there (the encoding tables of chapters 3
to 5 and 7 to 9). -/
def Obligations.ExampleWords : Prop :=
  decodeSyl 0x00061100#32 = .ok (.add .a 3 1 2 0) ∧ decodeSyl 0x8BCA091A#32 = .ok (.li .a 5 0x91A#17)
  ∧ decodeSyl 0x8C0A5678#32 = .ok (.lui .a 5 0x5678#17) ∧ decodeSyl 0x08003102#32 = .ok (.chk .a 3 2 0 .lt)
  ∧ decodeSyl 0x9A0E7001#32 = .ok (.addi .b 7 7 1#12) ∧ decodeSyl 0x35085304#32 = .ok (.vfadd .a 4 5 6 0 .w512 .f32)
  ∧ decodeSyl 0xA40042B4#32 = .ok (.atomAdd 4 5 .die true .i32) ∧ decodeSyl 0x510002FF#32 = .ok (.tcfg 0 .i32 15 15)
  ∧ decodeSyl 0xD2440000#32 = .ok (.tcolR 2 0 0 0 false) ∧ decodeSyl 0xE0061107#32 = .ok (.cpyIn 3 1 2 0 7)
  ∧ decodeSyl 0xF1042001#32 = .ok (.kaddi 2 2 1#12) ∧ decodeSyl 0xF6420000#32 = .ok (.loop 1 0) ∧ decodeSyl 0xF7401000#32 = .ok (.wait 0 1)

/-- A step with nothing due outside the rows runs the instruction that the bank holding the current row has due, as exec gives it; the
row's boundary and the passing of the turn follow (log entry 1). -/
def Sys2Proof.Claims.StepRunsDecoded : Prop :=
  ∀ (s t : State) (i : Instr), s.agenda = [] →
    (s.row s.cur).retired = false → s.presents s.cur s.side = true → s.here.awaitsPermit = false → s.here.frames = [] →
    (s.syllableAt s.cur s.side s.here.pc.toNat).getLsbD 31 = true → decodeSyl (s.syllableAt s.cur s.side s.here.pc.toNat) = .ok i →
    exec i s = .next t → step s = .next (t.rowBoundary s.cur).turn

/-- An event from outside that heads the agenda is what a step runs, at its time, and a syllable is never one. -/
def Sys2Proof.Claims.StepRunsEvent : Prop :=
  ∀ (s : State) (t : Nat) (e : Instr) (rest : List (Nat × Deed)), s.agenda = (t, .outside e) :: rest → sylOf e = none →
    step s = exec e { s with agenda := rest, time := max s.time t }

/-- Every event answers a next state in every state, but for a host's access to an address outside its windows; what it does where it is due
is stated of each kind below. -/
def Sys2Proof.Claims.EventsAnswer : Prop :=
  ∀ (s : State) (i : Instr), sylOf i = none → (∀ a w d, i ≠ .hostAccess a w d) → ∃ t, exec i s = .next t

/-- A step runs the instruction decoded where the bank whose turn it is fetches, or the event from outside that is due; whose turn it is is the
model's choice (log entry 1). -/
def Obligations.StepRunsInstruction : Prop := Claims.StepRunsDecoded ∧ Claims.StepRunsEvent ∧ Claims.EventsAnswer

/-! ## Issue (R67) -/

/-- R67: a syllable that its bank may hold and whose own conditions are all clear issues whole where the bank has nothing under way:
results in flight, pops taken, effects made, the issue cycle passed. -/
def Obligations.SyllableIssues : Prop :=
  ∀ (s : State) (i : Instr) (y : Syl), sylOf i = some y → s.calm = true → y.permitted s.here = true → s.accepts y = true →
    exec i s = .next (s.commit s.cur s.side [⟨y, (encodeSyl true i).getD 0⟩] (s.here.pc + 1))

/-- What of the panel outside its rows no bundle of one syllable changes as it issues in a calm bank, memory apart: everything but the agenda,
the operations outstanding with the next id, the die caches and what a host holds of lines, the junctions' directories, what is kept of
frames in use and their count, and of a region %istep, %barsel, the barrier masks and the list of dies to gate. -/
def Sys2Proof.Claims.outsideKept (s t : State) : Prop :=
  t.cur = s.cur ∧ t.blocked = s.blocked ∧ t.freeSeq = s.freeSeq ∧ t.time = s.time ∧ t.panelId = s.panelId ∧ t.edges = s.edges
  ∧ t.hostRings = s.hostRings ∧ t.hostPool = s.hostPool ∧ t.waiting = s.waiting ∧ t.xinvSel = s.xinvSel ∧ t.xinvGo = s.xinvGo
  ∧ t.xinvJob = s.xinvJob ∧ t.wgen = s.wgen ∧ t.lastId = s.lastId ∧ t.launches = s.launches ∧ t.released = s.released
  ∧ t.worlds = s.worlds ∧ t.tasks = s.tasks ∧ t.timing = s.timing ∧ t.errors = s.errors ∧ t.station = s.station ∧ t.slots = s.slots
  ∧ t.vectors = s.vectors ∧ t.msix = s.msix ∧ t.interrupts = s.interrupts ∧ t.hostData = s.hostData ∧ t.pod = s.pod
  ∧ (∀ d : Fin 160, t.dies[d] = { s.dies[d] with cache := (t.dies[d]).cache })
  ∧ (∀ j : Fin 160, t.juns[j] = { s.juns[j] with
      frames := (t.juns[j]).frames, home := (t.juns[j]).home, routes := (t.juns[j]).routes
      marks := { (s.juns[j]).marks with used := (t.juns[j]).marks.used } })
  ∧ (∀ i : Fin 32, t.sidings[i] = { s.sidings[i] with
      frames := (t.sidings[i]).frames, marks := { (s.sidings[i]).marks with used := (t.sidings[i]).marks.used } })
  ∧ (∀ i : Fin 4, t.cxl[i] = { s.cxl[i] with frames := (t.cxl[i]).frames, marks := { (s.cxl[i]).marks with used := (t.cxl[i]).marks.used } })
  ∧ t.host = { s.host with frames := t.host.frames, marks := { s.host.marks with used := t.host.marks.used } }
  ∧ ∀ g : Fin 16, t.regions[g] = { s.regions[g] with
      istep := (t.regions[g]).istep, barsel := (t.regions[g]).barsel, masks := (t.regions[g]).masks, gateList := (t.regions[g]).gateList }

/-- R67: what no syllable changes as it issues in a calm bank, whatever its form: every other row, the instruction store, and outside the
rows what `outsideKept` lists; but for a rel, whose words become 0 as its bundle issues (R193), every byte of the panel's memory (a store
or a copy out reaches it when it performs, R253) and the moves under way; and, but for bankctl.arm and bankctl.disarm, the scalar, vector
and predicate registers of the other bank. -/
def Obligations.SyllableFrame : Prop :=
  ∀ (s t : State) (i : Instr) (y : Syl), sylOf i = some y → s.calm = true → y.permitted s.here = true → s.accepts y = true →
    exec i s = .next t →
    ((∀ a sc row, i ≠ .rel a sc row) →
      t.mem = s.mem ∧ (∀ a, Memory.byte t.mem a = Memory.byte s.mem a) ∧ t.cipher = s.cipher ∧ t.poison = s.poison
      ∧ t.sealed = s.sealed ∧ t.moves = s.moves)
    ∧ ((∀ a sc row, i ≠ .rel a sc row) → ∀ n, n ≠ s.cur → t.row n = s.row n) ∧ (t.row s.cur).istore = (s.row s.cur).istore
    ∧ outsideKept s t
    ∧ ((∀ a, i ≠ .bankctlArm a) → i ≠ .bankctlDisarm → ∀ c,
        ((t.row s.cur).cb (otherSide s.side) c).s = ((s.row s.cur).cb (otherSide s.side) c).s
        ∧ ((t.row s.cur).cb (otherSide s.side) c).v = ((s.row s.cur).cb (otherSide s.side) c).v
        ∧ ((t.row s.cur).cb (otherSide s.side) c).q = ((s.row s.cur).cb (otherSide s.side) c).q)

/-- R64, R214: a syllable its bank has no right to hold traps PRIV_OP and takes effect nowhere: tret outside a handler, mtcr and mfcr outside one
without the cr right, spawn and rerun without the launch right, bankctl without the bank right, the region registers without the region
right, each whatever the other rights are. -/
def Obligations.PrivilegedTraps : Prop :=
  ∀ (s : State), s.traps = true →
    (∀ i ∈ ([.tret, .tretSkip] : List Instr), exec i s = .next (s.trapped (rowTrap .privOp 7 i)))
    ∧ (s.here.sysperm.getLsbD 0 = false → ∀ (a d : KReg) (c : CReg),
        ∀ i ∈ ([.mtcr a c, .mfcr d c] : List Instr), exec i s = .next (s.trapped (rowTrap .privOp 7 i)))
    ∧ (s.here.sysperm.getLsbD 1 = false → ∀ (a d : KReg),
        ∀ i ∈ ([.spawn d a, .rerun d a] : List Instr), exec i s = .next (s.trapped (rowTrap .privOp 7 i)))
    ∧ (s.here.sysperm.getLsbD 2 = false → ∀ (a : KReg),
        ∀ i ∈ ([.bankctlYield, .bankctlHold, .bankctlRelease, .bankctlArm a, .bankctlDisarm] : List Instr),
          exec i s = .next (s.trapped (rowTrap .privOp 7 i)))
    ∧ (s.here.sysperm.getLsbD 3 = false → ∀ (a : KReg),
        ∀ i ∈ ([.mtcr a .istep, .mtcr a .barsel, .mtcr a .barmask] : List Instr), exec i s = .next (s.trapped (rowTrap .privOp 7 i)))

/-! ## Scalar instructions (R115-R126) -/

/-- R118: addition, subtraction, logic, shifts and comparisons land with latency 1 in the cores whose predicate bit 0 is on; every core
takes its pops; nothing else changes but the sequencer's movement. -/
def Sys2Proof.Claims.ScalarTwoSource : Prop :=
  ∀ (s : State) (u : Twin) (d : SDst) (a b : SReg) (q : QReg), s.calm = true → s.popsReady .none (.s a) (.s b) = true →
    ∀ p ∈ ([(.add u d a b q, fun x y => x + y), (.sub u d a b q, fun x y => x - y),
        (.and u d a b q, fun x y => x &&& y), (.or u d a b q, fun x y => x ||| y), (.xor u d a b q, fun x y => x ^^^ y),
        (.andn u d a b q, fun x y => x &&& ~~~y),
        (.shl u d a b q, fun x y => x <<< (y.toNat % 64)), (.shr u d a b q, fun x y => x >>> (y.toNat % 64)),
        (.sar u d a b q, fun x y => x.sshiftRight (y.toNat % 64)), (.rol u d a b q, fun x y => x.rotateLeft (y.toNat % 64)),
        (.min u d a b q, fun x y => if x.toInt ≤ y.toInt then x else y), (.max u d a b q, fun x y => if x.toInt ≥ y.toInt then x else y),
        (.minn u d a b q, fun x y => if x.toNat ≤ y.toNat then x else y), (.maxn u d a b q, fun x y => if x.toNat ≥ y.toNat then x else y),
        (.slt u d a b q, fun x y => if x.toInt < y.toInt then 1 else 0), (.sltn u d a b q, fun x y => if x.toNat < y.toNat then 1 else 0),
        (.seq u d a b q, fun x y => if x = y then 1 else 0), (.sne u d a b q, fun x y => if x ≠ y then 1 else 0)]
        : List (Instr × (Word → Word → Word))),
      exec p.1 s = .next (s.issued (pops .none (.s a) (.s b)) fun c k =>
        let r := s.operands .none (.s a) (.s b) c
        let k' := k.popped .none (.s a) (.s b)
        if (k.qget q).getLsbD 0 then k'.sput d (p.2 r.a r.b) else k')

/-- R119, R120: products and quotients are in flight for 3 and 12 issue cycles; no division traps and none raises a flag. -/
def Sys2Proof.Claims.ScalarMultiplyDivide : Prop :=
  ∀ (s : State) (u : Twin) (d : SDst) (a b : SReg) (q : QReg), s.calm = true → s.popsReady .none (.s a) (.s b) = true →
    ∀ p ∈ ([(.mul u d a b q, 3, fun x y => BitVec.ofInt 64 (x.toInt * y.toInt)),
        (.mulh u d a b q, 3, fun x y => (x.signExtend 128 * y.signExtend 128).extractLsb' 64 64),
        (.mulhn u d a b q, 3, fun x y => (x.setWidth 128 * y.setWidth 128).extractLsb' 64 64),
        (.div u d a b q, 12, fun x y => if y = 0 then 0xFFFFFFFFFFFFFFFF
          else if x.toInt = -2 ^ 63 ∧ y.toInt = -1 then 0x8000000000000000 else BitVec.ofInt 64 (x.toInt.tdiv y.toInt)),
        (.divn u d a b q, 12, fun x y => if y = 0 then 0xFFFFFFFFFFFFFFFF else BitVec.ofNat 64 (x.toNat / y.toNat)),
        (.rem u d a b q, 12, fun x y => if y = 0 then x
          else if x.toInt = -2 ^ 63 ∧ y.toInt = -1 then 0 else BitVec.ofInt 64 (x.toInt.tmod y.toInt)),
        (.remn u d a b q, 12, fun x y => if y = 0 then x else BitVec.ofNat 64 (x.toNat % y.toNat))]
        : List (Instr × Nat × (Word → Word → Word))),
      exec p.1 s = .next (s.issued (pops .none (.s a) (.s b)) fun c k =>
        let r := s.operands .none (.s a) (.s b) c
        (k.popped .none (.s a) (.s b)).flying
          (if (k.qget q).getLsbD 0 then [s.inFlight p.2.1 (unitS u) (.scalar d (p.2.2 r.a r.b)) 0] else []))

/-- R118-R120: the two-source scalar instructions: each one's result, its latency, and that nothing else changes. -/
def Obligations.ScalarArithmetic : Prop := Claims.ScalarTwoSource ∧ Claims.ScalarMultiplyDivide

/-- The number of one bits of a word below bit `n`. -/
def Sys2Proof.Claims.onesBelow (x : Word) : Nat → Nat
  | 0 => 0
  | n + 1 => onesBelow x n + (if x.getLsbD n then 1 else 0)

/-- R121, R122: the bit counts, the extensions, and sel, in which every core acts and the predicate only selects. -/
def Sys2Proof.Claims.ScalarCountsExtensionsSelect : Prop :=
  (∀ (s : State) (u : Twin) (d : SDst) (a : SReg) (q : QReg), s.calm = true → s.popsReady .none (.s a) .none = true →
    ∃ f g : Word → Word,
      (∀ x, x ≠ 0 → (f x).toNat < 64 ∧ x.getLsbD (63 - (f x).toNat) = true ∧ ∀ j, 63 - (f x).toNat < j → x.getLsbD j = false)
      ∧ f 0 = 64
      ∧ (∀ x, x ≠ 0 → (g x).toNat < 64 ∧ x.getLsbD (g x).toNat = true ∧ ∀ j < (g x).toNat, x.getLsbD j = false)
      ∧ g 0 = 64
      ∧ ∀ p ∈ ([(.clz u d a q, f), (.ctz u d a q, g), (.popc u d a q, fun x => BitVec.ofNat 64 (onesBelow x 64)),
          (.sext u d a q .w8, fun x => (x.setWidth 8).signExtend 64), (.sext u d a q .w16, fun x => (x.setWidth 16).signExtend 64),
          (.sext u d a q .w32, fun x => (x.setWidth 32).signExtend 64),
          (.zext u d a q .w8, fun x => (x.setWidth 8).setWidth 64), (.zext u d a q .w16, fun x => (x.setWidth 16).setWidth 64),
          (.zext u d a q .w32, fun x => (x.setWidth 32).setWidth 64)] : List (Instr × (Word → Word))),
        exec p.1 s = .next (s.issued (pops .none (.s a) .none) fun c k =>
          let k' := k.popped .none (.s a) .none
          if (k.qget q).getLsbD 0 then k'.sput d (p.2 (s.operands .none (.s a) .none c).a) else k'))
  ∧ ∀ (s : State) (u : Twin) (d : SDst) (a b : SReg) (q : QReg), s.calm = true → s.popsReady .none (.s a) (.s b) = true →
      exec (.sel u d a b q) s = .next (s.issued (pops .none (.s a) (.s b)) fun c k =>
        let r := s.operands .none (.s a) (.s b) c
        (k.popped .none (.s a) (.s b)).sput d (if (k.qget q).getLsbD 0 then r.a else r.b))

/-- R123: the immediate forms, never predicated; lui reads its own destination and shifts 17 new low bits into it. -/
def Sys2Proof.Claims.ScalarImmediates : Prop :=
  ∀ (s : State) (u : Twin) (d : SDst) (a : SReg) (imm : BitVec 12) (n : Fin 64) (long : BitVec 17), s.calm = true →
    (s.popsReady .none (.s a) .none = true →
      ∀ p ∈ ([(.addi u d a imm, fun x => x + imm.signExtend 64), (.andi u d a imm, fun x => x &&& imm.signExtend 64),
          (.ori u d a imm, fun x => x ||| imm.signExtend 64), (.xori u d a imm, fun x => x ^^^ imm.signExtend 64),
          (.shli u d a n, fun x => x <<< n.val), (.shri u d a n, fun x => x >>> n.val), (.sari u d a n, fun x => x.sshiftRight n.val)]
          : List (Instr × (Word → Word))),
        exec p.1 s = .next (s.issued (pops .none (.s a) .none) fun c k =>
          (k.popped .none (.s a) .none).sput d (p.2 (s.operands .none (.s a) .none c).a)))
    ∧ exec (.li u d long) s = .next (s.issued false fun _ k => k.sput d (long.signExtend 64))
    ∧ exec (.lui u d long) s = .next (s.issued false fun _ k =>
        k.sput d (BitVec.ofNat 64 ((k.sget (d.castLE (by decide))).toNat * 2 ^ 17 + long.toNat)))

/-- R124: mfs reads each listed control register of the issuing bank, zero-extended, in its issue cycle; %rank.quad, %rank.core, %nflags
and the timeline counters are each core's own. -/
def Sys2Proof.Claims.ReadControlRegister : Prop :=
  ∀ (s : State) (u : Twin) (d : SDst), s.calm = true →
    let b := s.here
    (∀ p ∈ ([(.rankBlk, fun _ _ => b.rankBlk.setWidth 64), (.rankRegion, fun _ _ => b.rankReg.setWidth 64),
        (.rankDie, fun _ _ => b.rankDie.setWidth 64), (.rankRow, fun _ _ => b.rankRow.setWidth 64),
        (.rankQuad, fun c _ => BitVec.ofNat 64 (c.val / 4)), (.rankCore, fun c _ => BitVec.ofNat 64 c.val),
        (.fmt, fun _ _ => b.fmt.setWidth 64), (.mxstep, fun _ _ => b.mxstep.setWidth 64), (.chk, fun _ _ => 0),
        (.lswin, fun _ _ => b.lswin.setWidth 64), (.tsave, fun _ _ => b.tsave.setWidth 64),
        (.nflags, fun _ k => k.nflags.setWidth 64)] : List (CReg × (Fin 64 → CoreBank → Word))),
      exec (.mfs u d p.1) s = .next (s.issued false fun c k => k.sput d (p.2 c k)))
    ∧ (∀ n : Fin 8, exec (.mfs u d (.tl n)) s = .next (s.issued false fun _ k => k.sput d k.tl[n]))
    ∧ (∀ n : Fin 6, exec (.mfs u d (.index n)) s = .next (s.issued false fun _ k =>
        k.sput d (match b.frames[n.val]? with | some f => BitVec.ofNat 64 (f.pass % 2 ^ 32) | none => 0)))

/-- R121-R124: the other scalar instructions: bit counts, extensions, sel, the immediate forms, and mfs of every register. -/
def Obligations.ScalarOthers : Prop := Claims.ScalarCountsExtensionsSelect ∧ Claims.ScalarImmediates ∧ Claims.ReadControlRegister

/-- R125, R150: a compare-and-trap whose condition holds in every enabled core changes nothing but what it pops, and is guarded (R221). -/
def Sys2Proof.Claims.CompareTrapPasses : Prop :=
  (∀ (s : State) (u : Twin) (a b : SReg) (q : QReg) (m : ChkOp), s.calm = true → s.popsReady .none (.s a) (.s b) = true →
    (∀ c, ((s.partHere c).qget q).getLsbD 0 = true →
      let r := s.operands .none (.s a) (.s b) c
      match m with
      | .eq => r.a = r.b
      | .ne => r.a ≠ r.b
      | .lt => r.a.toInt < r.b.toInt) →
    exec (.chk u a b q m) s = .next (s.issued true fun _ k => k.popped .none (.s a) (.s b)))
  ∧ ∀ (s : State) (u : Twin) (a b : VReg) (q : QReg) (w : Width) (m : ChkOp), s.calm = true →
      s.popsReady .none (.v a) (.v b) = true →
      (∀ c, ∀ k < widthBits w / 32, ((s.partHere c).qget q).getLsbD (spanLo u w + 4 * k) = true →
        let x : BitVec 32 := BitVec.ofNat 32 (spanElement u w 32 (s.operands .none (.v a) (.v b) c).av k)
        let y : BitVec 32 := BitVec.ofNat 32 (spanElement u w 32 (s.operands .none (.v a) (.v b) c).bv k)
        match m with
        | .eq => x = y
        | .ne => x ≠ y
        | .lt => x.toInt < y.toInt) →
      exec (.vchk u a b q w m) s = .next (s.issued true fun _ k => k.popped .none (.v a) (.v b))

/-- R125: a chk whose condition fails in some enabled core traps CHK_FAIL with a mask of the failing cores, its unit and its encoding;
the bundle takes effect in no core. Under skew 0 the trap is taken in the issue cycle (R126). -/
def Sys2Proof.Claims.CompareTrapFails : Prop :=
  ∀ (s : State) (u : Twin) (a b : SReg) (q : QReg) (m : ChkOp) (core : Fin 64), s.traps = true → s.here.info.skew = 0 →
    s.popsReady .none (.s a) (.s b) = true →
    let fails : Fin 64 → Bool := fun c =>
      let r := s.operands .none (.s a) (.s b) c
      ((s.partHere c).qget q).getLsbD 0 && (match m with
        | .eq => decide (r.a ≠ r.b)
        | .ne => decide (r.a = r.b)
        | .lt => decide (r.b.toInt ≤ r.a.toInt))
    fails core = true →
    ∃ mask : BitVec 64, (∀ c : Fin 64, mask.getLsbD c.val = fails c) ∧
      exec (.chk u a b q m) s =
        .next (s.trapped { TrapInfo.row .chkFail with
          mask := mask, unit := unitS u, encoding := (encodeSyl true (.chk u a b q m)).getD 0 })

/-- R150: likewise a vchk whose condition fails for an enabled element in some core. -/
def Sys2Proof.Claims.VectorCompareTrapFails : Prop :=
  ∀ (s : State) (u : Twin) (a b : VReg) (q : QReg) (w : Width) (m : ChkOp) (core : Fin 64), s.traps = true → s.here.info.skew = 0 →
    s.popsReady .none (.v a) (.v b) = true →
    let fails : Fin 64 → Bool := fun c => (List.range (widthBits w / 32)).any fun k =>
      let x : BitVec 32 := BitVec.ofNat 32 (spanElement u w 32 (s.operands .none (.v a) (.v b) c).av k)
      let y : BitVec 32 := BitVec.ofNat 32 (spanElement u w 32 (s.operands .none (.v a) (.v b) c).bv k)
      ((s.partHere c).qget q).getLsbD (spanLo u w + 4 * k) && (match m with
        | .eq => decide (x ≠ y)
        | .ne => decide (x = y)
        | .lt => decide (y.toInt ≤ x.toInt))
    fails core = true →
    ∃ mask : BitVec 64, (∀ c : Fin 64, mask.getLsbD c.val = fails c) ∧
      exec (.vchk u a b q w m) s =
        .next (s.trapped { TrapInfo.row .chkFail with
          mask := mask, unit := unitV u, encoding := (encodeSyl true (.vchk u a b q w m)).getD 0 })

/-- R125, R150: a compare-and-trap passes where its condition holds in every enabled core and traps where it fails. -/
def Obligations.CompareTraps : Prop := Claims.CompareTrapPasses ∧ Claims.CompareTrapFails ∧ Claims.VectorCompareTrapFails

/-! ## Vector instructions (R127-R150) -/

/-- R127, R128, R133: the integer and logic forms act element by element on the span, land after 2 issue cycles in the bytes that are
enabled, and raise no flag. -/
def Sys2Proof.Claims.VectorIntegerTwo : Prop :=
  ∀ (s : State) (u : Twin) (d : VDst) (a b : VReg) (q : QReg) (wd : Width) (t : EType), s.calm = true →
    s.popsReady .none (.v a) (.v b) = true →
    let w := eBits t
    ∀ p ∈ ([(.vadd u d a b q wd t, w, fun x y => (x + y) % 2 ^ w), (.vsub u d a b q wd t, w, fun x y => (x + 2 ^ w - y) % 2 ^ w),
        (.vmul u d a b q wd t, w, fun x y => x * y % 2 ^ w),
        (.vmulh u d a b q wd t, w, fun x y => wrap (signext x w * signext y w / 2 ^ w) w),
        (.vmin u d a b q wd t, w, fun x y => if signext x w ≤ signext y w then x else y),
        (.vmax u d a b q wd t, w, fun x y => if signext x w ≥ signext y w then x else y),
        (.vshl u d a b q wd t, w, fun x y => x * 2 ^ (y % w) % 2 ^ w), (.vshr u d a b q wd t, w, fun x y => x / 2 ^ (y % w)),
        (.vsar u d a b q wd t, w, fun x y => wrap (signext x w / 2 ^ (y % w)) w),
        (.vand u d a b q wd, 8, fun x y => x &&& y), (.vor u d a b q wd, 8, fun x y => x ||| y), (.vxor u d a b q wd, 8, fun x y => x ^^^ y),
        (.vandn u d a b q wd, 8, fun x y => x &&& (255 - y))] : List (Instr × Nat × (Nat → Nat → Nat))),
      ∃ X : Fin 64 → Vec,
        (∀ c, ∀ i < widthBits wd / p.2.1,
          let r := s.operands .none (.v a) (.v b) c
          spanElement u wd p.2.1 (X c) i = p.2.2 (spanElement u wd p.2.1 r.av i) (spanElement u wd p.2.1 r.bv i))
        ∧ exec p.1 s = .next (s.issued (pops .none (.v a) (.v b)) fun c k =>
            (k.popped .none (.v a) (.v b)).flying
              [s.inFlight 2 (unitV u) (.vector d (X c) (k.qget q &&& byteMask (spanLo u wd) (widthBits wd / 8))) 0])

/-- R133: the one-source forms. The most negative element is its own absolute value and its own negation. -/
def Sys2Proof.Claims.VectorAbsoluteNegate : Prop :=
  ∀ (s : State) (u : Twin) (d : VDst) (a : VReg) (q : QReg) (wd : Width) (t : EType), s.calm = true →
    s.popsReady .none (.v a) .none = true →
    let w := eBits t
    ∀ p ∈ ([(.vabs u d a q wd t, fun x => if x < 2 ^ (w - 1) then x else 2 ^ w - x), (.vneg u d a q wd t, fun x => (2 ^ w - x) % 2 ^ w)]
        : List (Instr × (Nat → Nat))),
      ∃ X : Fin 64 → Vec,
        (∀ c, ∀ i < widthBits wd / w,
          spanElement u wd w (X c) i = p.2 (spanElement u wd w (s.operands .none (.v a) .none c).av i))
        ∧ exec p.1 s = .next (s.issued (pops .none (.v a) .none) fun c k =>
            (k.popped .none (.v a) .none).flying
              [s.inFlight 2 (unitV u) (.vector d (X c) (k.qget q &&& byteMask (spanLo u wd) (widthBits wd / 8))) 0])

/-- The flags of the elements of a span whose lowest byte a predicate enables (R128). -/
def Sys2Proof.Claims.spanFlags (m : Pred) (lo w n : Nat) (g : Nat → Flags) : Flags :=
  (List.range n).foldl (fun f i => if m.getLsbD (lo + i * w / 8) then f ||| g i else f) 0

/-- R133: vadds and vsubs clamp to the element's range and raise sat for each active element that clamps. -/
def Sys2Proof.Claims.VectorSaturating : Prop :=
  ∀ (s : State) (u : Twin) (d : VDst) (a b : VReg) (q : QReg) (wd : Width) (t : EType), s.calm = true →
    s.popsReady .none (.v a) (.v b) = true →
    let w := eBits t
    ∀ p ∈ ([(.vadds u d a b q wd t, fun x y => x + y), (.vsubs u d a b q wd t, fun x y => x - y)] : List (Instr × (Int → Int → Int))),
      ∃ X : Fin 64 → Vec,
        (∀ c, ∀ i < widthBits wd / w,
          let r := s.operands .none (.v a) (.v b) c
          let z := p.2 (signext (spanElement u wd w r.av i) w) (signext (spanElement u wd w r.bv i) w)
          signext (spanElement u wd w (X c) i) w = max (-2 ^ (w - 1)) (min (2 ^ (w - 1) - 1) z))
        ∧ exec p.1 s = .next (s.issued (pops .none (.v a) (.v b)) fun c k =>
            let r := s.operands .none (.v a) (.v b) c
            (k.popped .none (.v a) (.v b)).flying
              [s.inFlight 2 (unitV u) (.vector d (X c) (k.qget q &&& byteMask (spanLo u wd) (widthBits wd / 8)))
                (spanFlags (k.qget q) (spanLo u wd) w (widthBits wd / w) fun i =>
                  let z := p.2 (signext (spanElement u wd w r.av i) w) (signext (spanElement u wd w r.bv i) w)
                  if z < -2 ^ (w - 1) ∨ 2 ^ (w - 1) - 1 < z then Flags.sat else 0)])

/-- R127, R128, R133: the integer and logic vector instructions, element by element, the saturating ones among them. -/
def Obligations.VectorInteger : Prop := Claims.VectorIntegerTwo ∧ Claims.VectorAbsoluteNegate ∧ Claims.VectorSaturating

/-- R134, R135: the floating forms act element by element on fp32 or bf16, with the flags of the active elements; latency 4, and 8 for the
special functions. vfma and vfms read their destination as the addend. -/
def Obligations.VectorFloating : Prop :=
  ∀ (s : State) (u : Twin) (d : VDst) (a b : VReg) (q : QReg) (wd : Width) (f : FType), s.calm = true →
    let F := fmtOf f
    let D : Src := .v (d.castLE (by decide))
    ∀ p ∈ ([(.vfadd u d a b q wd f, .none, .v b, 4, fun x y _ => fAdd F false x y), (.vfsub u d a b q wd f, .none, .v b, 4, fun x y _ => fAdd F true x y),
        (.vfmul u d a b q wd f, .none, .v b, 4, fun x y _ => fMul F x y),
        (.vfma u d a b q wd f, D, .v b, 4, fun x y z => fMulAdd F false x y z), (.vfms u d a b q wd f, D, .v b, 4, fun x y z => fMulAdd F true x y z),
        (.vfmin u d a b q wd f, .none, .v b, 4, fun x y _ => fMinMax F false x y),
        (.vfmax u d a b q wd f, .none, .v b, 4, fun x y _ => fMinMax F true x y),
        (.vfabs u d a q wd f, .none, .none, 4, fun x _ _ => fAbs F x), (.vfneg u d a q wd f, .none, .none, 4, fun x _ _ => fNeg F x),
        (.vexp2 u d a q wd f, .none, .none, 8, fun x _ _ => fExp2 F x), (.vlog2 u d a q wd f, .none, .none, 8, fun x _ _ => fLog2 F x),
        (.vrcp u d a q wd f, .none, .none, 8, fun x _ _ => fRcp F x), (.vrsqrt u d a q wd f, .none, .none, 8, fun x _ _ => fRsqrt F x)]
        : List (Instr × Src × Src × Nat × (Nat → Nat → Nat → Nat × Flags))),
      s.popsReady p.2.1 (.v a) p.2.2.1 = true →
      let el (c : Fin 64) (i : Nat) : Nat × Flags :=
        let r := s.operands p.2.1 (.v a) p.2.2.1 c
        p.2.2.2.2 (spanElement u wd F.width r.av i) (spanElement u wd F.width r.bv i) (spanElement u wd F.width r.dv i)
      ∃ X : Fin 64 → Vec,
        (∀ c, ∀ i < widthBits wd / F.width, spanElement u wd F.width (X c) i = (el c i).1 % 2 ^ F.width)
        ∧ exec p.1 s = .next (s.issued (pops p.2.1 (.v a) p.2.2.1) fun c k =>
            (k.popped p.2.1 (.v a) p.2.2.1).flying
              [s.inFlight p.2.2.2.1 (unitV u) (.vector d (X c) (k.qget q &&& byteMask (spanLo u wd) (widthBits wd / 8)))
                (spanFlags (k.qget q) (spanLo u wd) F.width (widthBits wd / F.width) fun i => (el c i).2)])

/-- R136, R137: a compare sets every predicate bit of an element to its outcome, is never predicated, and keeps the bits outside the
span; vcmp raises no flag and vfcmp those of every element. -/
def Obligations.VectorCompare : Prop :=
  ∀ (s : State) (u : Twin) (d : QReg) (a b : VReg) (wd : Width), s.calm = true → s.popsReady .none (.v a) (.v b) = true →
    (∀ t : EType,
      let w := eBits t
      ∀ p ∈ ([(.eq, fun x y => decide (x = y)), (.ne, fun x y => decide (x ≠ y)), (.lt, fun x y => decide (signext x w < signext y w)),
          (.le, fun x y => decide (signext x w ≤ signext y w)), (.ltn, fun x y => decide (x < y)), (.len, fun x y => decide (x ≤ y))]
          : List (VCond × (Nat → Nat → Bool))),
        ∃ X : Fin 64 → Pred,
          (∀ c, ∀ i < widthBits wd / w, ∀ j < w / 8,
            let r := s.operands .none (.v a) (.v b) c
            (X c).getLsbD (spanLo u wd + i * (w / 8) + j) = p.2 (spanElement u wd w r.av i) (spanElement u wd w r.bv i))
          ∧ exec (.vcmp u d a b p.1 wd t) s = .next (s.issued (pops .none (.v a) (.v b)) fun c k =>
              (k.popped .none (.v a) (.v b)).flying
                [s.inFlight 2 (unitV u) (.q d (X c) (byteMask (spanLo u wd) (widthBits wd / 8))) 0]))
    ∧ ∀ (f : FType) (cond : FCond),
        let F := fmtOf f
        let el (c : Fin 64) (i : Nat) : Bool × Flags :=
          let r := s.operands .none (.v a) (.v b) c
          fCompare F cond (spanElement u wd F.width r.av i) (spanElement u wd F.width r.bv i)
        ∃ X : Fin 64 → Pred,
          (∀ c, ∀ i < widthBits wd / F.width, ∀ j < F.width / 8,
            (X c).getLsbD (spanLo u wd + i * (F.width / 8) + j) = (el c i).1)
          ∧ exec (.vfcmp u d a b cond wd f) s = .next (s.issued (pops .none (.v a) (.v b)) fun c k =>
              (k.popped .none (.v a) (.v b)).flying
                [s.inFlight 4 (unitV u) (.q d (X c) (byteMask (spanLo u wd) (widthBits wd / 8)))
                  ((List.range (widthBits wd / F.width)).foldl (fun g i => g ||| (el c i).2) 0)])

/-- R138: the predicate syllables act bitwise on the span's bits, and qcnt counts them into a core scalar. -/
def Obligations.PredicateLogic : Prop :=
  ∀ (s : State) (u : Twin) (d a b : QReg) (wd : Width), s.calm = true →
    (∀ p ∈ ([(.qand u d a b wd, fun x y => x &&& y), (.qor u d a b wd, fun x y => x ||| y), (.qxor u d a b wd, fun x y => x ^^^ y),
        (.qnot u d a wd, fun x _ => ~~~x)] : List (Instr × (Pred → Pred → Pred))),
      exec p.1 s = .next (s.issued false fun _ k =>
        k.flying [s.inFlight 2 (unitV u) (.q d (p.2 (k.qget a) (k.qget b)) (byteMask (spanLo u wd) (widthBits wd / 8))) 0]))
    ∧ ∀ e : SDst, ∃ n : Fin 64 → Nat,
        (∀ c, n c = ((List.range (widthBits wd / 8)).filter fun i => ((s.partHere c).qget a).getLsbD (spanLo u wd + i)).length)
        ∧ exec (.qcnt u e a wd) s = .next (s.issued false fun c k =>
            k.flying [s.inFlight 2 (unitV u) (.scalar e (BitVec.ofNat 64 (n c))) 0])

/-- R139, R142, R144, R148, R149: selecting, broadcasting, permuting and the Q4X forms, by the value of each element written. -/
def Sys2Proof.Claims.VectorSelectPermute : Prop :=
  ∀ (s : State) (u : Twin) (d : VDst) (a b : VReg) (x : SReg) (q : QReg) (wd : Width) (t : EType) (f : FType), s.calm = true →
    let w := eBits t
    let span := byteMask (spanLo u wd) (widthBits wd / 8)
    (s.popsReady .none (.v a) (.v b) = true →
      (∃ X : Fin 64 → Vec,
        (∀ c, ∀ i < widthBits wd / 8,
          let r := s.operands .none (.v a) (.v b) c
          spanElement u wd 8 (X c) i =
            if ((s.partHere c).qget q).getLsbD (spanLo u wd + i) then spanElement u wd 8 r.av i else spanElement u wd 8 r.bv i)
        ∧ exec (.vsel u d a b q wd) s = .next (s.issued (pops .none (.v a) (.v b)) fun c k =>
            (k.popped .none (.v a) (.v b)).flying [s.inFlight 2 (unitV u) (.vector d (X c) span) 0]))
      ∧ ∃ X : Fin 64 → Vec,
        (∀ c, ∀ i < widthBits wd / w,
          let r := s.operands .none (.v a) (.v b) c
          spanElement u wd w (X c) i = spanElement u wd w r.av (spanElement u wd w r.bv i % (widthBits wd / w)))
        ∧ exec (.vperm u d a b q wd t) s = .next (s.issued (pops .none (.v a) (.v b)) fun c k =>
            (k.popped .none (.v a) (.v b)).flying [s.inFlight 2 (unitV u) (.vector d (X c) (k.qget q &&& span)) 0]))
    ∧ (s.popsReady .none (.s x) .none = true →
        ∃ X : Fin 64 → Vec,
          (∀ c, ∀ i < widthBits wd / w, spanElement u wd w (X c) i = (s.operands .none (.s x) .none c).a.toNat % 2 ^ w)
          ∧ exec (.vbcast u d x q wd t) s = .next (s.issued (pops .none (.s x) .none) fun c k =>
              (k.popped .none (.s x) .none).flying [s.inFlight 2 (unitV u) (.vector d (X c) (k.qget q &&& span)) 0]))
    ∧ (s.popsReady .none (.v a) .none = true →
        ∃ X : Fin 64 → Vec,
          let nib (v : Nat) : Nat := wrap (max (-7) (min 7 (signext v 8))) 4
          let off (v : Nat) : Bool := signext v 8 < -7 || 7 < signext v 8
          (∀ c, ∀ m < widthBits wd / 16,
            let r := s.operands .none (.v a) .none c
            spanElement u wd 8 (X c) m = nib (spanElement u wd 8 r.av (2 * m)) + 16 * nib (spanElement u wd 8 r.av (2 * m + 1)))
          ∧ exec (.vpack u d a q wd) s = .next (s.issued (pops .none (.v a) .none) fun c k =>
              let r := s.operands .none (.v a) .none c
              (k.popped .none (.v a) .none).flying
                [s.inFlight 2 (unitV u) (.vector d (X c) (k.qget q &&& byteMask (spanLo u wd) (widthBits wd / 16)))
                  (spanFlags (k.qget q) (spanLo u wd) 8 (widthBits wd / 16) fun m =>
                    if off (spanElement u wd 8 r.av (2 * m)) || off (spanElement u wd 8 r.av (2 * m + 1)) then Flags.sat else 0)]))
    ∧ (s.popsReady .none (.v a) (.s x) = true →
        let F := fmtOf f
        let pair (c : Fin 64) (i : Nat) :=
          let r := s.operands .none (.v a) (.s x) c
          q4xPair (spanElement u wd 8 r.av (i / 2)) (r.b.toNat % 16)
        ∃ X : Fin 64 → Vec,
          (∀ c, ∀ i < widthBits wd / F.width,
            spanElement u wd F.width (X c) i = F.encodeExact (if i % 2 = 0 then (pair c i).1 else (pair c i).2.1) % 2 ^ F.width)
          ∧ exec (.vunpack u d a x q wd f) s = .next (s.issued (pops .none (.v a) (.s x)) fun c k =>
              (k.popped .none (.v a) (.s x)).flying
                [s.inFlight 2 (unitV u) (.vector d (X c) (k.qget q &&& span))
                  (spanFlags (k.qget q) (spanLo u wd) F.width (widthBits wd / F.width) fun i =>
                    if (pair c i).2.2 then Flags.ec else 0)]))

/-- R143: vext reads one element, its index modulo the number of elements, sign-extended into a core scalar, in every core. -/
def Sys2Proof.Claims.VectorExtract : Prop :=
  ∀ (s : State) (u : Twin) (d : SDst) (a : VReg) (b : SReg) (wd : Width) (t : EType), s.calm = true →
    s.popsReady .none (.v a) (.s b) = true →
    exec (.vext u d a b wd t) s = .next (s.issued (pops .none (.v a) (.s b)) fun c k =>
      let r := s.operands .none (.v a) (.s b) c
      (k.popped .none (.v a) (.s b)).flying
        [s.inFlight 2 (unitV u) (.scalar d ((BitVec.ofNat (eBits t)
          (spanElement u wd (eBits t) r.av (r.b.toNat % (widthBits wd / eBits t)))).signExtend 64)) 0])

/-- R139, R142-R144, R148, R149: the vector instructions that move elements: vsel by the byte, vbcast, vperm, vpack, vunpack, vext. -/
def Obligations.VectorMove : Prop := Claims.VectorSelectPermute ∧ Claims.VectorExtract

/-- R140, R141: vcvt places its elements by the wider of the two widths and writes the narrow ones over the prefix of the span. -/
def Obligations.VectorConvert : Prop :=
  ∀ (s : State) (u : Twin) (d : VDst) (a : VReg) (code : Fin 32) (q : QReg) (wd : Width) (m : RMode), s.calm = true →
    s.popsReady .none (.v a) .none = true →
    let ws := (cvtSpec code).1
    let wr := (cvtSpec code).2.1
    let n := widthBits wd / max ws wr
    let el (c : Fin 64) (i : Nat) : Nat × Flags := (cvtSpec code).2.2 m (spanElement u wd ws (s.operands .none (.v a) .none c).av i)
    ∃ X : Fin 64 → Vec,
      (∀ c, ∀ i < n, spanElement u wd wr (X c) i = (el c i).1 % 2 ^ wr)
      ∧ exec (.vcvt u d a code q wd m) s = .next (s.issued (pops .none (.v a) .none) fun c k =>
          (k.popped .none (.v a) .none).flying
            [s.inFlight 4 (unitV u) (.vector d (X c) (k.qget q &&& byteMask (spanLo u wd) (n * wr / 8)))
              (spanFlags (k.qget q) (spanLo u wd) wr n fun i => (el c i).2)])

/-- R145-R147: vred writes the value of the balanced tree over the active elements, or the identity, into the enabled bytes of every
element; vscan the inclusive prefixes of its stages; latency 4, and 8 for the floating operations. That the enabled bytes of an element
whose lowest byte is off are written, and that a vscan element with no active element at or before it takes the identity, is log entry
41's reading; that vscan's flags take in those of every position is log entry 144's, and that a NaN which meets no other value keeps its
payload is log entry 145's. -/
def Obligations.VectorReduceScan : Prop :=
  ∀ (s : State) (u : Twin) (d : VDst) (a : VReg) (o : RedOp) (q : QReg) (wd : Width), s.calm = true →
    s.popsReady .none (.v a) .none = true →
    let w := redBits o
    let n := widthBits wd / w
    let xs (c : Fin 64) : List (Option Nat) := (s.operands .none (.v a) .none c).present u wd q w
    let tree (c : Fin 64) := (redTree o (Nat.log2 n) ((xs c).map fun x => (x, 0))).head?.getD (none, 0)
    let scan (c : Fin 64) := scanFrom o (Nat.log2 n) 1 (xs c, 0)
    let lat := match o with | .add _ | .min _ | .max _ => 4 | .fadd _ | .fmin _ | .fmax _ => 8
    (∃ X : Fin 64 → Vec,
      (∀ c, ∀ i < n, spanElement u wd w (X c) i = ((tree c).1.getD (redIdentity o)) % 2 ^ w)
      ∧ exec (.vred u d a o q wd) s = .next (s.issued (pops .none (.v a) .none) fun c k =>
          (k.popped .none (.v a) .none).flying
            [s.inFlight lat (unitV u) (.vector d (X c) ((s.operands .none (.v a) .none c).enabledMask q (spanLo u wd) n w)) (tree c).2]))
    ∧ ∃ X : Fin 64 → Vec,
        (∀ c, ∀ i < n, spanElement u wd w (X c) i = (((scan c).1[i]?).getD none).getD (redIdentity o) % 2 ^ w)
        ∧ exec (.vscan u d a o q wd) s = .next (s.issued (pops .none (.v a) .none) fun c k =>
            (k.popped .none (.v a) .none).flying
              [s.inFlight lat (unitV u) (.vector d (X c) ((s.operands .none (.v a) .none c).enabledMask q (spanLo u wd) n w)) (scan c).2])

/-! ## Numbers (R36-R56) -/

/-- R36: the value of an encoding's fields, the all-ones exponent taken as an ordinary one: an infinity then stands above every finite
value, as 2^(top - bias). -/
def Sys2Proof.Claims.fieldsValue (F : Fmt) (x : Nat) : ℚ :=
  let e := x / 2 ^ F.frac % (F.top + 1)
  let f : ℚ := (x % 2 ^ F.frac : Nat) / 2 ^ F.frac
  let v : ℚ := if e = 0 then 2 ^ (1 - (F.bias : ℤ)) * f else 2 ^ ((e : ℤ) - F.bias) * (1 + f)
  if x.testBit (F.width - 1) then -v else v

/-- R36: what stands in an encoding below its sign bit; the encodings up to the largest finite one; an infinity; a NaN, and a signalling
one (R37). -/
def Sys2Proof.Claims.magnitude (F : Fmt) (x : Nat) : Nat := x % 2 ^ (F.width - 1)
def Sys2Proof.Claims.finite (F : Fmt) (x : Nat) : Bool := x < 2 ^ F.width && magnitude F x ≤ F.maxFinite
def Sys2Proof.Claims.infinite (F : Fmt) (x : Nat) : Bool := F.inf && magnitude F x == F.maxFinite + 1
def Sys2Proof.Claims.isNan (F : Fmt) (x : Nat) : Bool := F.maxFinite < magnitude F x && !infinite F x
def Sys2Proof.Claims.signals (F : Fmt) (x : Nat) : Bool := isNan F x && F.width > 8 && !x.testBit (F.frac - 1)
/-- nv where one of the operands is a signalling NaN (R37). -/
def Sys2Proof.Claims.nvOf (F : Fmt) (xs : List Nat) : Flags := if xs.any (signals F) then Flags.nv else 0

/-- R51, R54: x is the finite encoding that a nonzero value rounds to in a mode: of the value's sign, and of all finite encodings the nearest
(between two the even one), the greatest toward zero, the least above or the greatest below. -/
def Sys2Proof.Claims.closest (F : Fmt) (mode : RMode) (v : ℚ) (x : Nat) : Prop :=
  let r := fieldsValue F x
  finite F x = true ∧ x.testBit (F.width - 1) = decide (v < 0) ∧ ∀ y, finite F y = true →
    let z := fieldsValue F y
    match mode with
    | .rne => |r - v| < |z - v| ∨ (|r - v| = |z - v| ∧ (z = r ∨ x % 2 = 0))
    | .rz => |r| ≤ |v| ∧ (|z| ≤ |v| → |z| ≤ |r|)
    | .ru => v ≤ r ∧ (v ≤ z → r ≤ z)
    | .rd => r ≤ v ∧ (z ≤ v → z ≤ r)

/-- R54, R55: rounded to the format's precision with an unbounded exponent, the value exceeds the largest finite one. M is that value, u the
spacing there. -/
def Sys2Proof.Claims.exceeds (F : Fmt) (mode : RMode) (v : ℚ) : Prop :=
  let M := fieldsValue F F.maxFinite
  let u := M - fieldsValue F (F.maxFinite - 1)
  let away : Bool := match mode with
    | .ru => 0 < v
    | .rd => v < 0
    | _ => false
  if mode = .rne then M + u / 2 < |v| ∨ (|v| = M + u / 2 ∧ F.maxFinite % 2 = 1) else if away then M < |v| else M + u ≤ |v|

/-- R50, R54: rounded to the format's precision with an unbounded exponent, the value's magnitude lies below the smallest normal one, N; u is
the spacing below N. -/
def Sys2Proof.Claims.belowNormal (F : Fmt) (mode : RMode) (v : ℚ) : Prop :=
  let N : ℚ := 2 ^ (1 - (F.bias : ℤ))
  let u := N / 2 ^ (F.frac + 1)
  let away : Bool := match mode with
    | .ru => 0 < v
    | .rd => v < 0
    | _ => false
  if mode = .rne then |v| < N - u / 2 else if away then |v| ≤ N - u else |v| < N

/-- R50, R51, R54, R55: an exact value delivered in a format: an exact zero with the sign given and no flag; past the range the infinity with of
and nx, or in the saturating form the largest finite value with sat and nx; otherwise the value it rounds to, with nx where that is not the
value and uf where the value is besides below the normal ones. -/
def Sys2Proof.Claims.rounded (F : Fmt) (mode : RMode) (sat : Bool) (v : ℚ) (zneg : Bool) (out : Nat × Flags) : Prop :=
  (v = 0 → out = (F.sign zneg, 0))
  ∧ (exceeds F mode v →
      out = if sat then (F.sign (v < 0) + F.maxFinite, Flags.sat ||| Flags.nx) else (F.infinity (v < 0), Flags.of ||| Flags.nx))
  ∧ (v ≠ 0 → ¬ exceeds F mode v →
      closest F mode v out.1 ∧ (fieldsValue F out.1 = v → out.2 = 0)
      ∧ (fieldsValue F out.1 ≠ v → belowNormal F mode v → out.2 = Flags.nx ||| Flags.uf)
      ∧ (fieldsValue F out.1 ≠ v → ¬ belowNormal F mode v → out.2 = Flags.nx))

/-- What a decoded number stands for where it is finite. -/
def Sys2Proof.Claims.real : Machine.Num → ℚ
  | .fin neg m e => (if neg then -1 else 1) * m * 2 ^ e
  | _ => 0

/-- R36, R37: the four formats' widths, fields, largest finite encodings and canonical NaNs, and the value of every encoding: the fields' value,
an infinity, or a NaN, which signals in fp32 and bf16 where its top fraction bit is 0. -/
def Sys2Proof.Claims.Encodings : Prop :=
  ∀ p ∈ ([(.fp32, 32, 23, 127, true, 0x7F7FFFFF, 0x7FC00000), (.bf16, 16, 7, 127, true, 0x7F7F, 0x7FC0), (.e5m2, 8, 2, 15, true, 0x7B, 0x7E),
      (.e4m3, 8, 3, 7, false, 0x7E, 0x7F)] : List (Fmt × Nat × Nat × Nat × Bool × Nat × Nat)),
    let F := p.1
    F.width = p.2.1 ∧ F.frac = p.2.2.1 ∧ F.bias = p.2.2.2.1 ∧ F.inf = p.2.2.2.2.1 ∧ F.maxFinite = p.2.2.2.2.2.1 ∧ F.nan = p.2.2.2.2.2.2
    ∧ F.top + 1 = 2 ^ (F.width - 1 - F.frac)
    ∧ ∀ x < 2 ^ F.width, let neg := x.testBit (F.width - 1)
        (finite F x = true → real (F.value x) = fieldsValue F x ∧ ∃ m e, F.value x = .fin neg m e)
        ∧ (infinite F x = true → F.value x = .inf neg ∧ x = F.infinity neg)
        ∧ (isNan F x = true → F.value x = .nan (signals F x))

/-- R38, R51, R134: a sum, a difference, a product, vfma's a b + c and vfms's c - a b of finite fp32 or bf16 operands: the exact result rounded
once, an exact zero with the sign the rule gives it. -/
def Sys2Proof.Claims.FloatingArithmetic : Prop :=
  ∀ F ∈ [Fmt.fp32, Fmt.bf16], ∀ a b c, finite F a = true → finite F b = true → finite F c = true →
    let x := fieldsValue F a
    let y := fieldsValue F b
    let z := fieldsValue F c
    let neg := fun w : Nat => w.testBit (F.width - 1)
    rounded F .rne false (x + y) (neg a && neg b) (fAdd F false a b)
    ∧ rounded F .rne false (x - y) (neg a && !neg b) (fAdd F true a b)
    ∧ rounded F .rne false (x * y) (neg a != neg b) (fMul F a b)
    ∧ rounded F .rne false (x * y + z) ((neg a != neg b) && neg c) (fMulAdd F false a b c)
    ∧ rounded F .rne false (z - x * y) ((neg a == neg b) && neg c) (fMulAdd F true a b c)

/-- R37, R51: the same operations where an operand is a NaN or an infinity. That infinity times 0 beside a NaN addend raises nv is log entry
121's choice. -/
def Sys2Proof.Claims.FloatingSpecials : Prop :=
  ∀ F ∈ [Fmt.fp32, Fmt.bf16], ∀ (flip : Bool), ∀ a < 2 ^ F.width, ∀ b < 2 ^ F.width, ∀ c < 2 ^ F.width,
    let neg := fun w : Nat => w.testBit (F.width - 1)
    let p := (neg a != neg b) != flip
    let zeroInf := (infinite F a && magnitude F b == 0) || (magnitude F a == 0 && infinite F b)
    let inf := infinite F a || infinite F b
    (isNan F a || isNan F b → fAdd F flip a b = (F.nan, nvOf F [a, b]) ∧ fMul F a b = (F.nan, nvOf F [a, b])
      ∧ fMulAdd F flip a b c = (F.nan, nvOf F [a, b, c]))
    ∧ (isNan F a = false → isNan F b = false →
        (inf →
          fAdd F flip a b = (if infinite F a && infinite F b && (neg a != (neg b != flip)) then (F.nan, Flags.nv)
            else (F.infinity (if infinite F a then neg a else neg b != flip), 0))
          ∧ fMul F a b = if zeroInf then (F.nan, Flags.nv) else (F.infinity (neg a != neg b), 0))
        ∧ (zeroInf → fMulAdd F flip a b c = (F.nan, Flags.nv))
        ∧ (zeroInf = false → isNan F c → fMulAdd F flip a b c = (F.nan, nvOf F [c]))
        ∧ (zeroInf = false → isNan F c = false → inf || infinite F c →
            fMulAdd F flip a b c = if inf && infinite F c && (neg c != p) then (F.nan, Flags.nv)
              else (F.infinity (if inf then p else neg c), 0)))

/-- R52, R134, R137: minimum and maximum, which order -0 below +0, the absolute value and the negation, and the five compares. -/
def Sys2Proof.Claims.FloatingOrder : Prop :=
  ∀ F ∈ [Fmt.fp32, Fmt.bf16], ∀ a < 2 ^ F.width, ∀ b < 2 ^ F.width,
    let rank := fun w : Nat => if w.testBit (F.width - 1) then -((magnitude F w : ℤ) + 1) else (magnitude F w : ℤ)
    let x := fieldsValue F a
    let y := fieldsValue F b
    let sn := nvOf F [a, b]
    (isNan F a = false → isNan F b = false →
      fMinMax F false a b = (if rank a ≤ rank b then a else b, 0) ∧ fMinMax F true a b = (if rank b ≤ rank a then a else b, 0)
      ∧ fCompare F .eq a b = (decide (x = y), 0) ∧ fCompare F .ne a b = (decide (x ≠ y), 0) ∧ fCompare F .lt a b = (decide (x < y), 0)
      ∧ fCompare F .le a b = (decide (x ≤ y), 0) ∧ fCompare F .un a b = (false, 0))
    ∧ (isNan F a || isNan F b →
        (∀ g, fMinMax F g a b = (if isNan F a && isNan F b then F.nan else if isNan F a then b else a, sn))
        ∧ fCompare F .eq a b = (false, sn) ∧ fCompare F .ne a b = (true, sn) ∧ fCompare F .lt a b = (false, Flags.nv)
        ∧ fCompare F .le a b = (false, Flags.nv) ∧ fCompare F .un a b = (true, sn))
    ∧ fAbs F a = (if isNan F a then (F.nan, nvOf F [a]) else (magnitude F a, 0))
    ∧ fNeg F a = if isNan F a then (F.nan, nvOf F [a]) else (a ^^^ 2 ^ (F.width - 1), 0)

/-- R53: the special functions: their special cases; the reciprocal and the reciprocal square root of every finite operand (no encoding's
value lies between r and 1/√x, and none is nearer); 2^n and log2 of 2^n, exact. Where 2^x or log2 x is irrational the value is that of log
entry 25's series, and nothing is claimed of it here. -/
def Sys2Proof.Claims.SpecialFunctions : Prop :=
  ∀ F ∈ [Fmt.fp32, Fmt.bf16], ∀ a < 2 ^ F.width,
    let x := fieldsValue F a
    let neg := a.testBit (F.width - 1)
    let zero := magnitude F a = 0
    (isNan F a = true → ∀ g ∈ [fExp2, fLog2, fRcp, fRsqrt], g F a = (F.nan, nvOf F [a]))
    ∧ (infinite F a = true → fExp2 F a = (if neg then 0 else F.infinity false, 0) ∧ fRcp F a = (F.sign neg, 0)
        ∧ fLog2 F a = (if neg then (F.nan, Flags.nv) else (F.infinity false, 0)) ∧ fRsqrt F a = if neg then (F.nan, Flags.nv) else (0, 0))
    ∧ (zero → fLog2 F a = (F.infinity true, 0) ∧ fRcp F a = (F.infinity neg, 0) ∧ fRsqrt F a = (F.infinity neg, 0))
    ∧ (finite F a = true → ¬ zero →
        rounded F .rne false (1 / x) false (fRcp F a)
        ∧ (neg = true → fLog2 F a = (F.nan, Flags.nv) ∧ fRsqrt F a = (F.nan, Flags.nv))
        ∧ (neg = false →
            (let r := fieldsValue F (fRsqrt F a).1
             finite F (fRsqrt F a).1 = true ∧ 0 < r ∧ (fRsqrt F a).2 = (if r ^ 2 * x = 1 then 0 else Flags.nx)
             ∧ ∀ y, finite F y = true → 0 < fieldsValue F y →
                 let mid := (fieldsValue F y + r) / 2
                 (fieldsValue F y < r → mid ^ 2 * x < 1) ∧ (r < fieldsValue F y → 1 < mid ^ 2 * x))
            ∧ ∀ n : ℤ, x = 2 ^ n → rounded F .rne false (n : ℚ) false (fLog2 F a)))
    ∧ ∀ (n : ℤ) (r : Nat), finite F a = true → x = n → finite F r = true → fieldsValue F r = 2 ^ n → fExp2 F a = (r, 0)

/-- R54-R56, R140: every conversion code: between the floating formats, from an integer, to an integer in each rounding mode, and between integers. -/
def Sys2Proof.Claims.Conversions : Prop :=
  ∀ m : RMode,
    (∀ p ∈ ([(0, .bf16, .fp32, true), (1, .e4m3, .fp32, true), (2, .e5m2, .fp32, true), (3, .fp32, .bf16, true), (4, .fp32, .bf16, false),
          (5, .fp32, .e4m3, true), (6, .fp32, .e4m3, false), (7, .fp32, .e5m2, true), (8, .fp32, .e5m2, false)]
          : List (Fin 32 × Fmt × Fmt × Bool)), let S := p.2.1; let F := p.2.2.1
        (cvtSpec p.1).1 = S.width ∧ (cvtSpec p.1).2.1 = F.width ∧ ∀ a < 2 ^ S.width, let neg := a.testBit (S.width - 1)
          (finite S a = true → rounded F m p.2.2.2 (fieldsValue S a) neg ((cvtSpec p.1).2.2 m a))
          ∧ (isNan S a = true → (cvtSpec p.1).2.2 m a = (F.nan, nvOf S [a]))
          ∧ (infinite S a = true → (cvtSpec p.1).2.2 m a = if F.inf then (F.infinity neg, 0)
              else if p.2.2.2 then (F.sign neg + F.maxFinite, Flags.sat) else (F.nan, Flags.nv)))
    ∧ (∀ p ∈ ([(9, 32, true), (12, 8, true), (15, 8, false), (18, 16, true)] : List (Fin 32 × Nat × Bool)),
        (cvtSpec p.1).1 = p.2.1 ∧ (cvtSpec p.1).2.1 = 32 ∧ ∀ a : Nat, a < 2 ^ p.2.1 →
          rounded .fp32 m true (((if p.2.2 && a.testBit (p.2.1 - 1) then (a : ℤ) - 2 ^ p.2.1 else a) : ℤ) : ℚ) false ((cvtSpec p.1).2.2 m a))
    ∧ (∀ p ∈ ([(10, 32, true, true), (11, 32, true, false), (13, 8, true, true), (14, 8, true, false), (16, 8, false, true), (17, 8, false, false),
          (19, 16, true, true), (20, 16, true, false)] : List (Fin 32 × Nat × Bool × Bool)),
        let n := p.2.1
        let lo : ℤ := if p.2.2.1 then -2 ^ (n - 1) else 0
        let hi : ℤ := if p.2.2.1 then 2 ^ (n - 1) - 1 else 2 ^ n - 1
        let code (k : ℤ) : Nat := (k % 2 ^ n).toNat
        (cvtSpec p.1).1 = 32 ∧ (cvtSpec p.1).2.1 = n ∧ ∀ a < 2 ^ 32,
          let x := fieldsValue .fp32 a
          (finite .fp32 a = true → ∃ k : ℤ,
            (match m with
              | .rne => |(k : ℚ) - x| < 1 / 2 ∨ (|(k : ℚ) - x| = 1 / 2 ∧ k % 2 = 0)
              | .rz => k = if 0 ≤ x then ⌊x⌋ else ⌈x⌉
              | .ru => k = ⌈x⌉
              | .rd => k = ⌊x⌋)
            ∧ (cvtSpec p.1).2.2 m a =
                let nx := if (k : ℚ) = x then 0 else Flags.nx
                if lo ≤ k ∧ k ≤ hi then (code k, nx)
                else if p.2.2.2 then (code (if k < lo then lo else hi), Flags.sat ||| nx) else (code k, Flags.nv ||| nx))
          ∧ (isNan .fp32 a = true → (cvtSpec p.1).2.2 m a = (0, Flags.nv))
          ∧ (infinite .fp32 a = true → (cvtSpec p.1).2.2 m a =
              if p.2.2.2 then (code (if a.testBit 31 then lo else hi), Flags.sat) else (0, Flags.nv)))
    ∧ ∀ p ∈ ([(21, 8, true, 32, true, false), (22, 8, false, 32, true, false), (23, 16, true, 32, true, false), (24, 32, true, 8, true, true),
          (25, 32, true, 8, true, false), (26, 32, true, 8, false, true), (27, 32, true, 8, false, false), (28, 32, true, 16, true, true),
          (29, 32, true, 16, true, false), (30, 32, true, 64, true, false), (31, 64, true, 32, true, true)]
          : List (Fin 32 × Nat × Bool × Nat × Bool × Bool)),
        let n := p.2.2.2.1
        let lo : ℤ := if p.2.2.2.2.1 then -2 ^ (n - 1) else 0
        let hi : ℤ := if p.2.2.2.2.1 then 2 ^ (n - 1) - 1 else 2 ^ n - 1
        let code (k : ℤ) : Nat := (k % 2 ^ n).toNat
        (cvtSpec p.1).1 = p.2.1 ∧ (cvtSpec p.1).2.1 = n ∧ ∀ a : Nat, a < 2 ^ p.2.1 →
          let k : ℤ := if p.2.2.1 && a.testBit (p.2.1 - 1) then (a : ℤ) - 2 ^ p.2.1 else a
          (cvtSpec p.1).2.2 m a = if p.2.2.2.2.2 && (k < lo || hi < k) then (code (if k < lo then lo else hi), Flags.sat) else (code k, 0)

/-- R36-R38, R51-R56, R140: the arithmetic that the vector statements name: what encodings stand for, sums, products and their special cases,
order, the special functions and the conversions, each against the exact rational value. -/
def Obligations.FloatingValues : Prop :=
  Claims.Encodings ∧ Claims.FloatingArithmetic ∧ Claims.FloatingSpecials ∧ Claims.FloatingOrder ∧ Claims.SpecialFunctions ∧ Claims.Conversions

/-! ## Local store, memory, synchronisation (R174-R196) -/

/-- R179: a load from the own window or the quad window reads 8 or 128 bytes in its issue cycle, on the reader's own time base, and lands 3
or 6 issue cycles later. -/
def Obligations.LocalLoad : Prop :=
  ∀ (s : State) (ds : SDst) (dv : VDst) (a : SReg) (off : BitVec 12), s.calm = true → s.popsReady .none (.s a) .none = true →
    ∀ p ∈ ([(.ldLS ds a off, false, 8, 3, fun x => .scalar ds (BitVec.ofNat 64 x)),
        (.ldLV dv a off, false, 128, 3, fun x => .vector dv (BitVec.ofNat 1024 x) (BitVec.allOnes 128)),
        (.ldQS ds a off, true, 8, 6, fun x => .scalar ds (BitVec.ofNat 64 x)),
        (.ldQV dv a off, true, 128, 6, fun x => .vector dv (BitVec.ofNat 1024 x) (BitVec.allOnes 128))]
        : List (Instr × Bool × Nat × Nat × (Nat → Dest))),
      let r := fun c => s.operands .none (.s a) .none c
      let addr := fun c => (r c).a + off.signExtend 64
      let spot := fun c => (r c).localSpot p.2.1 (addr c)
      (∀ c, (addr c).toNat % p.2.2.1 = 0 ∧ (r c).localIn p.2.1 (addr c) p.2.2.1 = true
        ∧ (s.coreHere (spot c).1).anyCipher (spot c).2 p.2.2.1 = false ∧ (s.coreHere (spot c).1).anyPoison (spot c).2 p.2.2.1 = false) →
      exec p.1 s = .next (s.issued true fun c k =>
        (k.popped .none (.s a) .none).flying [s.inFlight p.2.2.2.1 2
          (p.2.2.2.2 (natOfBytes (Memory.read ((r c).reached (spot c).1).ls (spot c).2 p.2.2.1))) 0])

/-- R176, R179: a local access at an address that is no multiple of its size traps LS_ALIGN, and one outside the window or the slot traps
LS_RANGE, with the mask of the cores that fail and the lowest failing core's address. -/
def Obligations.LocalAccessTraps : Prop :=
  ∀ (s : State) (ds : SDst) (dv : VDst) (d a : SReg) (v : VReg) (off : BitVec 12) (core : Fin 64), s.traps = true → s.here.info.skew = 0 →
    ∀ p ∈ ([(.ldLS ds a off, .none, false, 8), (.ldLV dv a off, .none, false, 128), (.ldQS ds a off, .none, true, 8),
        (.ldQV dv a off, .none, true, 128), (.stLS d a off, .s d, false, 8), (.stQS d a off, .s d, true, 8),
        (.stLV v a off, .v v, false, 128), (.stQV v a off, .v v, true, 128)]
        : List (Instr × Src × Bool × Nat)),
      s.popsReady p.2.1 (.s a) .none = true →
      let r := fun c => s.operands p.2.1 (.s a) .none c
      let addr := fun c => (r c).a + off.signExtend 64
      let bad : Fin 64 → Bool := fun c => (addr c).toNat % p.2.2.2 != 0
      let out : Fin 64 → Bool := fun c => !(r c).localIn p.2.2.1 (addr c) p.2.2.2
      (bad core = true → (∀ c < core, bad c = false) →
        ∃ mask : BitVec 64, (∀ c : Fin 64, mask.getLsbD c.val = bad c)
          ∧ exec p.1 s = .next (s.trapped { TrapInfo.row .lsAlign with
              mask := mask, unit := 2, address := addr core, encoding := (encodeSyl true p.1).getD 0 }))
      ∧ ((∀ c, bad c = false) → out core = true → (∀ c < core, out c = false) →
        ∃ mask : BitVec 64, (∀ c : Fin 64, mask.getLsbD c.val = out c)
          ∧ exec p.1 s = .next (s.trapped { TrapInfo.row .lsRange with
              mask := mask, unit := 2, address := addr core, encoding := (encodeSyl true p.1).getD 0 }))

/-- The rest of the panel after a bundle of the current row: every register of every core's part but what the pops took, the sequencer's
part but its movement, the other bank, every other row, and memory. -/
def Sys2Proof.Claims.restUnchanged (s t : State) (guarded : Bool) (d a b : Src) : Prop :=
  (∀ c, (t.row s.cur).cb s.side c = (s.partHere c).popped d a b) ∧ t.bank s.cur s.side = s.here.moved guarded
  ∧ t.bank s.cur (otherSide s.side) = s.bank s.cur (otherSide s.side)
  ∧ (∀ c, (t.row s.cur).cb (otherSide s.side) c = (s.row s.cur).cb (otherSide s.side) c)
  ∧ (∀ c : Fin 64, (t.row s.cur).cores[c].tiles = (s.coreHere c).tiles ∧ (t.row s.cur).cores[c].owner = (s.coreHere c).owner)
  ∧ (∀ n, n ≠ s.cur → t.row n = s.row n) ∧ t.mem = s.mem ∧ t.pend = s.pend ∧ t.regions = s.regions

/-- A byte that a core of the current row writes now in another's local store is written over later, by a bundle that the sequencer has issued
and that the lagging core has yet to execute (R220). -/
def Sys2Proof.Claims.writtenLater (s : State) (c core : Fin 64) (j : Nat) : Bool :=
  decide (c.val < core.val) && ((s.row s.cur).line s.side).any fun l => decide (s.here.cycle < l.cycle + s.here.lag c core) && l.wrote core j

/-- R28, R179, R220, R241: outside segmented mode a store to the own window or the quad window writes its bytes in its issue cycle, in
ascending core order, but for a byte that its core writes later on its own time base (log entry 16); every other byte of every local store
reads as before, and nothing else changes. -/
def Obligations.LocalStore : Prop :=
  ∀ (s : State) (ds a : SReg) (dv : VReg) (off : BitVec 12), s.calm = true → (∀ c, Memory.wf (s.coreHere c).ls = true) →
    ∀ p ∈ ([(.stLS ds a off, false, 8, .s ds), (.stLV dv a off, false, 128, .v dv), (.stQS ds a off, true, 8, .s ds),
        (.stQV dv a off, true, 128, .v dv)] : List (Instr × Bool × Nat × Src)),
      s.popsReady p.2.2.2 (.s a) .none = true →
      let n := p.2.2.1
      let r := fun c => s.operands p.2.2.2 (.s a) .none c
      let addr := fun c => (r c).a + off.signExtend 64
      let spot := fun c => (r c).localSpot p.2.1 (addr c)
      let byte : Fin 64 → Nat → Byte := fun c j => BitVec.ofNat 8 ((if n = 8 then (r c).d.toNat else (r c).dv.toNat) / 256 ^ j)
      (∀ c, (addr c).toNat % n = 0 ∧ (r c).localIn p.2.1 (addr c) n = true
        ∧ (n = 8 → (s.coreHere (spot c).1).anyCipher (spot c).2 n = false)) →
      ∃ t, exec p.1 s = .next t
        ∧ (∀ (core : Fin 64) (j : Nat), Memory.byte (t.row s.cur).cores[core].ls j =
            match allCores.reverse.find? (fun c => decide ((spot c).1 = core ∧ (spot c).2 ≤ j ∧ j < (spot c).2 + n) && !writtenLater s c core j) with
            | some c => byte c (j - (spot c).2)
            | none => Memory.byte (s.coreHere core).ls j)
        ∧ restUnchanged s t true p.2.2.2 (.s a) .none

/-- The panel with operations that have issued and not performed added. -/
def Sys2Proof.Claims.withPend (s : State) (ops : List Pending) (ids : Nat) : State := { s with pend := s.pend ++ ops, nextId := s.nextId + ids }

/-- Writes to other panels counted for their acknowledgement (R253), and accesses recorded where the block is traced (R341). -/
def Sys2Proof.Claims.noted (s : State) (writes : List Place) (accs : List Acc) : State :=
  (s.countWrites s.cur s.side writes).recordAccs s.cur s.side accs

/-- An operation that issues now, with its place among the ids. -/
def Sys2Proof.Claims.issuing (s : State) (id : Nat) (c : Fin 64) (due : Option Nat) (op : PendOp) : Pending :=
  ⟨s.nextId + id, s.cur, s.side, c, s.here.cycle, due, op, false, false⟩

/-- R180, R182, R183: a decoupled load places one request at the end of each core's load-address queue and issues one load a core; no
register and no byte of memory changes. -/
def Sys2Proof.Claims.DecoupledLoad : Prop :=
  ∀ (s : State) (a b : SReg) (v : Bool) (off : BitVec 11), s.calm = true →
    ∀ p ∈ ([(.ldt a b v, sylLdt a b v, .s b, tensorAcc (accessSize v) false), (.ldg a v off, sylLdg a v off, .none, flatOffAcc (accessSize v) off false)]
        : List (Instr × Syl × Src × (Rd → Acc))),
      s.accepts p.2.1 = true →
      let acc := fun c => p.2.2.2 (s.operands .none (.s a) p.2.2.1 c)
      exec p.1 s = .next (noted (withPend (s.issued true fun c k =>
          let k' := k.popped .none (.s a) p.2.2.1
          { k' with loads := k'.loads ++ [⟨s.nextId + 2 * c.val, v, none, false, false, (acc c).address, 0⟩] })
        (allCores.map fun c => issuing s (2 * c.val + 1) c none (.load (s.nextId + 2 * c.val) (s.placeOf s.cur s.side (acc c)) (accessSize v) []))
        128) [] (allCores.map acc))

/-- R184: outside segmented mode a global store issues one write a core, to the place its address names; no register changes, and no byte
of memory until the write performs. -/
def Sys2Proof.Claims.GlobalStore : Prop :=
  ∀ (s : State) (d : Fin 32) (a b : SReg) (v : Bool) (off : BitVec 11), s.calm = true →
    ∀ p ∈ ([(.stt d a b v, sylStt d a b v, .s b, tensorAcc (accessSize v) true), (.stg d a v off, sylStg d a v off, .none, flatOffAcc (accessSize v) off true)]
        : List (Instr × Syl × Src × (Rd → Acc))),
      s.accepts p.2.1 = true →
      let r := fun c => s.operands (storeSrc v d) (.s a) p.2.2.1 c
      let place := fun c => s.placeOf s.cur s.side (p.2.2.2 (r c))
      exec p.1 s = .next (noted (withPend (s.issued true fun _ k => k.popped (storeSrc v d) (.s a) p.2.2.1)
        (allCores.map fun c => issuing s c.val c none (.store (place c)
          (if v then bytesOfNat (r c).dv.toNat 128 else bytesOfNat (r c).d.toNat 8))) 64)
        (allCores.map place) (allCores.map fun c => p.2.2.2 (r c)))

/-- R180-R184: the loads and stores through the layout unit: what each puts into its core's queue and into the operations outstanding. -/
def Obligations.LoadsAndStores : Prop := Claims.DecoupledLoad ∧ Claims.GlobalStore

/-- R185: tagq answers the slot of the valid entry that holds the key, else 0xFF; tagset writes one entry and leaves no other valid entry
with its key; tagclr and tagclr.all invalidate; each in the cores whose predicate bit 0 is on. -/
def Obligations.TagTable : Prop :=
  ∀ (s : State) (d : SDst) (a b : SReg) (q : QReg), s.calm = true →
    (s.popsReady .none (.s a) .none = true →
      (∃ x : Fin 64 → Word,
        (∀ c, let key := (s.operands .none (.s a) .none c).a.setWidth 48
          (∀ e : Fin 64, (s.partHere c).tags[e].valid = true → (s.partHere c).tags[e].key = key →
            (∀ e' : Fin 64, e' < e → ¬((s.partHere c).tags[e'].valid = true ∧ (s.partHere c).tags[e'].key = key)) →
            x c = (s.partHere c).tags[e].slot.setWidth 64)
          ∧ ((∀ e : Fin 64, ¬((s.partHere c).tags[e].valid = true ∧ (s.partHere c).tags[e].key = key)) → x c = 0xFF))
        ∧ exec (.tagq d a q) s = .next (s.issued true fun c k =>
            (k.popped .none (.s a) .none).flying
              (if (k.qget q).getLsbD 0 then [s.inFlight 3 2 (.scalar d (x c)) 0] else [])))
      ∧ ∃ T : Fin 64 → Vector TagEntry 64,
        (∀ c, ∀ e : Fin 64, let old := (s.partHere c).tags[e]
          (T c)[e] = if old.valid ∧ old.key = (s.operands .none (.s a) .none c).a.setWidth 48 then { old with valid := false } else old)
        ∧ exec (.tagclr a q) s = .next (s.issued true fun c k =>
            let k' := k.popped .none (.s a) .none
            if (k.qget q).getLsbD 0 then { k' with tags := T c } else k'))
    ∧ (s.popsReady .none (.s a) (.s b) = true →
        let r := fun c => s.operands .none (.s a) (.s b) c
        (∀ c, ((s.partHere c).qget q).getLsbD 0 = true → (r c).b.toNat % 256 < s.here.winSize / 256) →
        ∃ T : Fin 64 → Vector TagEntry 64,
          (∀ c, ∀ e : Fin 64, let old := (s.partHere c).tags[e]
            (T c)[e] = if e.val = (r c).b.toNat / 256 % 64 then ⟨true, (r c).a.setWidth 48, (r c).b.setWidth 8⟩
              else if old.valid ∧ old.key = (r c).a.setWidth 48 then { old with valid := false } else old)
          ∧ exec (.tagset a b q) s = .next (s.issued true fun c k =>
              let k' := k.popped .none (.s a) (.s b)
              if (k.qget q).getLsbD 0 then { k' with tags := T c } else k'))
    ∧ ∃ T : Fin 64 → Vector TagEntry 64,
        (∀ c, ∀ e : Fin 64, (T c)[e] = { (s.partHere c).tags[e] with valid := false })
        ∧ exec (.tagclrAll q) s = .next (s.issued true fun c k => if (k.qget q).getLsbD 0 then { k with tags := T c } else k)

/-- No operation that has issued and not performed reads or writes, for a core, `n` bytes of its own local store at a byte. -/
def Sys2Proof.Claims.untouched (s : State) (c : Fin 64) (byte n : Nat) : Prop :=
  ∀ q ∈ s.pend, q.row = s.cur → ∀ y ∈ q.spans, y.1 = c → y.2.1.meets y.2.2 (.ls s.cur c byte) n = false

/-- R177, R186, R187, R250: an atomic of quad scope or wider issues one operation for the row, which a quad's port performs 3 issue
cycles later, and returns its old values, if asked, through each core's load-address queue. At core scope each core's own operation
performs in the issue cycle, where nothing earlier on its bytes is outstanding (R248). -/
def Sys2Proof.Claims.AtomicIssues : Prop :=
  ∀ (s : State) (d a b : SReg) (sc : Scope) (ret : Bool) (t : AType), s.calm = true →
    ∀ p ∈ ([(.atomAdd a b sc ret t, sylAtomAdd a b sc ret t, 0, .none), (.atomMin a b sc ret t, sylAtomMin a b sc ret t, 1, .none),
        (.atomMax a b sc ret t, sylAtomMax a b sc ret t, 2, .none), (.atomAnd a b sc ret t, sylAtomAnd a b sc ret t, 3, .none),
        (.atomOr a b sc ret t, sylAtomOr a b sc ret t, 4, .none), (.atomXor a b sc ret t, sylAtomXor a b sc ret t, 5, .none),
        (.atomSwap a b sc ret t, sylAtomSwap a b sc ret t, 6, .none), (.atomCas d a b sc ret t, sylAtomCas d a b sc ret t, 7, .s d)]
        : List (Instr × Syl × Fin 8 × Src)),
      s.accepts p.2.1 = true →
      let r := fun c => s.operands p.2.2.2 (.s a) (.s b) c
      let n := if t = .i64 then 8 else 4
      let place := fun c => (r c).scopedPlace sc n
      (2 ≤ scopeRank sc → exec p.1 s = .next (noted (withPend (s.issued true fun c k =>
          let k' := k.popped p.2.2.2 (.s a) (.s b)
          if ret then { k' with loads := k'.loads ++ [⟨s.nextId, false, none, false, false, (r c).a, 0⟩] } else k')
        [issuing s 1 0 (if scopeRank sc = 2 then some (s.here.cycle + 3) else none)
          (.atom p.2.2.1 t sc ret s.nextId (allCores.map fun c => (c, place c, (r c).b, (r c).d)))] 2)
        (allCores.map place) (if scopeRank sc = 2 then [] else allCores.map fun c => ⟨0, (r c).a, n, n, true, true⟩)))
      ∧ (sc = .core → t ≠ .f32 → (∀ c, Memory.wf (s.coreHere c).ls = true) → s.IdsFresh →
          let at0 := fun c => s.here.winBase + (r c).a.toNat
          let old := fun c => natOfBytes (Memory.read (s.coreHere c).ls (at0 c) n)
          (∀ c, (s.coreHere c).anyPoison (at0 c) n = false ∧ untouched s c (at0 c) n) →
          ∃ t', exec p.1 s = .next t' ∧ t'.mem = s.mem ∧ t'.pend = s.pend
            ∧ (∀ (c : Fin 64) (j : Nat), Memory.byte (t'.row s.cur).cores[c].ls j =
                if at0 c ≤ j ∧ j < at0 c + n then BitVec.ofNat 8 (atomValue p.2.2.1 t (old c) ((r c).b.toNat % 2 ^ (8 * n))
                  ((r c).d.toNat % 2 ^ (8 * n)) / 256 ^ (j - at0 c)) else Memory.byte (s.coreHere c).ls j)
            ∧ ∀ c, ((t'.row s.cur).cb s.side c).s = (s.partHere c).s)

/-- R186: the value each atomic leaves at its location, for the integer types; cas swaps where the location holds the compare value. -/
def Sys2Proof.Claims.AtomicValues : Prop :=
  ∀ (x b c : Nat) (t : AType), t ≠ .f32 →
    let w := if t = .i64 then 64 else 32
    x < 2 ^ w → b < 2 ^ w → c < 2 ^ w →
    atomValue 0 t x b c = (BitVec.ofNat w x + BitVec.ofNat w b).toNat
    ∧ signext (atomValue 1 t x b c) w = min (signext x w) (signext b w) ∧ signext (atomValue 2 t x b c) w = max (signext x w) (signext b w)
    ∧ atomValue 3 t x b c = (BitVec.ofNat w x &&& BitVec.ofNat w b).toNat ∧ atomValue 4 t x b c = (BitVec.ofNat w x ||| BitVec.ofNat w b).toNat
    ∧ atomValue 5 t x b c = (BitVec.ofNat w x ^^^ BitVec.ofNat w b).toNat
    ∧ atomValue 6 t x b c = b ∧ atomValue 7 t x b c = (if x = c then b else x)
    ∧ ∀ k : Fin 8, atomValue k t x b c < 2 ^ w

/-- R177, R186, R187, R250: an atomic as it issues, and the integer value it leaves. -/
def Obligations.Atomics : Prop := Claims.AtomicIssues ∧ Claims.AtomicValues

/-- R189, R190: an arrival issues one operation for the row, from every core or from core 0 with the OR of all cores' masks, each mask
ANDed with the core's %nflags, and at core scope each performs in the issue cycle, where its release is
complete; a waitp whose phase has passed delivers the phase's
flags with latency 3. -/
def Sys2Proof.Claims.PhaseObjects : Prop :=
  ∀ (s : State) (d : SDst) (a b : SReg) (sc : Scope) (row : Bool), s.calm = true →
    (2 ≤ scopeRank sc → s.accepts (sylArrive a b sc row) = true →
      let r := fun c => s.operands .none (.s a) (.s b) c
      let mask := fun c => (r c).b.setWidth 6 &&& (s.partHere c).nflags
      exec (.arrive a b sc row) s = .next (withPend (s.issued true fun _ k => k.popped .none (.s a) (.s b))
        [issuing s 0 0 (if scopeRank sc = 2 then some (s.here.cycle + 3) else none)
          (.arrive sc row (if row then [(0, (r 0).scopedPlace sc 64, allCores.foldl (fun (m : Flags) c => m ||| mask c) 0)]
            else allCores.map fun c => (c, (r c).scopedPlace sc 64, mask c)))] 1))
    ∧ (sc = .core → s.accepts (sylArrive a b sc row) = true → (∀ c, Memory.wf (s.coreHere c).ls = true) → s.IdsFresh →
      let r := fun c => s.operands .none (.s a) (.s b) c
      let all := allCores.foldl (fun (m : Flags) c => m ||| ((r c).b.setWidth 6 &&& (s.partHere c).nflags)) 0
      let at0 := fun c => s.here.winBase + (r c).a.toNat
      let object := fun c => Memory.read (s.coreHere c).ls (at0 c) 64
      (∀ c : Fin 64, row = false ∨ c = 0 → (s.coreHere c).anyPoison (at0 c) 64 = false ∧ phaseBad (object c) = false
        ∧ untouched s c (at0 c) 64 ∧ s.releaseClear s.cur s.side .core row c (at0 c) s.here.cycle = true) →
      ∃ t, exec (.arrive a b sc row) s = .next t ∧ t.mem = s.mem ∧ t.pend = s.pend
        ∧ (∀ c : Fin 64, row = false ∨ c = 0 → Memory.read (t.row s.cur).cores[c].ls (at0 c) 64 =
            phaseArrive (object c) (if row then all else (r c).b.setWidth 6 &&& (s.partHere c).nflags))
        ∧ (∀ (c : Fin 64) (j : Nat), (row = true ∧ c ≠ 0) ∨ j < at0 c ∨ at0 c + 64 ≤ j →
            Memory.byte (t.row s.cur).cores[c].ls j = Memory.byte (s.coreHere c).ls j))
    ∧ (s.accepts (sylWaitp d a b sc) = true → ∃ t, exec (.waitp d a b sc) s = .next t ∧ t.mem = s.mem ∧ ∀ c,
        let r := s.operands .none (.s a) (.s b) c
        (t.row s.cur).cb s.side c = ((s.partHere c).popped .none (.s a) (.s b)).flying
          [s.inFlight 3 2 (.scalar d (BitVec.ofNat 64 (natOfBytes (s.readPlace (r.scopedPlace sc 64) 64) / 2 ^ 128 % 64))) 0])
    ∧ (scopeRank sc ≤ 2 → s.accepts (sylWaitp d a b sc) = true →
      exec (.waitp d a b sc) s = .next (s.issued true fun c k =>
        let r := s.operands .none (.s a) (.s b) c
        (k.popped .none (.s a) (.s b)).flying
          [s.inFlight 3 2 (.scalar d (BitVec.ofNat 64 (natOfBytes (s.readPlace (r.scopedPlace sc 64) 64) / 2 ^ 128 % 64))) 0]))

/-- R192, R193: an acquisition that has been requested and has performed issues and changes nothing more; a release that has been requested
and may perform does so as its bundle issues, and nothing more changes. -/
def Sys2Proof.Claims.LockIssues : Prop :=
  ∀ (s : State) (a : SReg) (sc : Scope) (row : Bool), s.calm = true → s.here.asked = true →
    (s.lockPending s.cur s.side = false → s.accepts (sylAcq a sc row) = true →
      exec (.acq a sc row) s = .next (s.issued true fun _ k => k.popped .none (.s a) .none))
    ∧ ∀ q, s.pend.find? (fun q => q.row == s.cur && q.side == s.side && q.op.atIssue) = some q → s.accepts (sylRel a sc row) = true →
        Sparse.risesFrom s.rows none = true →
        exec (.rel a sc row) s = .next ((s.perform q).issued true fun _ k => k.popped .none (.s a) .none)

/-- R189, R190, R192, R193: arrivals, waits on phases, acquisitions and releases as they issue. -/
def Obligations.PhaseObjectsAndLocks : Prop := Claims.PhaseObjects ∧ Claims.LockIssues

/-- R194, R195: discard issues one operation a core for its lines; pref, a hint, changes nothing where its checks do not all pass with no
walk; where they all pass it changes no byte of memory, no register and nothing of any row but its pops. -/
def Obligations.DiscardPrefetch : Prop :=
  ∀ (s : State) (a b : SReg) (w : Bool) (n : Fin 11), s.calm = true →
    let len := 64 * 2 ^ n.val
    let r := fun c => s.operands .none (.s a) (.s b) c
    let place := fun c => s.placeOf s.cur s.side (tensorAcc len true (r c))
    (s.accepts (sylDiscard a b n) = true →
      exec (.discard a b n) s = .next (noted (withPend (s.issued true fun _ k => k.popped .none (.s a) (.s b))
        (allCores.map fun c => issuing s c.val c none (.discard (place c) (2 ^ n.val))) 64)
        (allCores.flatMap fun c => List.replicate (2 ^ n.val) (place c)) (allCores.map fun c => tensorAcc len true (r c))))
    ∧ (s.popsReady .none (.s a) (.s b) = true → ∃ t, exec (.pref a b w n) s = .next t ∧ t.mem = s.mem ∧ t.pend = s.pend
        ∧ t.rows = (s.issued (pops .none (.s a) (.s b)) fun _ k => k.popped .none (.s a) (.s b)).rows)
    ∧ (s.popsReady .none (.s a) (.s b) = true →
        (checkTensor (s.lone (sylPref a b w n)) fun c => [tensorAcc len w (r c)]).isClear = false →
        exec (.pref a b w n) s = .next (s.issued (pops .none (.s a) (.s b)) fun _ k => k.popped .none (.s a) (.s b)))

/-- R196: vpush writes a quarter of the entry the reel's tail addresses in each core, and with part 3 moves the tail on by one. -/
def Sys2Proof.Claims.VectorPush : Prop :=
  ∀ (s : State) (d : Reel) (a : VReg) (p : Fin 4), s.calm = true → (∀ c, Memory.wf (s.coreHere c).ls = true) →
    s.accepts (sylVpush d a p) = true →
    let at0 := fun c => let x := (s.partHere c).reel[d]
      s.here.winBase + reelBase x * 512 + 512 * (reelTail x % 2 ^ reelLgn x) + 128 * p.val
    ∃ t, exec (.vpush d a p) s = .next t
      ∧ (∀ (c : Fin 64) (j : Nat), Memory.byte (t.row s.cur).cores[c].ls j =
          if at0 c ≤ j ∧ j < at0 c + 128 then BitVec.ofNat 8 ((s.operands .none (.v a) .none c).av.toNat / 256 ^ (j - at0 c))
          else Memory.byte (s.coreHere c).ls j)
      ∧ (∀ c : Fin 64, ∀ e : Fin 8, let x := ((t.row s.cur).cb s.side c).reel[e]
          if e = d ∧ p = 3 then reelTail x = (reelTail (s.partHere c).reel[e] + 1) % 64 ∧ reelHead x = reelHead (s.partHere c).reel[e]
            ∧ reelBase x = reelBase (s.partHere c).reel[e] ∧ reelLgn x = reelLgn (s.partHere c).reel[e]
          else x = (s.partHere c).reel[e])
      ∧ t.bank s.cur s.side = s.here.moved (pops .none (.v a) .none) ∧ t.mem = s.mem ∧ t.pend = s.pend

/-! ## Matrix engine and tiles (R157-R173) -/

/-- R164, R169: an mma takes the matrix engine's next number, and the next mma may issue 16 issue cycles a step later. Where the head entries of
its reels are plaintext and clean in every core its tile is busy in every core and its operation is in the engine, the first step begun. -/
def Sys2Proof.Claims.MatrixIssues : Prop :=
  ∀ (s : State) (d : TReg) (a b : Reel) (kb ka z : Bool) (n : Fin 256), s.calm = true →
    ∀ p ∈ ([(.mma d a b kb ka, sylMma d a b kb ka, 1), (.mmaZ d a b kb ka, sylMmaZ d a b kb ka, 1), (.mmaSat d a b kb ka, sylMmaSat d a b kb ka, 1),
        (.mmaN d kb ka a z b n, sylMmaN d kb ka a z b n, n.val + 1)] : List (Instr × Syl × Nat)),
      s.accepts p.2.1 = true →
      let clean := ∀ c, ∀ reel ∈ [a, b], (s.coreHere c).anyCipher ((s.coreHere c).headByte s.here s.side reel) 512 = false
        ∧ (s.coreHere c).anyPoison ((s.coreHere c).headByte s.here s.side reel) 512 = false
      ∃ t, exec p.1 s = .next t
        ∧ (clean → (∀ c : Fin 64, (t.row s.cur).cores[c].busy.getLsbD d.val = true)
          ∧ ∃ o, (t.bank s.cur s.side).matOps = [o] ∧ o.number = s.here.numbers[(4 : Fin 8)] + 1 ∧ o.tile = d ∧ o.reelA = a ∧ o.reelB = b
            ∧ o.steps = p.2.2 ∧ o.next = 1 ∧ o.landed = 0 ∧ o.ended = false ∧ o.at0 = s.here.matTime ∧ o.fmt = s.here.fmt
            ∧ o.shape = deckleOf s.here.deckle d)
        ∧ (t.bank s.cur s.side).numbers[(4 : Fin 8)] = s.here.numbers[(4 : Fin 8)] + 1
        ∧ (t.bank s.cur s.side).mmaFree = s.here.cycle + 16 * p.2.2
        ∧ (t.bank s.cur s.side).cycle = s.here.cycle + 1
        ∧ (∀ c : Fin 64, ((t.row s.cur).cb s.side c).s = (s.partHere c).s ∧ ((t.row s.cur).cb s.side c).v = (s.partHere c).v
            ∧ ((t.row s.cur).cb s.side c).q = (s.partHere c).q)
        ∧ t.mem = s.mem

/-- R164, R169, R196: the instructions that fill reels and start the matrix engine. -/
def Obligations.MatrixAndPush : Prop := Claims.VectorPush ∧ Claims.MatrixIssues

/-- R159: tcfg writes one tile's field of %deckle with latency 1 and leaves every other tile's. -/
def Sys2Proof.Claims.TileConfigure : Prop :=
  ∀ (s : State) (d : TReg) (t : TType) (c r : Fin 16), s.calm = true → s.accepts (sylTcfg d t c r) = true →
    ∃ x : BitVec 80,
      (∀ e : TReg, deckleOf x e = if e = d then BitVec.ofNat 10 ((match t with | .none => 0 | .f32 => 1 | .i32 => 2) * 256 + c.val * 16 + r.val)
        else deckleOf s.here.deckle e)
      ∧ exec (.tcfg d t c r) s = .next ((s.issued false fun _ k => k).modBank s.cur s.side fun b => { b with deckle := x })

/-- What a touch of a tile finds in a core where no save or restore is due: the bank's own contents, or zeros where the bank does not own
the tile (R154). -/
def Sys2Proof.Claims.tileFound (s : State) (t : TReg) (c : Fin 64) : Tile := if (s.coreHere c).owner[t] = some s.side then (s.coreHere c).tiles[t] else 0

/-- The tiles after a touch of one: the bank owns it, and every other tile is as it was. -/
def Sys2Proof.Claims.taken (s u : State) (t : TReg) : Prop :=
  ∀ (c : Fin 64) (e : TReg), (u.row s.cur).cores[c].tiles[e] = (if e = t then tileFound s t c else (s.coreHere c).tiles[e])
    ∧ (u.row s.cur).cores[c].owner[e] = (if e = t then some s.side else (s.coreHere c).owner[e])

/-- R154, R160-R163: what a tile syllable puts in flight in a tile its bank takes, element (i, j) at 16 i + j: zeros everywhere; of a row or
column slice the elements inside the shape whose lowest byte is enabled; the elements inside the shape of the rows loaded from the own
window, each at its stride. Its dirty bit is set, and its contents change only as the result lands. -/
def Sys2Proof.Claims.TileWrites : Prop :=
  ∀ (s : State) (d : TReg) (v : VReg) (a b : SReg) (ix : Fin 16) (q : QReg) (hi : Bool), s.calm = true →
    let rows := (s.here.shape d).1
    let cols := (s.here.shape d).2
    let lane := fun (e : Nat) => (if hi then 64 else 0) + 4 * e
    let on := fun (c : Fin 64) (e : Nat) => ((s.partHere c).qget q).getLsbD (lane e) = true
    let x := fun (c : Fin 64) (e : Nat) => vecAt (s.operands .none (.v v) .none c).av (lane e) 32
    let at0 := fun (c : Fin 64) (i j : Nat) => let r := s.operands .none (.s a) (.s b) c
      s.here.winBase + r.a.toNat / 4 * 4 + i * (r.b.toNat / 4 * 4) + 4 * j
    ∀ p ∈ ([(.tzero d, sylTzero d, .none, .none, 2, fun _ _ _ => True, fun _ _ _ => 0),
        (.trowW d v ix q hi, sylTrowW d v ix q hi, .v v, .none, 2, fun c i j => i = ix.val ∧ j < cols ∧ on c j, fun c _ j => x c j),
        (.tcolW d v ix q hi, sylTcolW d v ix q hi, .v v, .none, 2, fun c i j => j = ix.val ∧ i < rows ∧ on c i, fun c i _ => x c i),
        (.tld d a b, sylTld d a b, .s a, .s b, 4, fun _ i j => i < rows ∧ j < cols,
          fun c i j => natOfBytes (Memory.read (s.coreHere c).ls (at0 c i j) 4))]
        : List (Instr × Syl × Src × Src × Nat × (Fin 64 → Nat → Nat → Prop) × (Fin 64 → Nat → Nat → Nat))),
      s.accepts p.2.1 = true →
      ∃ (t : State) (X : Fin 64 → Tile) (M : Fin 64 → BitVec 256), exec p.1 s = .next t
        ∧ (∀ c, ∀ i < 16, ∀ j < 16, ((M c).getLsbD (16 * i + j) = true ↔ p.2.2.2.2.2.1 c i j)
            ∧ (p.2.2.2.2.2.1 c i j → tileGet (X c) i j = p.2.2.2.2.2.2 c i j))
        ∧ (∀ c : Fin 64, (t.row s.cur).cb s.side c =
            ((s.partHere c).popped .none p.2.2.1 p.2.2.2.1).flying [s.inFlight p.2.2.2.2.1 5 (.tile d (X c) (M c)) 0])
        ∧ taken s t d
        ∧ (∀ c : Fin 64, (t.row s.cur).cores[c].dirty.getLsbD d.val = true ∧ (t.row s.cur).cores[c].ls = (s.coreHere c).ls)
        ∧ t.bank s.cur s.side = s.here.moved p.2.1.isGuarded ∧ t.mem = s.mem

/-- R154, R162: the slice reads: element e of the half is the tile's element in that row or column, 0 past the shape, in the bytes that
are enabled, with latency 2. That the enabled bytes of an element whose lowest byte is off are written is log entry 41's reading. -/
def Sys2Proof.Claims.TileReads : Prop :=
  ∀ (s : State) (d : VDst) (t : TReg) (ix : Fin 16) (q : QReg) (hi : Bool), s.calm = true →
    ∀ p ∈ ([(.trowR d t ix q hi, sylTrowR d t ix q hi, fun e => 16 * ix.val + e, (s.here.shape t).2),
        (.tcolR d t ix q hi, sylTcolR d t ix q hi, fun e => 16 * e + ix.val, (s.here.shape t).1)] : List (Instr × Syl × (Nat → Nat) × Nat)),
      s.accepts p.2.1 = true →
      ∃ (X : Fin 64 → Vec) (u : State), exec p.1 s = .next u
        ∧ (∀ c, ∀ e < 16, vecAt (X c) ((if hi then 64 else 0) + 4 * e) 32 =
          if e < p.2.2.2 then (tileFound s t c).toNat / 2 ^ (32 * p.2.2.1 e) % 2 ^ 32 else 0)
        ∧ (∀ c : Fin 64, (u.row s.cur).cb s.side c = (s.partHere c).flying
            [s.inFlight 2 5 (.vector d (X c) ((s.operands .none .none .none c).enabledMask q (if hi then 64 else 0) 16 32)) 0])
        ∧ taken s u t ∧ (∀ c : Fin 64, (u.row s.cur).cores[c].ls = (s.coreHere c).ls)
        ∧ u.bank s.cur s.side = s.here.moved false ∧ u.mem = s.mem

/-- R154, R160-R163: the instructions that write tiles, and the slice reads, with the tiles each takes. -/
def Obligations.TileWritesReads : Prop := Claims.TileWrites ∧ Claims.TileReads

/-- R154, R163: tst writes the rows of its shape into the own window, each at its stride, and no other byte of local store. -/
def Sys2Proof.Claims.TileStore : Prop :=
  ∀ (s : State) (d : TReg) (a b : SReg), s.calm = true → (∀ c, Memory.wf (s.coreHere c).ls = true) → s.accepts (sylTst d a b) = true →
    let row := fun c (i : Nat) => s.here.winBase + (s.operands .none (.s a) (.s b) c).tileRow i
    let rows := (s.here.shape d).1
    let cols := (s.here.shape d).2
    (∀ c, ∀ i < rows, ∀ j < rows, i ≠ j → row c i + 4 * cols ≤ row c j ∨ row c j + 4 * cols ≤ row c i) →
    ∃ t, exec (.tst d a b) s = .next t
      ∧ (∀ (c : Fin 64) (i k : Nat), i < rows → k < 4 * cols →
          Memory.byte (t.row s.cur).cores[c].ls (row c i + k) = BitVec.ofNat 8 ((tileFound s d c).toNat / 2 ^ (512 * i + 8 * k)))
      ∧ (∀ (c : Fin 64) (j : Nat), (∀ i < rows, j < row c i ∨ row c i + 4 * cols ≤ j) →
          Memory.byte (t.row s.cur).cores[c].ls j = Memory.byte (s.coreHere c).ls j)
      ∧ (∀ c : Fin 64, (t.row s.cur).cb s.side c = (s.partHere c).popped .none (.s a) (.s b)) ∧ taken s t d
      ∧ t.bank s.cur s.side = s.here.moved true ∧ (∀ n, n ≠ s.cur → t.row n = s.row n) ∧ t.mem = s.mem ∧ t.pend = s.pend

/-- R159, R163: what tcfg and tst leave. -/
def Obligations.TileConfigureStore : Prop := Claims.TileConfigure ∧ Claims.TileStore

/-! ## Copies, messages, reductions, ciphers (R197-R213) -/

/-- R197, R202-R205: a copy takes its channel's next number and issues one operation a core, with the lines it moves. -/
def Sys2Proof.Claims.CopiesOfLines : Prop :=
  ∀ (s : State) (d a b : SReg) (h : Fin 4) (n : Fin 8), s.calm = true →
    let r := fun c => s.operands (.s d) (.s a) (.s b) c
    let len := 64 * 2 ^ n.val
    let e : Fin 8 := h.castLE (by decide)
    let k := s.here.numbers[e] + 1
    let w := s.here.winBase
    let gen := fun c (i : Nat) => (⟨(r c).a, wordOfBytes (Memory.read (s.coreHere c).ls (w + (r c).b.toNat + 8 * i) 8), 64, 64, true, false⟩ : Acc)
    let sct := fun c (i : Nat) => (⟨(r c).a, wordOfBytes (Memory.read (s.coreHere c).ls (w + (r c).b.toNat + 8 * i) 8), 64, 64, false, true⟩ : Acc)
    let lines := List.range (2 ^ n.val)
    ∀ p ∈ ([(.cpyIn d a b h n, sylCpyIn d a b h n, (fun c => .copyIn h k (lines.map fun i =>
            ((s.placeOf s.cur s.side (spanAcc len false (r c))).shift (64 * i), w + (r c).d.toNat + 64 * i)) none),
            [], allCores.map fun c => spanAcc len false (r c)),
        (.cpyOut d a b h n, sylCpyOut d a b h n, (fun c => .copyOut h k (lines.map fun i =>
            (w + (r c).d.toNat + 64 * i, (s.placeOf s.cur s.side (spanAcc len true (r c))).shift (64 * i)))),
            allCores.flatMap fun c => List.replicate (2 ^ n.val) (s.placeOf s.cur s.side (spanAcc len true (r c))),
            allCores.map fun c => spanAcc len true (r c)),
        (.cpyGat d a b h n, sylCpyGat d a b h n, (fun c => .copyIn h k (lines.map fun i =>
            (s.placeOf s.cur s.side (gen c i), w + (r c).d.toNat + 64 * i)) none),
            [], allCores.flatMap fun c => lines.map (gen c)),
        (.cpySct d a b h n, sylCpySct d a b h n, (fun c => .copyOut h k (lines.map fun i =>
            (w + (r c).d.toNat + 64 * i, s.placeOf s.cur s.side (sct c i)))),
            allCores.flatMap fun c => lines.map fun i => s.placeOf s.cur s.side (sct c i), allCores.flatMap fun c => lines.map (sct c))]
        : List (Instr × Syl × (Fin 64 → PendOp) × List Place × List Acc)),
      s.accepts p.2.1 = true →
      exec p.1 s = .next (noted (withPend ((s.issued true fun _ q => q.popped (.s d) (.s a) (.s b)).modBank s.cur s.side fun x =>
          { x with numbers := x.numbers.set e.val k }) (allCores.map fun c => issuing s c.val c none (p.2.2.1 c)) 64) p.2.2.2.1 p.2.2.2.2)

/-- R203: cpy.in.r reserves the next entry of its reel in every core and issues the copy of its 8 lines there. -/
def Sys2Proof.Claims.CopyIntoReel : Prop :=
  ∀ (s : State) (d : Reel) (a b : SReg) (h : Fin 4), s.calm = true → s.accepts (sylCpyInR d a b h) = true →
    let r := fun c => s.operands .none (.s a) (.s b) c
    let e : Fin 8 := h.castLE (by decide)
    let k := s.here.numbers[e] + 1
    let at0 := fun c => let x := (s.partHere c).reel[d]
      s.here.winBase + reelEntry x (reelTail x + ((s.partHere c).reserved.filter (·.reel == d)).length)
    exec (.cpyInR d a b h) s = .next (noted (withPend ((s.issued true fun _ q =>
        let q' := q.popped .none (.s a) (.s b)
        { q' with reserved := q'.reserved ++ [⟨d, h, k, false⟩] }).modBank s.cur s.side fun x => { x with numbers := x.numbers.set e.val k })
      (allCores.map fun c => issuing s c.val c none (.copyIn h k ((List.range 8).map fun i =>
        ((s.placeOf s.cur s.side (spanAcc 512 false (r c))).shift (64 * i), at0 c + 64 * i)) (some d))) 64)
      [] (allCores.map fun c => spanAcc 512 false (r c)))

/-- R197, R202-R205: the copies as they issue: the channel's next number and the operations outstanding. -/
def Obligations.CopyIssues : Prop := Claims.CopiesOfLines ∧ Claims.CopyIntoReel

/-- R197, R205, R209, R211-R213: cpy.ll, send, red, seal and open take their engine's next number and issue their operations; a core in
which a cpy.ll or a send moves nothing completes it at issue. -/
def Obligations.EngineIssues : Prop :=
  ∀ (s : State) (d a b : SReg) (dv : VReg) (q : QReg) (h : Fin 4) (qw : Bool) (t : AType) (sc : Scope), s.calm = true →
    let r := fun c => s.operands (.s d) (.s a) (.s b) c
    let rv := fun c => s.operands (.v dv) (.s a) (.s b) c
    let num := fun (e : Fin 8) => s.here.numbers[e] + 1
    let after := fun (D : Src) (e : Fin 8) (on : Fin 64 → Bool) (ops : Fin 64 → PendOp) =>
      withPend ((s.issued true fun c k => if on c then k.popped D (.s a) (.s b) else (k.popped D (.s a) (.s b)).completeOp e (num e)).modBank
        s.cur s.side fun x => { x with numbers := x.numbers.set e.val (num e) })
        ((allCores.filter on).zipIdx.map fun p => issuing s p.2 p.1 none (ops p.1)) (allCores.filter on).length
    (s.accepts (sylCpyLl d a b h qw) = true →
      exec (.cpyLl d a b h qw) s = .next (after (.s d) (h.castLE (by decide)) (fun c => (r c).b != 0) fun c =>
        .copyLocal h (num (h.castLE (by decide))) (s.here.winBase + (r c).a.toNat) ((r c).localSpot qw (r c).d).1 ((r c).localSpot qw (r c).d).2
          (r c).b.toNat))
    ∧ (s.accepts (sylSend dv a b q) = true →
      exec (.send dv a b q) s = .next (after (.v dv) 6 (fun c => ((s.partHere c).qget q).getLsbD 0) fun c =>
        .send (num 6) ((rv c).a.toNat / 2 ^ 20 % 2 ^ 13) ((rv c).a.toNat / 2 ^ 6 % 2 ^ 14)
          { payload := (rv c).dv, fromPanel := s.panelId, fromRow := s.cur, fromCore := c, fromSide := s.side, entry := (rv c).b.setWidth 15
            tag := ((rv c).b >>> 16).setWidth 48, core := ⟨(rv c).a.toNat % 64, Nat.mod_lt _ (by decide)⟩, number := num 6, poison := false }
          (sendScope s.panelId.toNat s.cur (rv c).a)))
    ∧ (s.accepts (sylRed dv a b t sc) = true →
      exec (.red dv a b t sc) s = .next (noted (withPend ((s.issued true fun _ k => k.popped (.v dv) (.s a) (.s b)).modBank s.cur s.side
          fun x => { x with numbers := x.numbers.set 7 (num 7) })
        [issuing s 0 0 none (.red (num 7) t sc (allCores.map fun c => (c, s.placeOf s.cur s.side (redAcc (rv c)), (rv c).dv)))] 1)
        (allCores.map fun c => s.placeOf s.cur s.side (redAcc (rv c))) (allCores.map fun c => { redAcc (rv c) with read := true })))
    ∧ ∀ p ∈ ([(.seal d a b, sylSeal d a b, true), (.opn d a b, sylOpn d a b, false)] : List (Instr × Syl × Bool)),
        s.accepts p.2.1 = true →
        exec p.1 s = .next (after (.s d) 5 (fun _ => true) fun c =>
          let x := natOfBytes (Memory.read (s.coreHere c).ls (s.here.winBase + (r c).b.toNat) 64)
          .cipher (num 5) p.2.2 (s.here.winBase + (r c).a.toNat) (s.here.winBase + (r c).d.toNat) (s.here.winBase + (r c).b.toNat)
            (slice x 63 32) ⟨slice x 15 0 % 64, Nat.mod_lt _ (by decide)⟩ (BitVec.ofNat 96 (slice x 159 64))
            (bytesOfNat (slice x 511 384) 16) (BitVec.ofNat 128 (slice x 383 256)))

/-! ## The sequencer (R90-R114) -/

/-- R90, R93: sequencer arithmetic lands in k[D] with latency 1, and kget reads each of its registers in the issue cycle. -/
def Sys2Proof.Claims.SequencerArithmetic : Prop :=
  ∀ (s : State) (d a b : KReg) (i17 : BitVec 17) (i12 : BitVec 12) (n : Fin 6), s.calm = true →
    let k := s.here.k
    ∀ p ∈ ([(.kli d i17, i17.signExtend 64), (.kadd d a b, k[a] + k[b]), (.ksub d a b, k[a] - k[b]), (.kaddi d a i12, k[a] + i12.signExtend 64),
        (.kand d a b, k[a] &&& k[b]), (.kor d a b, k[a] ||| k[b]), (.kshl d a b, k[a] <<< (k[b].toNat % 64)),
        (.kshr d a b, k[a] >>> (k[b].toNat % 64)),
        (.kget d .rankBlk, s.here.rankBlk.setWidth 64), (.kget d .rankRegion, s.here.rankReg.setWidth 64),
        (.kget d .rankDie, s.here.rankDie.setWidth 64), (.kget d .rankRow, s.here.rankRow.setWidth 64),
        (.kget d (.index n), match s.here.frames[n.val]? with | some f => BitVec.ofNat 64 (f.pass % 2 ^ 32) | none => 0),
        (.kget d .fmt, s.here.fmt.setWidth 64), (.kget d .mxstep, s.here.mxstep.setWidth 64), (.kget d .chk, 0),
        (.kget d .loopDepth, BitVec.ofNat 64 s.here.frames.length), (.kget d .callDepth, BitVec.ofNat 64 s.here.calls.length)]
        : List (Instr × Word)),
      exec p.1 s = .next (s.issuedBank fun q => { q with k := q.k.set d.val p.2 })

/-- R44, R79, R94-R96, R103, R107: what the sequencer's other writes leave: %nflags in every core and %chk after one cycle, a vote that delivers
after two, %fmt after four, the empty cycles of a nop, and a step table entry that is free. -/
def Sys2Proof.Claims.SequencerWrites : Prop :=
  ∀ (s : State) (a : KReg), s.calm = true →
    exec (.kset a .nflags) s = .next (s.issued false fun _ k => { k with nflags := s.here.k[a].setWidth 6 })
    ∧ exec (.kset a .chkAlias) s = .next (s.issuedBank fun b => { b with chk := s.here.k[a].getLsbD 0 })
    ∧ (∀ n : Fin 65, exec (.nop n) s = .next (s.issuedBank fun b => { b with nopLeft := n.val }))
    ∧ exec (.sfmt a) s = .next (s.issuedBank fun b => { b with fmtNext := [(s.here.cycle + 4, s.here.k[a].setWidth 32)] })
    ∧ (∀ (n : Fin 8) (e : StepFields), s.here.steps[n].bound = none →
        exec (.lstep n e) s = .next (s.issuedBank fun b => { b with steps := b.steps.set n.val ⟨e, none⟩ }))
    ∧ ∀ (d : KReg) (x : SReg) (q : QReg), s.popsReady .none (.s x) .none = true →
        let on := fun c => ((s.partHere c).qget q).getLsbD 0
        let xs := (allCores.filter on).map fun c => (s.operands .none (.s x) .none c).a
        let voted := fun w => ((s.issued (pops .none (.s x) .none) fun _ k => k.popped .none (.s x) .none).modBank s.cur s.side
          fun b => { b with votes := [⟨s.here.cycle + 2 + 63 * s.here.info.skew.val, d, w⟩] })
        exec (.kvote d x q .any) s = .next (voted (if ∃ w ∈ xs, w ≠ 0 then 1 else 0))
        ∧ exec (.kvote d x q .all) s = .next (voted (if ∀ w ∈ xs, w ≠ 0 then 1 else 0))
        ∧ exec (.kvote d x q .sum) s = .next (voted (BitVec.ofNat 64 (xs.map (·.toNat)).sum))
        ∧ ∃ m : Word, (xs = [] → m = 0x8000000000000000) ∧ (xs ≠ [] → m ∈ xs ∧ ∀ w ∈ xs, w.toInt ≤ m.toInt)
          ∧ exec (.kvote d x q .max) s = .next (voted m)

/-- R44, R79, R90, R93-R96, R103, R107: what the sequencer computes, reads and writes: its arithmetic, kget, kset, nop, sfmt, lstep and kvote. -/
def Obligations.SequencerArithmetic : Prop := Claims.SequencerArithmetic ∧ Claims.SequencerWrites

/-- R97, R98: outside loops a branch goes to its target where its condition holds and to the next bundle where it does not; an offset is
counted from the branch's own bundle, modulo 32,768. call pushes the next bundle and ret pops it. -/
def Obligations.Branches : Prop :=
  ∀ (s : State) (a d : KReg) (t : BitVec 15) (off : BitVec 12), s.calm = true → s.here.frames = [] →
    let k := s.here.k
    (∀ p ∈ ([(.br t, True, t), (.bz a t, k[a] = 0, t), (.bnz a t, k[a] ≠ 0, t), (.beq d a off, k[d] = k[a], s.here.pc + off.signExtend 15),
        (.bne d a off, k[d] ≠ k[a], s.here.pc + off.signExtend 15), (.blt d a off, k[d].toInt < k[a].toInt, s.here.pc + off.signExtend 15),
        (.bge d a off, k[d].toInt ≥ k[a].toInt, s.here.pc + off.signExtend 15)] : List (Instr × Prop × BitVec 15)),
      (p.2.1 → exec p.1 s = .next (s.issuedBank fun b => { b with pc := p.2.2 }))
      ∧ (¬p.2.1 → exec p.1 s = .next (s.issuedBank fun b => b)))
    ∧ (s.here.calls.length < 4 →
        exec (.call t) s = .next (s.issuedBank fun b => { b with calls := (s.here.pc + 1) :: s.here.calls, pc := t }))
    ∧ ∀ p rest, s.here.calls = p :: rest → exec .ret s = .next (s.issuedBank fun b => { b with calls := rest, pc := p })

/-- R99-R101, R104, R105: a loop of 1 to 65,535 passes becomes the innermost; one of count 0 is skipped by a scan, and counts as one
body gone by in the loops around it; lbreak ends the innermost loop where its register is not 0. The scan is `State.scan`; a body in which
it stops short, at a bundle too long, has its loops stand there (log entry 106). -/
def Obligations.Loops : Prop :=
  ∀ (s : State) (a : KReg) (n : BitVec 16) (l : Fin 64), s.calm = true →
    (loopUnnested s.here (l.val + 1) = false →
      ∀ p ∈ ([(.loop a l, s.here.k[a].toNat), (.loopImmediate n l, n.toNat)] : List (Instr × Nat)), p.2 ≤ 65535 →
        (p.2 ≠ 0 → s.here.frames.length < 6 →
          ∃ T : Vector StepEntry 8,
            (∀ e : Fin 8, let x := (s.here.moved false).steps[e]
              T[e] = if x.fields.active = true ∧ x.bound = none then { x with bound := some (s.here.moved false).frames.length } else x)
            ∧ exec p.1 s = .next (s.issuedBank fun b =>
                { b with frames := ⟨p.2, 0, l.val + 1, 0, s.here.pc + 1, []⟩ :: (s.here.moved false).frames, steps := T }))
        ∧ (p.2 = 0 →
          exec p.1 s = .next (s.issuedBank fun b => b.skipBody (l.val + 1) (s.scan s.cur s.side (l.val + 1) (s.here.pc + 1)))))
    ∧ ∀ f fs, s.here.frames = f :: fs →
        (∀ p ∈ ([(.lbreak a, s.here.k[a] ≠ 0), (.lbreakUnconditional, True)] : List (Instr × Prop)),
          (p.2 → exec p.1 s = .next (s.issuedBank fun b =>
            let rest := f.len - f.pos - 1
            let at' := s.scan s.cur s.side rest (s.here.pc + 1)
            let r := if at'.2 = rest then loopAdvance f.len fs at'.1 else (skipWithin (f.pos + 1 + at'.2) fs, at'.1)
            { b with frames := r.1, pc := r.2, steps := mapSteps s.here.steps (unbind r.1.length) }))
          ∧ (¬p.2 → exec p.1 s = .next (s.issuedBank fun b => b)))

/-- R108-R111, R298, R299, R327: a wait whose operations are complete, a fence or narrow barrier with nothing outstanding, a barrier that
has been released, a permit asked for and granted, and a permit given back. -/
def Obligations.WaitsBarriersPermits : Prop :=
  ∀ (s : State) (a : KReg) (d : TlReg) (id : Fin 16) (sc : Scope) (cl : Fin 8), s.calm = true →
    (s.here.k[a].toNat ≤ s.here.numbers[d] → (∀ c, s.here.k[a].toNat ≤ (s.partHere c).tl[d].toNat) →
      exec (.wait d a) s = .next (s.issuedBank fun b => b))
    ∧ (s.fenceClear s.cur s.side sc = true → exec (.fence sc) s = .next (s.issuedBank fun b => b))
    ∧ (scopeRank sc ≤ 3 → s.fenceClear s.cur s.side sc = true → exec (.bar id sc) s = .next (s.issuedBank fun b => { b with atBar := none }))
    ∧ (3 < scopeRank sc → s.here.info.cohort = true → s.here.info.barriers.getLsbD id.val = true →
        s.here.atBar = some (s.here.pc, id, sc) → s.here.go = true → exec (.bar id sc) s = .next (s.issuedBank fun b => { b with atBar := none }))
    ∧ (∀ h, s.here.permit = .held h →
        (s.here.asking = some .permit → exec (.leaveReq cl) s = .next (s.issuedBank fun b => b))
        ∧ exec .leaveRet s = .next (s.issuedBank fun b => { b with permit := .none }))

/-- R112, R114, R240, R245: with nothing in flight, empty queues and no committed store still to perform seg, and rdv in a free launch, begin
a segment with a checkpoint of the scalar, predicate and sequencer registers; so does rdv in a cohort once its rendezvous has released.
halt ends every loop, returns the permit and halts. -/
def Obligations.SegmentsAndHalt : Prop :=
  ∀ (s : State) (id : BitVec 8), s.calm = true →
    (s.here.handler = false →
      let begun := ((s.issued false fun _ k => { k with ckS := k.s, ckQ := k.q, ckF := [] }).modBank s.cur s.side fun b =>
        { b with segment := some ⟨⟨b.pc, b.k, b.frames, b.calls, b.steps, [], [], b.handler, b.savedCtl⟩, 0, 0, 0, 0, 0⟩ })
      ((∀ c, (s.partHere c).loads = []) → s.commitOpen s.cur s.side = false →
        exec .seg s = .next begun ∧ (s.here.info.cohort = false ∨ s.here.go = true → exec (.rdv id) s = .next begun))
      ∧ (s.here.asking = some .rendezvous → s.here.go = true → exec (.rdv id) s = .next begun))
    ∧ exec .halt s = .next (s.issuedBank fun b =>
        { b with phase := .halted, frames := [], steps := mapSteps b.steps (unbind 0), permit := .none })

/-- R102, R103, R108, R109, R111, R231: the control instructions' own traps, each of the whole row with an all-ones mask. That call and ret in a
loop trap LOOP_BRANCH before their own traps are judged is log entry 50 (DEDUCED). -/
def Obligations.ControlTraps : Prop :=
  ∀ (s : State) (a : KReg) (d : TlReg) (t : BitVec 15) (off : BitVec 12) (n : BitVec 16) (l : Fin 64) (e : Fin 8) (f : StepFields)
    (id : Fin 16) (sc : Scope) (cl : Fin 8), s.traps = true →
    let b := s.here
    ∀ p ∈ ([(.br t, b.frames ≠ [], .loopBranch), (.bz a t, b.frames ≠ [], .loopBranch), (.bnz a t, b.frames ≠ [], .loopBranch),
        (.beq a a off, b.frames ≠ [], .loopBranch), (.bne a a off, b.frames ≠ [], .loopBranch), (.blt a a off, b.frames ≠ [], .loopBranch),
        (.bge a a off, b.frames ≠ [], .loopBranch), (.call t, b.frames ≠ [], .loopBranch), (.ret, b.frames ≠ [], .loopBranch),
        (.call t, b.frames = [] ∧ 4 ≤ b.calls.length, .callOver), (.ret, b.frames = [] ∧ b.calls = [], .callUnder),
        (.loop a l, 65535 < b.k[a].toNat, .loopCount),
        (.loop a l, b.k[a].toNat ≤ 65535 ∧ loopUnnested b (l.val + 1) = true, .loopNest),
        (.loopImmediate n l, loopUnnested b (l.val + 1) = true, .loopNest),
        (.loop a l, b.k[a] ≠ 0 ∧ b.k[a].toNat ≤ 65535 ∧ loopUnnested b (l.val + 1) = false ∧ 6 ≤ b.frames.length, .loopDepth),
        (.loopImmediate n l, n ≠ 0 ∧ loopUnnested b (l.val + 1) = false ∧ 6 ≤ b.frames.length, .loopDepth),
        (.lbreak a, b.frames = [], .loopNone), (.lbreakUnconditional, b.frames = [], .loopNone),
        (.lstep e f, b.steps[e].bound ≠ none, .stepBusy), (.wait d a, b.numbers[d] < b.k[a].toNat, .waitAhead),
        (.bar id sc, 3 < scopeRank sc ∧ (b.info.cohort = false ∨ b.info.barriers.getLsbD id.val = false), .barFree),
        (.leaveReq cl, (∃ h, b.permit = .held h), .permitHeld),
        (.leaveRet, (∀ h, b.permit ≠ .held h), .permitNone)] : List (Instr × Prop × Trap)),
      p.2.1 → exec p.1 s = .next (s.trapped (rowTrap p.2.2 7 p.1))

/-! ## Traps and the system group (R214-R218, R231-R237) -/

/-- R113, R231, R233: what trapping saves and where it goes, read off one trap syllable: the record's six words, the saved loop state, call
stack, step table and pcs, their emptying, %bank bit 4, and the handler's address. The trapped bundle takes effect in no core. -/
def Sys2Proof.Claims.TrapSaves : Prop :=
  ∀ (s : State) (code : BitVec 16), s.traps = true →
    ∃ t, exec (.trap code) s = .next t
      ∧ let b := t.bank s.cur s.side
        b.trapRec[0] = BitVec.ofNat 64 (code.toNat * 2 ^ 48 + 7 * 2 ^ 32 + s.here.pc.toNat * 2 ^ 16 + 0x70)
        ∧ b.trapRec[1] = BitVec.allOnes 64 ∧ b.trapRec[2] = 0 ∧ b.trapRec[3] = 0
        ∧ b.trapRec[4] = BitVec.ofNat 64 ((s.here.pc + 1).toNat * 2 ^ 32 + ((encodeSyl true (.trap code)).getD 0).toNat)
        ∧ b.trapRec[5] = BitVec.ofNat 64 s.here.cycle
        ∧ b.handler = true ∧ b.pc = s.here.trapvec.setWidth 15
        ∧ b.savedCtl = some ⟨s.here.frames, s.here.calls, s.here.steps, s.here.pc, s.here.pc + 1⟩
        ∧ b.frames = [] ∧ b.calls = [] ∧ (∀ n : Fin 8, b.steps[n].fields.active = false)
        ∧ b.k = s.here.k ∧ b.fmt = s.here.fmt ∧ b.deckle = s.here.deckle
        ∧ (∀ c, (t.row s.cur).cores[c] = s.coreHere c) ∧ t.mem = s.mem

/-- R235: a trap in a handler, or in a bank with no trap entry, fails the block; the record's number is DOUBLE_TRAP's in a handler,
and the launch counts a failed block. -/
def Sys2Proof.Claims.DoubleTrap : Prop :=
  ∀ (s : State) (code : BitVec 16), s.calm = true → s.here.armed = none → s.here.handler = true ∨ s.here.trapvec.getLsbD 15 = false →
    ∃ t, exec (.trap code) s = .next t
      ∧ (t.bank s.cur s.side).phase = .failed
      ∧ ((t.bank s.cur s.side).trapRec[0]).toNat % 2 ^ 16 = (if s.here.handler then 0x7F else 0x70)
      ∧ (∀ c, (t.row s.cur).cores[c] = s.coreHere c)
      ∧ ∀ l ∈ s.launches, l.id = s.here.info.launch → ∃ l' ∈ t.launches, l'.id = l.id ∧ l'.failed = l.failed + 1

/-- R113, R231, R233, R235: taking a trap: what is saved, where the bank goes, and that a trap in a handler fails the block. -/
def Obligations.TrapEntry : Prop := Claims.TrapSaves ∧ Claims.DoubleTrap

/-- R234: tret restores the loop state, call stack and step table the trap saved, clears %bank bit 4 and goes back to the trapped bundle;
with skip, on past it. -/
def Obligations.ReturnFromTrap : Prop :=
  ∀ (s : State) (c : SavedControl), s.calm = true → s.here.handler = true → s.here.savedCtl = some c →
    exec .tret s = .next (s.issuedBank fun b =>
      { b with handler := false, savedCtl := none, frames := c.frames, calls := c.calls, steps := c.steps, pc := c.pc })
    ∧ exec .tretSkip s = .next (s.issuedBank fun b =>
        let r := loopAdvance 1 c.frames c.next
        { b with handler := false, savedCtl := none, frames := r.1, calls := c.calls, steps := mapSteps c.steps (unbind r.1.length), pc := r.2 })

/-- R214, R216: mtcr writes each register that is not read-only, after one cycle, and traps PRIV_RO on a read-only one and CR_VALUE on a die
index above 9; mfcr reads each into k[D]. -/
def Obligations.ControlRegisters : Prop :=
  ∀ (s : State) (a d : KReg) (w : Fin 6), s.calm = true → s.here.handler = true ∨ s.here.sysperm.getLsbD 0 = true →
    let v := s.here.k[a]
    let g := s.regions[regionOf s.cur]
    exec (.mtcr a .nflags) s = .next (s.issued false fun _ k => { k with nflags := v.setWidth 6 })
    ∧ exec (.mtcr a .chk) s = .next (s.issuedBank fun b => { b with chk := v.getLsbD 0 })
    ∧ exec (.mtcr a .chkAlias) s = .next (s.issuedBank fun b => { b with chk := v.getLsbD 0 })
    ∧ exec (.mtcr a .trapvec) s = .next (s.issuedBank fun b => { b with trapvec := v.setWidth 16 })
    ∧ (s.here.sysperm.getLsbD 3 = true →
        exec (.mtcr a .istep) s = .next ((s.issuedBank fun b => b).modRegion (regionOf s.cur) fun g => { g with istep := v.setWidth 16 })
        ∧ (v.toNat % 16 ≤ 9 → exec (.mtcr a .barsel) s =
            .next ((s.issuedBank fun b => b).modRegion (regionOf s.cur) fun g => { g with barsel := v.setWidth 8 }))
        ∧ (s.traps = true → 9 < v.toNat % 16 → exec (.mtcr a .barsel) s = .next (s.trapped (rowTrap .crValue 7 (.mtcr a .barsel))))
        ∧ exec (.mtcr a .barmask) s =
            .next ((s.issuedBank fun b => b).writeBarmask (regionOf s.cur) (g.barsel.toNat / 16) (g.barsel.toNat % 16) v))
    ∧ (s.traps = true → ∀ r ∈ ([.rankBlk, .rankRegion, .rankDie, .rankRow, .index w, .fmt, .mxstep, .deckleLo, .deckleHi, .lswin, .tsave, .sysperm,
        .trapWord w, .bank, .wgen] : List CReg), exec (.mtcr a r) s = .next (s.trapped (rowTrap .privRo 7 (.mtcr a r))))
    ∧ ∀ p ∈ ([(.rankBlk, s.here.rankBlk.setWidth 64), (.rankRegion, s.here.rankReg.setWidth 64), (.rankDie, s.here.rankDie.setWidth 64),
        (.rankRow, s.here.rankRow.setWidth 64), (.fmt, s.here.fmt.setWidth 64), (.mxstep, s.here.mxstep.setWidth 64), (.chk, 0), (.chkAlias, 0),
        (.bank, BitVec.ofNat 64 ((if s.side = .b then 1 else 0) + 2 * (s.bank s.cur (otherSide s.side)).seenState
          + (if s.here.handler then 16 else 0))),
        (.index w, match s.here.frames[w.val]? with | some f => BitVec.ofNat 64 (f.pass % 2 ^ 32) | none => 0),
        (.lswin, s.here.lswin.setWidth 64), (.tsave, s.here.tsave.setWidth 64), (.sysperm, s.here.sysperm.setWidth 64),
        (.deckleLo, s.here.deckle.setWidth 64), (.deckleHi, (s.here.deckle >>> 64).setWidth 64),
        (.nflags, (allCores.foldl (fun (m : Flags) c => m ||| (s.partHere c).nflags) 0).setWidth 64),
        (.trapvec, s.here.trapvec.setWidth 64), (.trapWord w, s.here.trapRec[w]), (.istep, g.istep.setWidth 64),
        (.barsel, g.barsel.setWidth 64), (.barmask, Sparse.get g.masks 0 (g.barsel.toNat / 16 * 10 + g.barsel.toNat % 16)),
        (.wgen, s.wgen)] : List (CReg × Word)),
      exec (.mfcr d p.1) s = .next (s.issuedBank fun b => { b with k := b.k.set d.val p.2 })

/-- R217, R218, R237: a request that has been answered delivers the answer; yield notes whether the other bank is ready; a hold stops the other
bank in a frozen cycle, with nothing else left to do in it, and issues once that bank runs no more (log entry 55, DEDUCED); a release, an arming of an empty bank and a disarming of a dormant one have their effect on it. -/
def Obligations.RequestsAndOtherBank : Prop :=
  ∀ (s : State) (a d : KReg) (w : Word), s.calm = true →
    let y := otherSide s.side
    (s.here.sysperm.getLsbD 1 = true → s.here.answer = some w →
      exec (.spawn d a) s = .next (s.issuedBank fun b => { b with k := b.k.set d.val w })
      ∧ exec (.rerun d a) s = .next (s.issuedBank fun b => { b with k := b.k.set d.val w }))
    ∧ (s.here.sysperm.getLsbD 2 = true →
      exec .bankctlYield s = .next ((s.issuedBank fun b => b).modRow s.cur fun r => { r with yielding := (s.row s.cur).ready y })
      ∧ (s.here.asking = none → (s.bank s.cur y).phase = .run → s.pend = [] → s.moves = [] → (s.row s.cur).walks = [] →
          ∃ t, exec .bankctlHold s = .next t ∧ (t.bank s.cur y).phase = .stopped .hold ∧ (∀ c, ((t.row s.cur).cb y c).flights = [])
            ∧ (t.bank s.cur s.side).asking = some .hold ∧ (t.bank s.cur s.side).frozen = some .bankControl
            ∧ (t.bank s.cur s.side).pc = s.here.pc ∧ (t.bank s.cur s.side).cycle = s.here.cycle)
      ∧ (s.here.asking = some .hold → (s.bank s.cur y).phase ≠ .run → exec .bankctlHold s = .next (s.issuedBank fun b => b))
      ∧ ((s.bank s.cur y).phase = .stopped .hold →
          ∃ t, exec .bankctlRelease s = .next t ∧ (t.bank s.cur y).phase = .run ∧ (t.bank s.cur y).waitLeft = 8
            ∧ t.bank s.cur s.side = s.here.moved false)
      ∧ ((s.bank s.cur y).phase = .empty →
          ∃ t, exec (.bankctlArm a) s = .next t ∧ (t.bank s.cur y).phase = .dormant
            ∧ (t.bank s.cur y).armed = some (s.here.k[a].setWidth 15) ∧ (t.bank s.cur y).armer = some s.side
            ∧ (t.bank s.cur y).lswin = s.here.lswin ∧ (t.bank s.cur y).rankBlk = s.here.rankBlk ∧ (t.bank s.cur y).sysperm = 0
            ∧ (t.bank s.cur y).trapvec = 0 ∧ (t.bank s.cur y).tsave = 0xFFFFFFFF ∧ (∀ c, (t.row s.cur).cb y c = CoreBank.reset)
            ∧ t.bank s.cur s.side = s.here.moved false)
      ∧ ((s.bank s.cur y).phase = .dormant → (s.row s.cur).arrivals = [] →
          ∃ t, exec .bankctlDisarm s = .next t ∧ (t.bank s.cur y).phase = .empty ∧ (t.bank s.cur y).armed = none
            ∧ t.bank s.cur s.side = s.here.moved false))

/-! ## Events of rows and banks -/

/-- R67, R222, R233, R240: a row's cycle, its unfreezing and its trap entry run the instruction the holding bank has due, as exec gives it; a
bundle that ends its segment begins the next; a trap that waits for its verdict is taken once the held cycles have passed. The cycle of a
calm bank issues its syllable whole where the syllable's own conditions are clear, and so does its unfreezing; the entry of a trap
syllable saves what the trap saves. -/
def Obligations.RowCycleEvents : Prop :=
  ∀ (s : State) (r : RowId), r.val = s.cur →
    (∀ i t, s.due = some i → Sparse.risesFrom s.rows none = true → exec i s = .next t →
      exec (.bundleIssue r) s = .next (t.rowBoundary s.cur)
      ∧ (s.unfreezable s.cur s.side = true → exec (.rowUnfreeze r) s = .next t)
      ∧ (s.traps = true → ∀ code, i = .trap code → exec (.trapEntry r s.side) s = .next t))
    ∧ (∀ i y, s.due = some i → sylOf i = some y → s.calm = true → y.permitted s.here = true → s.accepts y = true →
        Sparse.risesFrom s.rows none = true →
        let t := s.commit s.cur s.side [⟨y, (encodeSyl true i).getD 0⟩] (s.here.pc + 1)
        exec i s = .next t ∧ exec (.bundleIssue r) s = .next (t.rowBoundary s.cur)
        ∧ (s.here.frozen ≠ none → exec (.rowUnfreeze r) s = .next t))
    ∧ (∀ code, s.due = some (.trap code) → s.traps = true → Sparse.risesFrom s.rows none = true →
        exec (.trapEntry r s.side) s = .next (s.trapped
          { TrapInfo.row .swTrap with code := code, unit := 7, encoding := (encodeSyl true (.trap code)).getD 0 }))
    ∧ (s.presents s.cur s.side = true → s.here.frames = [] → s.bankPlan s.cur s.side = some .endSegment → Sparse.risesFrom s.rows none = true →
        ∃ t g, exec (.segmentCommit r s.side) s = .next t ∧ (t.bank s.cur s.side).segment = some g ∧ g.rewinds = 0 ∧ g.liveV = 0 ∧ g.liveT = 0)
    ∧ ∀ (x : Side) (w : TrapInfo × BitVec 15 × Nat), let b := s.bank s.cur x
        b.phase = .run → b.verdict = some w → 0 < b.heldLeft → b.handler = false → b.trapvec.getLsbD 15 = true → b.armed = none →
        s.pend = [] → b.seq = [] → b.matOps = [] →
        ∃ t, exec (.chkVerdict r x) s = .next t ∧ (t.bank s.cur x).handler = true ∧ (t.bank s.cur x).pc = b.trapvec.setWidth 15
          ∧ (t.bank s.cur x).verdict = none ∧ (t.bank s.cur x).heldLeft = 0

/-- R77, R96, R164, R165, R277: results, votes, walks and matrix steps that are due land or begin when their event comes. -/
def Obligations.LandingEvents : Prop :=
  ∀ (s : State) (r : RowId) (x : Side), let b := s.bank r.val x
    (b.seq = [] → b.votes = [] → b.fmtNext = [] → ∀ (c : Fin 64) (f : Flight) (d : Fin 32) (v : Word),
      ((s.row r.val).cb x c).flights = [f] → f.dest = .s d v → f.land ≤ b.cycle → d.val ≠ 0 →
      ∃ t, exec (.resultLand r x) s = .next t
        ∧ ((t.row r.val).cb x c).s = ((s.row r.val).cb x c).s.set d.val v ∧ ((t.row r.val).cb x c).flights = []
        ∧ ((t.row r.val).cb x c).nflags = ((s.row r.val).cb x c).nflags ||| f.flags)
    ∧ (∀ w : Vote, b.seq = [] → b.votes = [w] → w.ready ≤ b.cycle →
        ∃ t, exec (.kvoteResult r x) s = .next t ∧ (t.bank r.val x).k = b.k.set w.reg.val w.value ∧ (t.bank r.val x).votes = [])
    ∧ (∀ w ws, (s.row r.val).walks = w :: ws →
        ∃ t, exec (.translationWalk r) s = .next t ∧ w ∉ (t.row r.val).walks
          ∧ (t.row r.val).walked.head? =
            some (w, s.physWord (descBase (s.readDesc (s.bank r.val w.side).info.tableBase w.tensor) + 8 * w.tile)))
    ∧ ∀ o : MatrixOp, b.matOps = [o] →
        (o.due b.matTime = true → (s.row r.val).reelsReady x o = true →
          (∀ c : Fin 64, let k := (s.row r.val).cores[c]
            ∀ reel ∈ [o.reelA, o.reelB], k.anyCipher (k.headByte b x reel) 512 = false ∧ k.anyPoison (k.headByte b x reel) 512 = false) →
          ∃ t, exec (.mmaStepBegin r x) s = .next t ∧ (t.bank r.val x).matOps = [{ o with next := o.next + 1 }]
            ∧ ∀ c : Fin 64, let k := (s.row r.val).cores[c]
              ((t.row r.val).cb x c).mops = if (k.of x).inOp o
                then (k.of x).mops ++ [⟨o.number, o.next, k.headEntry b x o.reelA, k.headEntry b x o.reelB⟩] else (k.of x).mops)
        ∧ (o.landsBy b.matTime = true → o.landed + 1 < o.steps →
          ∃ t, exec (.mmaStepLand r x) s = .next t ∧ (t.bank r.val x).matOps = [{ o with landed := o.landed + 1 }]
            ∧ ∀ c : Fin 64, (t.row r.val).cores[c] = ((s.row r.val).cores[c]).landStep b x o)
        ∧ (o.landsBy b.matTime = true → o.landed + 1 = o.steps → o.next = o.steps →
          ∃ t, exec (.mmaStepLand r x) s = .next t ∧ (t.bank r.val x).matOps = []
            ∧ ∀ c : Fin 64, (t.row r.val).cores[c].busy.getLsbD o.tile.val =
                (((s.row r.val).bank (otherSide x)).busies o.tile && (s.row r.val).cores[c].busy.getLsbD o.tile.val))

/-! ## Matrix arithmetic (R40-R50) -/

/-- R40, R41: what a Q4X byte stands for under an outlier exponent X, its low nibble first, and whether it is the byte 0x88. -/
def Sys2Proof.Claims.Q4xBytes : Prop :=
  ∀ lo hi X : Nat, lo < 16 → hi < 16 → X < 16 →
    let nib := fun n : Nat => if n < 8 then (n : ℚ) else n - 16
    let esc := fun n : Nat => (if n.testBit 3 then -1 else 1) * 2 ^ ((X : ℤ) - 7) * (1 + ((n % 8 : Nat) : ℚ) / 8)
    let p := q4xPair (lo + 16 * hi) X
    (real p.1, real p.2.1, p.2.2) =
      if lo ≠ 8 ∧ hi ≠ 8 then (nib lo, nib hi, false)
      else if lo = 8 ∧ hi ≠ 8 then (esc hi, 0, false)
      else if lo ≠ 8 then (0, esc lo, false)
      else (0, 0, true)

/-- R40, R46: element k of row or column r of an operand: its n bits begin at bit n k of that row's or column's 32 bytes. -/
def Sys2Proof.Claims.operand (code X : Nat) (entry : BitVec 4096) (r k : Nat) : Machine.Num :=
  let bits := fun n i : Nat => entry.toNat / 2 ^ (256 * r + n * i) % 2 ^ n
  match code with
  | 0 => Fmt.bf16.value (bits 16 k)
  | 1 => Fmt.e4m3.value (bits 8 k)
  | 2 => Fmt.e5m2.value (bits 8 k)
  | 3 => let x := bits 8 k; .fin (x.testBit 7) (if x.testBit 7 then 256 - x else x) 0
  | 4 => .fin false (bits 8 k) 0
  | _ => let p := q4xPair (bits 8 (k / 2)) X; if k % 2 = 0 then p.1 else p.2.1

/-- The sign of a decoded number; a NaN; a product of an infinity and a zero; a product that is an infinity of a sign (R48). -/
def Sys2Proof.Claims.minus : Machine.Num → Bool
  | .fin n _ _ => n
  | .inf n => n
  | .nan _ => false
def Sys2Proof.Claims.nanNum : Machine.Num → Bool
  | .nan _ => true
  | _ => false
def Sys2Proof.Claims.infZero : Machine.Num → Machine.Num → Bool
  | .inf _, .fin _ m _ => m == 0
  | .fin _ m _, .inf _ => m == 0
  | _, _ => false
def Sys2Proof.Claims.infTimes (n : Bool) : Machine.Num → Machine.Num → Bool
  | .inf p, .inf q => (p != q) == n
  | .inf p, .fin q m _ => m != 0 && (p != q) == n
  | .fin p m _, .inf q => m != 0 && (p != q) == n
  | _, _ => false

/-- R47, R48, R50: an accumulator element of a floating step whose special cases have been told apart: with every operand finite, C + d rounded
once, where d is the exact sum of the products, each cut to a multiple of 2^(emax - 40) in the class bf16, scaled; the sign of a zero (that cancelling terms
leave +0 is log entry 28's reading) and the flags, judged on d' without the cut. -/
def Sys2Proof.Claims.mmaFinite (bf : Bool) (K : Nat) (scale : ℤ) (C : Nat) (A B : Nat → Machine.Num) (out : Nat × Flags) : Prop :=
  let F := Fmt.fp32
  let p := fun k => real (A k) * real (B k)
  ∀ emax : ℤ, ((∃ k < K, 2 ^ emax ≤ |p k|) ∧ ∀ k < K, |p k| < 2 ^ (emax + 1)) ∨ (∀ k < K, p k = 0) →
    let g : ℚ := 2 ^ (emax - 40)
    let t := fun k => if bf then (if p k < 0 then -(⌊-p k / g⌋ * g) else ⌊p k / g⌋ * g) else p k
    let x := fieldsValue F C + (∑ k ∈ Finset.range K, t k) * 2 ^ scale
    let exact := fieldsValue F C + (∑ k ∈ Finset.range K, p k) * 2 ^ scale
    let same := fieldsValue F out.1 = exact
    (x = 0 → out.1 = F.sign (C = 0x80000000 ∧ ∀ k < K, t k = 0 ∧ minus (A k) ≠ minus (B k)))
    ∧ (exceeds F .rne x → out.1 = F.infinity (x < 0))
    ∧ (x ≠ 0 → ¬ exceeds F .rne x → closest F .rne x out.1)
    ∧ (out.2.getLsbD 3 = true ↔ exceeds F .rne x ∨ ¬ same ∨ ∃ k < K, t k ≠ p k)
    ∧ (out.2.getLsbD 1 = true ↔ exceeds F .rne x)
    ∧ (out.2.getLsbD 2 = true ↔ exact ≠ 0 ∧ belowNormal F .rne exact ∧ (exceeds F .rne x ∨ ¬ same))
    ∧ out.2.getLsbD 0 = false ∧ out.2.getLsbD 4 = false ∧ out.2.getLsbD 5 = false

/-- R48: an accumulator element of a floating step; the first case that applies decides it. -/
def Sys2Proof.Claims.mmaFloat (bf : Bool) (K : Nat) (scale : ℤ) (C : Nat) (A B : Nat → Machine.Num) (out : Nat × Flags) : Prop :=
  let F := Fmt.fp32
  let ks := List.range K
  let pos := ks.any fun k => infTimes false (A k) (B k)
  let neg := ks.any fun k => infTimes true (A k) (B k)
  let plus := C = 0x7F800000
  let minusC := C = 0xFF800000
  if isNan F C || ks.any (fun k => nanNum (A k) || nanNum (B k)) then
    out = (0x7FC00000, if signals F C || ks.any (fun k => A k == .nan true || B k == .nan true) then Flags.nv else 0)
  else if ks.any fun k => infZero (A k) (B k) then out = (0x7FC00000, Flags.nv)
  else if (pos && neg) || (plus && neg) || (minusC && pos) then out = (0x7FC00000, Flags.nv)
  else if plus || pos then out = (0x7F800000, 0)
  else if minusC || neg then out = (0xFF800000, 0)
  else mmaFinite bf K scale C A B out

/-- R49: an accumulator element of an integer step: the exact sum modulo 2^32, or clamped with sat in the saturating form. -/
def Sys2Proof.Claims.mmaInteger (sat : Bool) (C : Nat) (A B : Nat → Machine.Num) (out : Nat × Flags) : Prop :=
  let c : ℤ := if C.testBit 31 then (C : ℤ) - 2 ^ 32 else C
  ∃ z : ℤ, (z : ℚ) = c + ∑ k ∈ Finset.range 32, real (A k) * real (B k)
    ∧ out = if sat && (z < -2 ^ 31 || 2 ^ 31 - 1 < z) then ((max (-2 ^ 31) (min (2 ^ 31 - 1) z) % 2 ^ 32).toNat, Flags.sat)
        else ((z % 2 ^ 32).toNat, 0)

/-- R151: element (i, j) of a tile. -/
def Sys2Proof.Claims.element (v : Tile) (i j : Nat) : Nat := v.toNat / 2 ^ (32 * (16 * i + j)) % 2 ^ 32

/-- R43, R46-R50, R165: the step of a legal pair of formats delivers every element of the tile's shape by its class's rule, and the union of
their flags, with ec where an operand of format q4x holds a byte 0x88. -/
def Sys2Proof.Claims.StepValues : Prop :=
  ∀ (fmt : BitVec 32) (sat : Bool) (rows cols : Nat) (c : Tile) (a b : BitVec 4096), rows ≤ 16 → cols ≤ 16 →
    let fld := fun lo n : Nat => fmt.toNat / 2 ^ lo % 2 ^ n
    let A := fun i => operand (fld 0 4) (fld 24 4) a i
    let B := fun j => operand (fld 4 4) (fld 28 4) b j
    let scale : ℤ := (fld 8 8 : ℤ) + fld 16 8 - 254
    let hit := fun (code : Nat) (e : BitVec 4096) => code = 5 ∧ ∃ m < 512, e.toNat / 2 ^ (8 * m) % 256 = 0x88
    let out := mmaStep fmt sat rows cols c a b
    ∀ rule : Nat → (Nat → Machine.Num) → (Nat → Machine.Num) → Nat × Flags → Prop,
      (fld 0 4 = 0 ∧ fld 4 4 = 0 ∧ rule = mmaFloat true 16 scale
        ∨ fld 0 4 ∈ [1, 2] ∧ fld 4 4 ∈ [1, 2] ∧ rule = mmaFloat false 32 scale
        ∨ fld 0 4 = 5 ∧ fld 4 4 = 5 ∧ rule = mmaFloat false 64 scale
        ∨ fld 0 4 ∈ [3, 4] ∧ fld 4 4 ∈ [3, 4] ∧ rule = mmaInteger sat) →
      ∃ E : Nat → Nat → Nat × Flags,
        (∀ i < rows, ∀ j < cols, rule (element c i j) (A i) (B j) (E i j) ∧ element out.1 i j = (E i j).1)
        ∧ ∀ n < 6, out.2.getLsbD n = true ↔ (∃ i < rows, ∃ j < cols, (E i j).2.getLsbD n = true)
            ∨ n = 4 ∧ (hit (fld 0 4) a ∨ hit (fld 4 4) b)

/-- R151, R165: a step that lands writes the elements of its shape into the tile its bank owns, keeps the others, and ORs its flags into the
core's %nflags; the next step of the operation starts from what it left. -/
def Sys2Proof.Claims.StepLands : Prop :=
  ∀ (k : Core) (b : Bank) (x : Side) (o : MatrixOp) (p : MmaOperands) (acc : Tile),
    (k.of x).mops = [p] → p.op = o.number → p.step = o.landed → (k.of x).macc = [(o.number, acc)] → k.owner[o.tile] = some x →
    let rows := o.shape.toNat % 16 + 1
    let cols := o.shape.toNat / 16 % 16 + 1
    let out := mmaStep o.fmt o.sat rows cols (if o.landed = 0 ∧ o.zero = true then 0 else acc) p.a p.b
    let t := k.landStep b x o
    (∀ i < 16, ∀ j < 16, element t.tiles[o.tile] i j = if i < rows ∧ j < cols then element out.1 i j else element k.tiles[o.tile] i j)
    ∧ (∀ v : TReg, v ≠ o.tile → t.tiles[v] = k.tiles[v])
    ∧ (t.of x).nflags = (k.of x).nflags ||| out.2 ∧ (t.of x).mops = [] ∧ (t.of x).macc = [(o.number, out.1)]

/-- R40, R41, R43, R46-R50, R165: the values a matrix step computes and what it lands. -/
def Obligations.MatrixValues : Prop := Claims.Q4xBytes ∧ Claims.StepValues ∧ Claims.StepLands

/-- R180, R187, R189, R192, R193, R202, R211, R213, R238, R251, R253, R266: an operation that has issued and may perform does so when its
event comes, and leaves the list; a lock request may stay for the words it still waits for, and a syllable's arrivals for those of its cores
that may not perform yet. A release performs as its bundle issues. -/
def Obligations.PerformEvents : Prop :=
  ∀ (s : State) (n : Nat) (q : Pending) (r : RowId), s.pend.find? (·.id == n) = some q →
    (s.enabled q = true → q.poison = false →
      (∀ a b c d, q.op = .load a b c d → exec (.loadDataReturn n) s = .next ((s.retire q).performLoad q a b c d))
      ∧ (∀ a b, q.op = .store a b → exec (.storePerform n) s = .next ((s.retire q).performStore q a b))
      ∧ (∀ a b c d e f, q.op = .atom a b c d e f →
          exec (.atomicPerform n) s = .next (f.foldl (fun s x => s.performAtomOne q a b c d e x) (s.retire q)))
      ∧ (∀ a b c, q.op = .arrive a b c → s.arrivalsDue q a b c = c →
          exec (.arrivePerform n) s = .next (c.foldl (fun s x => s.performArriveOne q a x) (s.retire q)))
      ∧ (∀ a b c, q.op = .arrive a b c → s.arrivalsDue q a b c ≠ c →
          exec (.arrivePerform n) s = .next ((s.arrivalsDue q a b c).foldl (fun s x => s.performArriveOne q a x)
            { s with pend := s.pend.map fun e => if e.id = q.id
                then { e with op := .arrive a b (c.filter fun x => !(s.arrivalsDue q a b c).contains x) } else e }))
      ∧ (∀ a b c, q.op = .lock a b c → exec (.lockAcquire n) s = .next (s.performLock q a b c))
      ∧ (∀ a b, q.op = .discard a b → exec (.discardPerform n) s = .next ((s.retire q).performDiscard q a b))
      ∧ (∀ a b c d, q.op = .copyIn a b c d → exec (.copyComplete n) s = .next ((s.retire q).performCopyIn q a b c d))
      ∧ (∀ a b c, q.op = .copyOut a b c → exec (.copyComplete n) s = .next ((s.retire q).performCopyOut q a b c))
      ∧ (∀ a b c d e f, q.op = .copyLocal a b c d e f → exec (.copyComplete n) s = .next ((s.retire q).performCopyLocal q a b c d e f))
      ∧ (∀ a b c d, q.op = .red a b c d → exec (.redPerform n) s = .next (d.foldl (fun s x => s.performRedOne q a b c x) (s.retire q)))
      ∧ (∀ a b c d e f g h i j, q.op = .cipher a b c d e f g h i j →
          exec (.cipherComplete n) s = .next ((s.retire q).performCipher q a b c d e f g h i j))
      ∧ (∀ a b c d e, q.op = .send a b c d e → exec (.messageArrival n) s = .next ((s.retire q).performSend q a b c d)))
    ∧ (q.op.atIssue = true → q.row = s.cur → q.side = s.side →
        (∀ p ∈ s.pend, p.row = s.cur → p.side = s.side → p.op.atIssue = true → p = q) → s.calm = true → s.here.asked = true →
        Sparse.risesFrom s.rows none = true → ∀ a sc row, s.due = some (.rel a sc row) → s.accepts (sylRel a sc row) = true →
        exec (.lockRelease n) s = .next ((s.perform q).issued true fun _ k => k.popped .none (.s a) .none))
    ∧ (s.pend.find? (fun p => p.row == r.val && p.side == q.side && (match p.op with | .ack => true | _ => false)) = some q → q.poison = false →
        ∃ t, exec (.writeAcknowledge r q.side) s = .next t ∧ (t.bank q.row q.side).acks = (s.bank q.row q.side).acks - 1
          ∧ t.pend = s.pend.filter (·.id != n))

/-- Two runs of bytes of memory share no line. -/
def Sys2Proof.Claims.linesApart (key n key' n' : Nat) : Prop := (key + n - 1) / 64 < key' / 64 ∨ (key' + n' - 1) / 64 < key / 64

/-- Bytes at a place of a panel lie in its address space, in no line of a generation word that a write may raise, and under no key slot
without a key (R34, R274, R345, R381). Bytes of a local store always do. -/
def Sys2Proof.Claims.soundPlace (s : State) (p : Place) (n : Nat) : Prop :=
  match p with
  | .ls _ _ _ => True
  | .phys panel addr _ _ _ _ slot => addr + n ≤ 2 ^ 52 ∧ (∀ k, slotTag slot = some k → (s.slots[k]).key ≠ none)
    ∧ ∀ u ∈ s.allFrames, ∀ g, u.genWord = some g → linesApart (physKey s.panelId.toNat g) 8 (physKey panel addr) n

/-- Two places of `n` bytes share no byte, and no line where they are reached under two views (R381). -/
def Sys2Proof.Claims.apart (p q : Place) (n : Nat) : Prop :=
  p.meets n q n = false ∧ match p, q with
    | .phys w a _ _ _ _ _, .phys w' b _ _ _ _ _ => p.view = q.view ∨ linesApart (physKey w a) n (physKey w' b) n
    | _, _ => True

/-- The targets of an operation belong to different cores, and the `n` bytes at each are sound and no other's. -/
def Sys2Proof.Claims.soundTargets {α : Type} (s : State) (n : Nat) (place : α → Place) (ts : List (Fin 64 × α)) : Prop :=
  (∀ x ∈ ts, soundPlace s (place x.2) n) ∧ ts.Pairwise fun x y => x.1 ≠ y.1 ∧ apart (place x.2) (place y.2) n

/-- Bytes at a place are plaintext and clean (R207, R366). -/
def Sys2Proof.Claims.cleanPlace (s : State) (p : Place) (n : Nat) : Prop := s.placeCipher p n = false ∧ s.placePoison p n = false

/-- An operation has left the list, and its writes to frames of other panels await as many acknowledgements (R253). -/
def Sys2Proof.Claims.leaves (s t : State) (q : Pending) (off : Nat) : Prop :=
  ∃ as, t.pend = s.pend.filter (·.id != q.id) ++ as ∧ as.length = off ∧ ∀ a ∈ as, a.op = .ack ∧ a.row = q.row ∧ a.side = q.side ∧ a.due = none

/-- In a core, an engine's counter whose next operation is `k` reaches `k` (R197). -/
def Sys2Proof.Claims.countsTo (s t : State) (q : Pending) (c : Fin 64) (e : Fin 8) (k : Nat) : Prop :=
  let a := (s.row q.row).cb q.side c
  a.doneOps = [] → a.tl[e].toNat + 1 = k → ((t.row q.row).cb q.side c).tl[e] = BitVec.ofNat 64 k

/-- The requests of a core once those of an id have their data (R180). -/
def Sys2Proof.Claims.answered (k : CoreBank) (id : Nat) (data : Vec) (cipher poison : Bool) (line : Nat) : List Request :=
  k.loads.map fun r => if r.id = id ∧ r.data = none then { r with data := some data, cipher := cipher, poison := poison, line := line } else r

/-- A word of a lock request that is free, and that no earlier request waits for (R192). -/
def Sys2Proof.Claims.lockFree (s : State) (q : Pending) (x : Fin 64 × Place × Bool) : Bool :=
  !x.2.2 && s.placeWord x.2.1 == 0 && (s.pend.takeWhile (·.id != q.id)).all fun e =>
    match e.op with
    | .lock _ _ us => us.all fun u => u.2.2 || !(u.2.1.meets 8 x.2.1 8)
    | _ => true

/-- R177, R180, R187, R189, R192, R193, R197, R202, R207, R210, R211, R213, R238, R251, R253, R266: an operation that has issued and may
perform, its bytes plaintext and clean where the rule asks for that, performs when its event comes, and leaves the list: a load's data
enter the queue; a store, an atomic, an arrival, a release and a discard leave their bytes; a free lock word becomes the owner tag; a copy
leaves its lines, a reduction its sums, a seal or open its text; a message is taken or refused; an acknowledgement is counted off. Of
several cores' targets those at places of their own are spoken of here; PerformEvents has them all, one core after another. Copies and
ciphers read their source as they perform (log entry 18's reading), a cipher's errors come in log entry 34's order, and what stands in the
record of a refused message is log entry 98's choice. -/
def Sys2Proof.Claims.PerformedEffects : Prop :=
  ∀ (s : State) (n : Nat) (q : Pending) (r : RowId), s.pend.find? (·.id == n) = some q → s.enabled q = true → q.poison = false →
    s.MemoryWf → s.LocalWf → s.moves = [] → (∀ row, (s.row row).line q.side = []) →
    let mine := (s.row q.row).cb q.side q.core
    let bank := s.bank q.row q.side
    (∀ req p len seen, q.op = .load req p len seen →
      ∃ t, exec (.loadDataReturn n) s = .next t ∧ leaves s t q 0 ∧ t.mem = s.mem
        ∧ ((t.row q.row).cb q.side q.core).loads =
          answered mine req (BitVec.ofNat 1024 (natOfBytes (overlay p (s.readPlace p len) seen))) (s.placeCipher p len)
            (s.placePoison p len || seen.any fun st => st.poison && p.meets len st.place st.data.length) (s.poisonAt p len))
    ∧ (∀ p data, q.op = .store p data → (data.length < 64 → s.placeCipher p data.length = false) →
      ∃ t, exec (.storePerform n) s = .next t ∧ leaves s t q (s.offWrites [p]) ∧ t.readPlace p data.length = data)
    ∧ (∀ o ty sc ret req ts, q.op = .atom o ty sc ret req ts → let w := if ty = .i64 then 8 else 4
      soundTargets s w (fun x => x.1) ts → (∀ x ∈ ts, cleanPlace s x.2.1 w) →
      ∃ t, exec (.atomicPerform n) s = .next t ∧ leaves s t q (s.offWrites (ts.map (·.2.1)))
        ∧ ∀ x ∈ ts, let old := natOfBytes (s.readPlace x.2.1 w)
          t.readPlace x.2.1 w = bytesOfNat (atomValue o ty old (x.2.2.1.toNat % 2 ^ (8 * w)) (x.2.2.2.toNat % 2 ^ (8 * w))) w
          ∧ let k := (s.row q.row).cb q.side x.1
            ((t.row q.row).cb q.side x.1).loads = if ret then answered k req
              ((if ty = .f32 then BitVec.ofNat 64 old else BitVec.ofInt 64 (signext old (8 * w)) : Word).setWidth 1024) false false (s.poisonAt x.2.1 w)
              else k.loads)
    ∧ (∀ sc byRow ts, q.op = .arrive sc byRow ts → s.arrivalsDue q sc byRow ts = ts → soundTargets s 64 (fun x => x.1) ts →
      (∀ x ∈ ts, s.placeCipher x.2.1 64 = false ∧ phaseBad (s.readPlace x.2.1 64) = false) →
      ∃ t, exec (.arrivePerform n) s = .next t ∧ leaves s t q (s.offWrites (ts.map (·.2.1)))
        ∧ (t.bank q.row q.side).acks = bank.acks + s.offWrites (ts.map (·.2.1))
        ∧ ∀ x ∈ ts, t.readPlace x.2.1 64 = phaseArrive (s.readPlace x.2.1 64) x.2.2)
    ∧ (∀ sc tag ts, q.op = .lock sc tag ts → soundTargets s 8 (fun x => x.1) ts → (∀ x ∈ ts, s.wordSealed x.2.1 = false) →
      ∃ t, exec (.lockAcquire n) s = .next t
        ∧ (∀ x ∈ ts, t.readPlace x.2.1 8 = if lockFree s q x
          then bytesOfWord (if tag.getLsbD 63 then tag else tag + BitVec.ofNat 64 x.1.val) else s.readPlace x.2.1 8)
        ∧ if ts.all (fun x => x.2.2 || lockFree s q x) then leaves s t q 0
          else t.pend.find? (·.id == n) =
            some { q with op := .lock sc tag (ts.map fun x => if lockFree s q x then (x.1, x.2.1, true) else x) })
    ∧ (∀ p lines, q.op = .discard p lines → soundPlace s p (64 * lines) →
      ∃ t, exec (.discardPerform n) s = .next t ∧ ∀ i < lines, t.readPlace (p.shift (64 * i)) 64 = List.replicate 64 0)
    ∧ (∀ ch k lines reel, q.op = .copyIn ch k lines reel →
      (∀ l ∈ lines, match l.1 with | .phys .. => True | .ls .. => False) →
      (lines.Pairwise fun a b => a.2 + 64 ≤ b.2 ∨ b.2 + 64 ≤ a.2) →
      ∃ t, exec (.copyComplete n) s = .next t ∧ leaves s t q 0 ∧ countsTo s t q q.core (ch.castLE (by decide)) k
        ∧ ∀ l ∈ lines, t.readPlace (.ls q.row q.core l.2) 64 = s.readPlace l.1 64)
    ∧ (∀ ch k lines, q.op = .copyOut ch k lines → (bank.info.world = 0 ∨ ∀ l ∈ lines, l.2.slot < 64) →
      (∀ l ∈ lines, soundPlace s l.2 64 ∧ match l.2 with | .phys .. => True | .ls .. => False) →
      (lines.Pairwise fun a b => apart a.2 b.2 64) →
      ∃ t, exec (.copyComplete n) s = .next t ∧ leaves s t q (s.offWrites (lines.map (·.2)))
        ∧ countsTo s t q q.core (ch.castLE (by decide)) k
        ∧ ∀ l ∈ lines, t.readPlace l.2 64 = s.readPlace (.ls q.row q.core l.1) 64)
    ∧ (∀ ch k a target d len, q.op = .copyLocal ch k a target d len →
      ∃ t, exec (.copyComplete n) s = .next t ∧ leaves s t q 0 ∧ countsTo s t q q.core (ch.castLE (by decide)) k
        ∧ t.readPlace (.ls q.row target d) (64 * (len / 64)) = s.readPlace (.ls q.row q.core a) (64 * (len / 64)))
    ∧ (∀ k ty sc ts, q.op = .red k ty sc ts → let w := if ty = .i64 then 8 else 4
      ty ≠ .f32 → soundTargets s 128 (fun x => x.1) ts → (∀ x ∈ ts, cleanPlace s x.2.1 128) →
      (bank.info.world = 0 ∨ ∀ x ∈ ts, x.2.1.slot < 64) →
      ∃ t, exec (.redPerform n) s = .next t ∧ leaves s t q (s.offWrites (ts.map (·.2.1)))
        ∧ ∀ x ∈ ts, countsTo s t q x.1 7 k ∧ ∀ i < 128 / w, natOfBytes (t.readPlace (x.2.1.shift (w * i)) w) =
            (natOfBytes (s.readPlace (x.2.1.shift (w * i)) w) + x.2.2.toNat / 2 ^ (8 * w * i) % 2 ^ (8 * w)) % 2 ^ (8 * w))
    ∧ (∀ k sealing a d b m slot iv aad tag, q.op = .cipher k sealing a d b (64 * m) slot iv aad tag →
      ∃ t, exec (.cipherComplete n) s = .next t ∧ leaves s t q 0 ∧ countsTo s t q q.core 5 k
        ∧ (∀ e, s.cipherError q sealing a (64 * m) slot iv aad tag = some e →
            (t.row q.row).cores[q.core].ls = (s.row q.row).cores[q.core].ls
            ∧ ∃ z, (t.bank q.row q.side).posted = addPosted bank.posted z ∧ z.trap = e)
        ∧ (s.cipherError q sealing a (64 * m) slot iv aad tag = none → let key := gcmKey ((s.slots[slot]).key.getD 0)
            let text := s.readPlace (.ls q.row q.core a) (64 * m)
            let out := gcmText key iv text
            (sealing = false ∨ b + 48 ≤ d ∨ d + 64 * m ≤ b + 32 → t.readPlace (.ls q.row q.core d) (64 * m) = out)
            ∧ (sealing = true → t.readPlace (.ls q.row q.core (b + 32)) 16 = bytesOfNat (gcmTag key iv aad out).toNat 16)))
    ∧ (∀ k panel target m sc, q.op = .send k panel target m sc →
      ∃ t, exec (.messageArrival n) s = .next t ∧ leaves s t q 0 ∧ countsTo s t q q.core 6 k
        ∧ (s.delivery bank.info.world panel target = .refuse → (t.bank q.row q.side).posted = addPosted bank.posted (m.refusal panel target))
        ∧ ∀ x, panel = s.panelId.toNat → s.delivery bank.info.world panel target = .take → (s.row target).armedSide = some x →
          let r' := t.row target
          if (s.bank target x).phase = .dormant then
            (t.bank target x).phase = .run ∧ (t.bank target x).pc = (if m.entry = 0 then (s.bank target x).armed.getD 0 else m.entry)
            ∧ (r'.cb x m.core).v[0] = m.payload ∧ (r'.cb x m.core).s[1] = m.sender
            ∧ (r'.cb x m.core).s[2] = m.tag.setWidth 64 ∧ (r'.cb x m.core).q[1] = BitVec.allOnes 128
            ∧ ∀ c : Fin 64, c ≠ m.core → (r'.cb x c).q[1] = 0
          else r'.arrivals = (s.row target).arrivals ++ [m])
    ∧ (s.pend.find? (fun p => p.row == r.val && p.side == q.side && (match p.op with | .ack => true | _ => false)) = some q →
      ∃ t, exec (.writeAcknowledge r q.side) s = .next t ∧ leaves s t q 0 ∧ (t.bank q.row q.side).acks = bank.acks - 1)

/-- R67, R193, R253: a release whose bundle issues leaves its words 0, and leaves the list, its writes to frames of other panels counted. -/
def Sys2Proof.Claims.ReleasePerforms : Prop :=
  ∀ (s : State) (n : Nat) (q : Pending) (a : SReg) (sc scope : Scope) (row byRow : Bool) (ts : List (Fin 64 × Place)),
    s.pend.find? (·.id == n) = some q → q.op = .unlock scope byRow ts → q.row = s.cur → q.side = s.side → q.poison = false →
    (∀ p ∈ s.pend, p.row = s.cur → p.side = s.side → p.op.atIssue = true → p = q) →
    s.calm = true → s.here.asked = true → s.due = some (.rel a sc row) → s.accepts (sylRel a sc row) = true →
    Sparse.risesFrom s.rows none = true → s.MemoryWf → s.LocalWf → s.moves = [] →
    soundTargets s 8 (fun x => x) ts → (∀ x ∈ ts, s.wordSealed x.2 = false) →
    ∃ t, exec (.lockRelease n) s = .next t ∧ exec (.rel a sc row) s = .next t ∧ leaves s t q (s.offWrites (ts.map (·.2)))
      ∧ (t.bank s.cur s.side).acks = s.here.acks + s.offWrites (ts.map (·.2)) ∧ ∀ x ∈ ts, t.readPlace x.2 8 = List.replicate 8 0

/-- R177-R266: what the operations that have issued leave as they perform, and a release as its bundle issues. -/
def Obligations.PerformEffects : Prop := Claims.PerformedEffects ∧ Claims.ReleasePerforms

/-- R187, R189, R192, R193, R251, R266: what performing leaves in a local store, byte by byte: a store its bytes, an integer atomic its
new value at the width of its type, a release zeros, a discard zeros in every line it names; every other byte of that local store reads
as before. -/
def Sys2Proof.Claims.PerformedBytes : Prop :=
  ∀ (s : State) (q : Pending) (row byte : Nat) (core : Fin 64), let ls := (s.row row).cores[core].ls
    Memory.wf ls = true →
    let reads (t : State) (f : Nat → Byte) (n : Nat) : Prop :=
      ∀ j, Memory.byte (t.row row).cores[core].ls j = if byte ≤ j ∧ j < byte + n then f (j - byte) else Memory.byte ls j
    (∀ data : List Byte, (data.length < 64 → (s.row row).cores[core].anyCipher byte data.length = false) →
      reads (s.performStore q (.ls row core byte) data) (fun i => data[i]?.getD 0) data.length)
    ∧ (∀ (op : Fin 8) (t : AType) (sc : Scope) (req : Nat) (b c : Word), t ≠ .f32 →
        let w := if t = .i64 then 8 else 4
        (s.row row).cores[core].anyCipher byte w = false → (s.row row).cores[core].anyPoison byte w = false →
        reads (s.performAtomOne q op t sc false req (core, .ls row core byte, b, c))
          (fun i => BitVec.ofNat 8 (atomValue op t (natOfBytes (Memory.read ls byte w)) (b.toNat % 2 ^ (8 * w)) (c.toNat % 2 ^ (8 * w)) / 256 ^ i)) w)
    ∧ (∀ sc c, reads (s.performUnlockOne q sc c (.ls row core byte)) (fun _ => 0) 8)
    ∧ (∀ lines, byte % 64 = 0 → reads (s.performDiscard q (.ls row core byte) lines) (fun _ => 0) (64 * lines))

/-- R188, R189: an arrival at a well-formed phase object counts it in and gathers its flags; the arrival that completes the expected count
flips the phase parity, hands the gathered flags on as the last phase's, and clears count and flags. -/
def Sys2Proof.Claims.PhaseArrival : Prop :=
  ∀ (expected arrivals parity opened last : Nat) (m : Flags),
    expected < 2 ^ 32 → arrivals < 2 ^ 32 → parity < 2 → opened < 64 → last < 64 →
    let object (e a p o l : Nat) : List Byte := bytesOfNat (e + a * 2 ^ 32 + p * 2 ^ 64 + o * 2 ^ 96 + l * 2 ^ 128) 64
    let flags := (BitVec.ofNat 6 opened ||| m).toNat
    phaseBad (object expected arrivals parity opened last) = false
    ∧ phaseArrive (object expected arrivals parity opened last) m =
        (if (arrivals + 1) % 2 ^ 32 = expected then object expected 0 (1 - parity) 0 flags
          else object expected ((arrivals + 1) % 2 ^ 32) parity flags last)

/-- R187-R189, R193, R251, R266: what performing leaves in a local store, and in a phase object. -/
def Obligations.PerformValues : Prop := Claims.PerformedBytes ∧ Claims.PhaseArrival

/-- R114, R217, R225, R227, R229, R230, R235, R299, R300, R303, R373: the events of banks and rows: the answer to a request,
a switch, a stop asked for and made, a resumption, the emptying of a failed and of a halted bank, the release of a barrier and of a
rendezvous, a write of a barrier mask, and a retirement. A launch that a bank asks for names that bank until its bundle issues (log entry
103). -/
def Obligations.BankEvents : Prop :=
  ∀ (s : State) (r : RowId) (x : Side), let n := r.val; let b := s.bank n x
    (∀ req, b.request = some req →
      ∃ t w, exec (.spawnAnswer r x) s = .next t ∧ (t.bank n x).answer = some w ∧ (t.bank n x).request = none)
    ∧ (∀ rec, b.request = some (false, rec) → s.recordBad rec = false → s.recCohort rec = false →
        let id := nextLaunchId s.lastId
        if s.worldRows b.info.world < s.allowance b.info.world then
          ∃ t, exec (.spawnAnswer r x) s = .next t ∧ (t.bank n x).answer = some (BitVec.ofNat 64 id) ∧ (t.bank n x).request = none
            ∧ t.lastId = id ∧ t.launches = s.launches ++ [{ s.launchOfRecord rec id b.info.world b.sysperm none none with asker := some (n, x) }]
        else ∃ t, exec (.spawnAnswer r x) s = .next t ∧ (t.bank n x).answer = some 0x200000000 ∧ t.launches = s.launches)
    ∧ (∀ rec, b.request = some (false, rec) → s.recordBad rec = true →
      ∃ t, exec (.spawnAnswer r x) s = .next t ∧ (t.bank n x).answer = some 0x100000000 ∧ (t.bank n x).request = none)
    ∧ (∀ c, s.switchDue n = .take c →
        ∃ t, exec (.bankSwitch r) s = .next t ∧ (t.row n).holder = otherSide (s.row n).holder ∧ (t.row n).switch = 4
          ∧ (t.bank n (otherSide (s.row n).holder)).since = 0)
    ∧ (b.phase = .run → b.stopReq = none → exec (.preemption r x) s = .next (s.modBank n x fun b => { b with stopReq := some .preempt }))
    ∧ (∀ k, k ≠ .tileFault → b.phase = .run → b.stopReq = some k → (s.row n).holder ≠ x ∨ b.atBoundary = true →
        ∃ t, exec (.bankStop r x) s = .next t ∧ (t.bank n x).phase = .stopped k ∧ (t.bank n x).stopReq = none
          ∧ ∀ c, ((t.row n).cb x c).flights = [])
    ∧ (b.phase = .stopped .preempt → ∃ t, exec (.bankResume r x) s = .next t ∧ (t.bank n x).phase = .run ∧ (t.bank n x).waitLeft = 8)
    ∧ (b.armed = none → s.bankQuiet n x = true →
        (b.phase = .failed → ∃ t, exec (.failedBankEmpty r x) s = .next t ∧ (t.bank n x).phase = .empty)
        ∧ (b.phase = .halted → b.heldLeft = 0 → s.bankLanded n x = true →
            ∃ t, exec (.blockComplete r x) s = .next t ∧ (t.bank n x).phase = .empty))
    ∧ (b.armed ≠ none → b.phase = .halted → b.heldLeft = 0 → s.bankQuiet n x = true → s.bankLanded n x = true → (s.row n).arrivals = [] →
        ∃ t, exec (.blockComplete r x) s = .next t ∧ (t.bank n x).phase = .dormant ∧ (t.bank n x).armed = b.armed
          ∧ ∀ c, ((t.row n).cb x c).loads = [])
    ∧ (∀ pc id sc, b.atBar = some (pc, id, sc) → s.barReleased n x id sc = true →
        ∃ t, exec (.barrierRelease r x) s = .next t ∧ (t.bank n x).go = true)
    ∧ (∀ (l : BitVec 32) k i arrived, s.launchOf l.toNat = some k → k.rendezvous = some (i, arrived) →
        (∀ p ∈ s.launchBanks l.toNat, p.1 ∈ arrived) →
        ∃ t, exec (.rendezvousRelease l) s = .next t ∧ ∀ p ∈ s.launchBanks l.toNat, (t.bank p.1 p.2).go = true)
    ∧ (∀ (g : RegionId) (id : Fin 16) (die : Fin 10) (v : Word), let key := id.val * 10 + die.val
        ∃ w, exec (.barmaskWrite g id die v) s = .next (s.modRegion g fun k => { k with masks := Sparse.set k.masks 0 key w })
          ∧ ((∀ l ∈ s.launches, l.cohort = true → l.next ≠ 0 → l.barriers.getLsbD id.val = false) → w = v)
          ∧ ∀ i : Fin 64, let row := s.row ((g.val * 10 + die.val) * 64 + i.val)
            let holds (k : Bank) : Bool := k.phase != .empty && k.info.cohort && k.info.barriers.getLsbD id.val
            (holds row.a || holds row.b → w.getLsbD i.val = v.getLsbD i.val)
            ∧ (v.getLsbD i.val = true → w.getLsbD i.val = true)
            ∧ (w.getLsbD i.val = true → v.getLsbD i.val = true ∨ (Sparse.get (s.regions[g]).masks 0 key).getLsbD i.val = true))
    ∧ (s.station.active = none → exec (.retirementRequest r) s = .next s)
    ∧ ((s.row n).retired = false → s.station.active ≠ none →
        ∃ t, exec (.retirementRequest r) s = .next t ∧ (t.row n).cause = 4 ∧ (t.row n).retired = true ∧ (t.bank n .a).phase = .empty ∧ (t.bank n .b).phase = .empty)

/-! ## Launches, queues, tiers -/

/-- R292, R294, R297, R333, R334, R344, R350: a block of a free launch of world 0 is placed where the placement finds room; a launch all of whose
blocks have ended completes with its record; a kill ends its quiet banks; a resumed task's parked banks run again once nothing of
theirs is missing; a rerun whose round has ended selects the next, or ends. That a block begins at syllable 0 is log entry 6 (DEDUCED), what a
resumption waits for log entry 143 (DEDUCED). -/
def Obligations.LaunchEvents : Prop :=
  ∀ (s : State) (id : BitVec 32) (l : Launch), s.launchOf id.toNat = some l →
    (∀ n x base, l.cohort = false → l.world = 0 → l.killing = false → l.next < l.blocks → l.rerun = none → l.traced = false → l.asker = none →
      s.timing.stabled = false → s.timing.wake ≤ s.time → s.tasks = [] → (s.launchBanks l.id).length < l.maxRows → s.findPlace l l.next = some (n, x, base) →
      ∃ t, exec (.blockPlace id) s = .next t ∧ (t.bank n x).phase = .run ∧ (t.bank n x).pc = 0
        ∧ (t.bank n x).rankBlk = BitVec.ofNat 32 l.next ∧ (t.bank n x).info.codeBase = base ∧ (t.row n).world = some 0
        ∧ (∀ c : Fin 64, ((t.row n).cb x c).nflags = 0 ∧ ((t.row n).cb x c).loads = []))
    ∧ (l.ended = l.blocks → l.rerun = none → l.traced = false → l.queue = none → s.moves = [] → Memory.wf s.mem = true →
        Sparse.risesFrom s.sealed none = true → s.agentWaits l.completion 64 = false → s.addressBad l.completion 64 64 = false →
        ∃ t, exec (.launchComplete id) s = .next t ∧ t.launches = s.launches.filter (fun k => k.id != l.id)
          ∧ t.physRead l.completion 64 = completionBytes (if l.failed + l.killed = 0 then 0 else 1) l.id l.failed l.killed
              (match l.firstFail with | some f => f.2 | none => Vector.replicate 6 0))
    ∧ (l.killing = true → (∀ p ∈ s.heldBanks l.id, (s.bank p.1 p.2).phase = .killed → s.bankQuiet p.1 p.2 = true) →
        ∃ t, exec (.killComplete id) s = .next t
          ∧ ∀ p ∈ s.heldBanks l.id, (s.bank p.1 p.2).phase = .killed → (t.bank p.1 p.2).phase = .empty)
    ∧ (∀ r, l.rerun = some r → l.killing = true → l.ended = r.sel.length → l.queue = none →
        ∃ t, exec (.rerunRound id) s = .next t ∧ t.launches = s.launches.filter (fun k => k.id != l.id) ∧ t.wgen = s.wgen + 1)
    ∧ (∀ r, l.rerun = some r → l.killing = false → l.refused = none → l.ended = r.sel.length → l.queue = none →
        let ran := r.ran ++ r.sel
        let sel := (List.range l.blocks).filter fun b => !ran.contains b && s.reached l r.header r.since b
        ∃ t, exec (.rerunRound id) s = .next t
          ∧ if sel = [] then t.launches = s.launches.filter (fun k => k.id != l.id) ∧ t.wgen = s.wgen + 1
            else t.mem = s.mem ∧ ∃ k r', t.launchOf id.toNat = some k ∧ k.next = 0 ∧ k.ended = 0 ∧ k.rerun = some r' ∧ r'.sel = sel ∧ r'.ran = ran)
    ∧ ∀ (task : Word) (k : Task), s.tasks.find? (·.id == task) = some k → k.parked = false → k.cancelled = false → k.demoting = false → k.away = [] →
        k.launch = l.id → s.timing.wake ≤ s.time →
        (∀ p ∈ s.heldBanks l.id, let b := s.bank p.1 p.2
          b.forSiding = true ∧ b.parked ≠ [] ∧ b.rest = .run ∧ b.faults = [] ∧ b.info.world = 0
          ∧ (s.dies[dieFin p.1]).gated = false) →
        ∃ t, exec (.taskResume task) s = .next t
          ∧ ∀ p ∈ s.launchBanks l.id, (t.bank p.1 p.2).phase = .run ∧ (t.bank p.1 p.2).waitLeft = 8 ∧ (t.bank p.1 p.2).parked = []

/-- R304-R309, R371, R372: a packet that reaches a thread with nothing waiting is taken, or stops the queue where it is malformed; a ring's head
packet likewise, and a poisoned table stops the queue before it; a fence packet starts, as do a launch, a signal, and a wait whose condition
holds; the doorbell moves the tail or stops the queue, with the tail as it was (log entry 80, DEDUCED) and the packet not started back in
its ring; a ring's base, a restart and a reload act as their registers say. -/
def Obligations.QueueEvents : Prop :=
  ∀ (s : State) (q : QueueId) (h : PktHdr) (a o : Word) (k : Byte) (n : BitVec 32) (body : TaskBody) (ring : Fin 8), let z := s.queue q
    (s.station.booted = true → z.live = true → (∀ t ∈ z.taken, t.started = true) → z.arrays.length < 4 →
      let took (s' : State) (p : Packet) (from' : Option (Fin 8)) : State :=
        (s'.modQueue q fun z' => { z' with
          count := z.count + 1, state := 1
          taken := z.taken ++ [⟨h, p, z.arrays.length, from', z.count, z.arrays.map (·.1), false, false, none⟩] }).schedule s.time (.startPacket q)
      (∀ p ∈ ([(.launchPacket q h a, .launch a), (.taskPacket q h body, .task body), (.rerunPacket q h a, .rerun a),
          (.waitPacket q h k a o, .wait k a o), (.signalPacket q h k a o, .signal k a o), (.indirectPacket q h a n, .indirect a n),
          (.fencePacket q h k, .fence k), (.budgetPacket q h a n, .budget a n)] : List (Instr × Packet)),
        (s.packetBad p.2 = false → exec p.1 s = .next (took s p.2 none))
        ∧ (s.packetBad p.2 = true → exec p.1 s = .next (s.modQueue q fun z => { z with state := 2, error := 2, stamp := h.stamp })))
      ∧ (z.poisoned = true → exec (.packetTake q) s = .next (s.modQueue q fun z => { z with state := 2, error := 5 }))
      ∧ (z.arrays = [] → z.poisoned = false → s.mergeRing z = some ring →
          let entry := s.ringEntry z.rings[ring]
          (∀ p, parsePacket entry = some (h, p) →
            (s.packetBad p = false →
              exec (.packetTake q) s = .next (took
                (s.modQueue q fun z => { z with rings := z.rings.set ring.val { z.rings[ring] with taken := z.rings[ring].taken + 1 } }) p (some ring)))
            ∧ (s.packetBad p = true →
              exec (.packetTake q) s = .next (s.modQueue q fun z => { z with state := 2, error := 2, stamp := h.stamp })))
          ∧ (parsePacket entry = none →
              exec (.packetTake q) s = .next (s.modQueue q fun z =>
                { z with state := 2, error := 2, stamp := BitVec.ofNat 32 (natOfBytes ((entry.drop 4).take 4)) }))))
    ∧ (∀ t : Taken, z.live = true → z.taken = [t] → t.started = false → t.complete = false → t.ring = none → t.header.after = false →
        t.launch = none → s.timing.stabled = false → s.timing.wake ≤ s.time →
        (t.body = .fence k → exec (.packetStart q) s =
          .next (((s.modQueue q fun z => { z with taken := [{ t with started := true }] }).setBlocked q false).schedule s.time (.startPacket q)))
        ∧ (t.body = .launch a → s.recordBad a.toNat = false → let id := nextLaunchId s.lastId
            ∃ u, exec (.packetStart q) s = .next u ∧ u.lastId = id
              ∧ u.launches = s.launches ++ [s.launchOfRecord a.toNat id (s.recWorld a.toNat) 15 (some (q.val, t.order)) none]
              ∧ (u.queue q).taken = [{ t with launch := some id }])
        ∧ (t.body = .signal 0 a o → s.moves = [] → s.MemoryWf → Sparse.risesFrom s.sealed none = true → s.agentWaits a.toNat 8 = false →
            ∃ u, exec (.packetStart q) s = .next u ∧ u.physWord a.toNat = s.physWord a.toNat + o
              ∧ (u.queue q).taken = [{ t with started := true, complete := true }])
        ∧ (t.body = .wait 2 a o → (o.toNat ≤ (s.physWord a.toNat).toNat → exec (.packetStart q) s =
              .next (((s.modQueue q fun z => { z with taken := [{ t with started := true, complete := true }] }).setBlocked q false).schedule s.time
                (.startPacket q)))
            ∧ ((s.physWord a.toNat).toNat < o.toNat → exec (.packetStart q) s = .next (s.setBlocked q true))))
    ∧ (let r := z.rings[ring]
       let ahead := (n - r.head).toNat
       ((r.tail - r.head).toNat ≤ ahead → ahead ≤ 2 ^ (r.base.toNat % 32) →
          exec (.ringDoorbell q ring n) s =
            .next ((s.modQueue q fun z => { z with rings := z.rings.set ring.val { r with tail := n, badTail := false } }).schedule s.time (.takePacket q)))
       ∧ (ahead < (r.tail - r.head).toNat ∨ 2 ^ (r.base.toNat % 32) < ahead →
          ((∀ t ∈ z.taken, t.started = true) →
            exec (.ringDoorbell q ring n) s = .next (s.modQueue q fun z => { z with state := 2, error := 1 }))
          ∧ ∀ (t : Taken) (i : Fin 8), z.taken = [t] → t.started = false → t.launch = none → t.ring = some i →
              ∃ u, exec (.ringDoorbell q ring n) s = .next u ∧ (u.queue q).state = 2 ∧ (u.queue q).error = 1 ∧ (u.queue q).taken = []
                ∧ ((u.queue q).rings[i]).taken = z.rings[i].taken - 1 ∧ ((u.queue q).rings[ring]).tail = r.tail))
    ∧ (∃ v : Ring, exec (.ringBaseWrite q ring a) s = .next (s.modQueue q fun z => { z with rings := z.rings.set ring.val v })
        ∧ (a.toNat % 32 < 4 ∨ 16 < a.toNat % 32 → v = z.rings[ring])
        ∧ (4 ≤ a.toNat % 32 → a.toNat % 32 ≤ 16 → a.getLsbD 63 = true → z.rings[ring].base.getLsbD 63 = false →
            v.base = a &&& 0x800FFFFFFFFFF01F ∧ v.head = 0 ∧ v.tail = 0)
        ∧ (a.getLsbD 63 = true → z.rings[ring].base.getLsbD 63 = true → v = z.rings[ring]))
    ∧ (z.state = 2 → z.halted = false → z.error ≠ 5 →
        exec (.queueRestart q) s =
          .next ((s.modQueue q fun z => { z with state := 1, error := 0, poison := false }).schedule s.time (.startPacket q)))
    ∧ (z.state = 2 → z.halted = false → z.error = 5 →
        (z.rings.toList.any Ring.poisoned = true → exec (.queueRestart q) s = .next s)
        ∧ (z.rings.toList.any Ring.poisoned = false → z.arrays = [] →
          exec (.queueRestart q) s =
            .next ((s.modQueue q fun z => { z with state := 1, error := 0, poison := false, arrays := [] }).schedule s.time (.startPacket q))))
    ∧ ∀ g : RegionId, ∃ t, exec (.cpReloadComplete g) s = .next t ∧ ∀ i : Fin 32, ((t.regions[g]).queues[i]).halted = false

/-- R279, R282, R283, R285, R313: the events of translation and the tiers; that a done register packs handle and number is log entry 88
(DEDUCED), that the frames of a move no longer named by an operation may move log entry 37 (DEDUCED). -/
def Sys2Proof.Claims.TierEvents : Prop :=
  ∀ (s : State),
    (∀ tile : BitVec 32, s.xinvSel.getLsbD 63 = false →
      exec (.xinvGo tile) s = .next { s with
        xinvGo := tile.setWidth 64
        xinvSel := s.xinvSel ||| BitVec.twoPow 64 63
        xinvJob := some (s.xinvSel, tile.setWidth 64) })
    ∧ (∀ sel go, s.xinvSel.getLsbD 63 = true → s.xinvJob = some (sel, go) →
        ∃ t, exec .invalidationComplete s = .next t ∧ t.xinvSel.getLsbD 63 = false
          ∧ ∀ r ∈ t.rows, (∀ e ∈ r.2.tcache, xinvSelects sel go e.space e.tensor (some e.tile) = false)
            ∧ ∀ e ∈ r.2.dcache, xinvSelects sel go e.space e.tensor none = false)
    ∧ (∀ u : TierUnit, (s.unitMarks u).used ≤ (s.unitMarks u).high → exec (.demotion u) s = .next s)
    ∧ (∀ (j : JunId) (f : FrameUse) (d : TierUnit) (g : Nat), let u : TierUnit := .junction j
        (s.unitMarks u).high < (s.unitMarks u).used → (s.unitMarks u).low < (s.unitMarks u).used → s.moves = [] →
        (s.unitMarks u).low < (s.unitUse u).length → pickVictim (s.victims u) = some f →
        s.roomiest s.sidingUnits = some d → s.lowestFree d = some g →
        ∃ t, exec (.demotion u) s = .next t ∧ ∃ m ∈ t.moves, m.kind = .demotion ∧ some m.entry = f.entry ∧ teTier m.final = 1)
    ∧ (∀ (h : Fin 4) (request : Nat) (handle : BitVec 32), s.hostRings[h].entries.any (·.1 == request) = true → s.station.active ≠ none →
        (s.hostRings[h].entries.any (fun e => e.1 == request && e.2.1 == 0) = true →
          ∃ t, exec (.requestDone h request handle) s = .next t ∧ (∀ e ∈ (t.hostRings[h]).entries, e.1 ≠ request)
            ∧ ∀ g ∈ Config.suppliedFrames request, rangeOf (g * 65536) = .host → unitBase .host + unitFrames .host ≤ g → g ∈ t.hostPool.added)
        ∧ (s.hostRings[h].entries.any (fun e => e.1 == request && e.2.1 == 0) = false →
        exec (.requestDone h request handle) s = .next { s with
          hostRings := s.hostRings.set h.val { s.hostRings[h] with
            done := BitVec.ofNat 64 (request % 2 ^ 32 + handle.toNat * 2 ^ 32)
            entries := s.hostRings[h].entries.filter (·.1 != request) }
          moves := s.moves.map fun m => if m.id = request then { m with answer := some handle } else m }))
    ∧ (∀ (n : Nat) (m : Move), s.moves.find? (·.id == n) = some m → m.needsHost = false → m.answer = none → m.held = [] →
        teTier m.old ≠ 4 → teTier m.final ≠ 4 → s.frameNamed (teFrame m.old) = false → s.frameWaits (teFrame m.old) = false →
        Memory.wf s.mem = true → Sparse.risesFrom s.sealed none = true →
        ∃ t, exec (.moveComplete n) s = .next t ∧ (∀ k ∈ t.moves, k.id ≠ n) ∧ t.physWord m.entry = m.final
          ∧ (teFrame m.old ≠ teFrame m.final →
              m.entry + 8 ≤ 65536 * teFrame m.final ∨ 65536 * (teFrame m.final + 1) ≤ m.entry →
              ∀ i < 65536, Memory.byte t.mem (physKey s.panelId.toNat (65536 * teFrame m.final + i))
                = Memory.byte s.mem (physKey s.panelId.toNat (65536 * teFrame m.old + i))))
    ∧ exec .ageTick s = .next { s with juns := s.juns.map fun (j : Junction) =>
        { j with frames := j.frames.map fun u => { u with age := min 255 (u.age + 1) } } }

/-- R267, R312, R353, R355, R359-R361: the events of coherence, hosts and switches. An address outside the HBM4 range and the
control range is no address of a host's windows (log entry 96, DEDUCED); nothing is read or written under stabled (log entry 87, DEDUCED); what
a read returns stands in hostData, and a register is reached by its eight aligned bytes (log entry 112, DESIGN CHOICE); a request waits for
a line in recovery (log entries 89 and 92, DEDUCED); a switch's requests reach the home, and what panels return of a line comes
home, as log entry 148 says (DEDUCED). -/
def Sys2Proof.Claims.CoherenceEvents : Prop :=
  ∀ (s : State),
    (∀ (d : DieId) (line : Nat), s.dieServes d.val = true →
      (s.lineWaits line (some d.val) false = false →
        ∃ t, exec (.coherenceRequest (.die d) line false) s = .next t ∧ ∃ st, t.dies[d].lineState line = some st)
      ∧ (s.lineWaits line (some d.val) true = false →
        ∃ t, exec (.coherenceRequest (.die d) line true) s = .next t ∧ t.dies[d].lineState line = some .m))
    ∧ (∀ (asker : Requester) (line : Nat) (w : Bool), (∃ p ∈ s.pod.recovery, p.1 = line) →
        ∃ t, exec (.coherenceRequest asker line w) s = .next t ∧ ∀ d : DieId, t.dies[d].cache = s.dies[d].cache)
    ∧ (∀ (k line : Nat) (w : Bool), s.lineWaits line none w = false → s.hostBias line = false →
        dirFind (s.juns[s.homeOf line]).home line = none →
        ∃ t, exec (.coherenceRequest (.switch k) line w) s = .next t
          ∧ dirFind (t.juns[s.homeOf line]).home line = some ⟨line, .pod k true, [], 0⟩)
    ∧ (∀ (addr : Nat) (data : List Byte) (i j : Nat), rangeOf addr = .hbm i → rangeOf (addr + data.length - 1) = .hbm j →
        (s.timing.stabled = true ∨ s.agentWaits addr data.length = true → ∀ w, exec (.hostAccess addr w data) s = .next s)
        ∧ (s.timing.stabled = false → s.agentWaits addr data.length = false → s.moves = [] → Memory.wf s.mem = true →
            Sparse.risesFrom s.sealed none = true →
            (∃ t, exec (.hostAccess addr true data) s = .next t ∧ t.physRead addr data.length = data)
            ∧ ∃ t, exec (.hostAccess addr false data) s = .next t ∧ t.mem = s.mem ∧ t.hostData = s.physRead addr data.length))
    ∧ (∀ (addr : Nat) (data : List Byte), rangeOf addr = .control → rangeOf (addr + 7) = .control → data.length = 8 →
        exec (.hostAccess addr true data) s = .next (s.writeRegister addr (wordOfBytes data))
        ∧ (addr % 8 = 0 → exec (.hostAccess addr false data) s = .next { s with hostData := bytesOfWord (s.readRegister addr) }))
    ∧ (∀ (addr : Nat) (data : List Byte) (w : Bool), (∀ i, rangeOf addr ≠ .hbm i) → rangeOf addr ≠ .control →
        exec (.hostAccess addr w data) s = .fault (.noSuchAddress addr))
    ∧ (∀ (line : Nat), let home := (s.juns[s.homeOf line]).home
        (∀ k o sharers regions dirty, dirFind home line = some ⟨line, .pod k o, sharers, regions⟩ →
          ∃ t, exec (.switchRecall line dirty) s = .next t ∧ dirFind (t.juns[s.homeOf line]).home line = none
            ∧ (∀ d ∈ (⟨line, .pod k o, sharers, regions⟩ : DirEntry).dies, (t.dies[dieNo d]).lineState line = none)
            ∧ (Memory.wf s.mem = true → ∀ d, dirty = some d →
                Memory.read t.mem (physKey s.panelId.toNat (64 * line)) 64 = bytesOfNat d.data.toNat 64))
        ∧ ∀ dirty, (∀ k o, (dirFind home line).map (·.state) ≠ some (.pod k o)) → exec (.switchRecall line dirty) s = .next s)
    ∧ (∀ k, ∃ t, exec (.switchLoss k) s = .next t ∧ k ∈ t.pod.lost
        ∧ ∀ (j : JunId), ∀ e ∈ (s.juns[j]).home, (∃ o, e.state = .pod k o) → ∃ p ∈ t.pod.recovery, p.1 = e.line)
    ∧ (∀ (line : Nat) (o : Recovered), (∃ p ∈ s.pod.recovery, p.1 = line) →
        ∃ t, exec (.recoveryComplete line o) s = .next t ∧ (∀ p ∈ t.pod.recovery, p.1 ≠ line)
          ∧ (Memory.wf s.mem = true → s.waiting = [] → ∀ d, o.dirty = some d →
              Memory.read t.mem (physKey s.panelId.toNat (64 * line)) 64 = bytesOfNat d.data.toNat 64))
    ∧ ∀ a : PanelAnswers, ∃ t, exec (.panelAnswerTimeout a) s = .next t ∧ a.failed ∈ t.pod.failed

/-- R267, R279, R282, R283, R285, R312, R313, R353, R360, R361: translation, tiers, coherence, hosts and switches. -/
def Obligations.TierAndCoherenceEvents : Prop := Claims.TierEvents ∧ Claims.CoherenceEvents

/-! ## Energy, errors, the station -/

/-- R315-R320: a message that is refused is recorded with its reason and changes nothing else; one accepted for a later time is pending, one
accepted for now is in force; a pending timetable comes into force at its valid-from time, and its points move the target, each fall with a
record; ev.base keeps its value where a write is refused or ignored. Without an active station nothing is answered or accepted (R19). -/
def Obligations.TimetableEvents : Prop :=
  ∀ (s : State) (bs : List Byte) (a : Word),
    (s.station.active = none → ∀ i ∈ ([.timetableMessage bs, .ttSubmit a, .timetableInForce, .timetablePoint, .evBaseWrite a] : List Instr),
      exec i s = .next s)
    ∧ (s.station.active ≠ none →
    let record (seq : Word) (source result reason : Nat) : EventRecord :=
      ⟨s.time, seq, source, result, reason, 0, s.timing.target, 0, 0, 0, 0, 0, 0⟩
    let seq (bs : List Byte) : Word := BitVec.ofNat 64 (natOfBytes ((bs.drop 8).take 8))
    (∀ reason, s.refusal bs = some reason →
      exec (.timetableMessage bs) s = .next (s.postEvent (record (seq bs) 0 1 reason)))
    ∧ (s.time < (tableOf bs).first →
        ∃ t, exec (.timetableMessage bs) s = .next t ∧ t.timing.inForce = s.timing.inForce ∧ t.timing.target = s.timing.target
          ∧ match s.refusal bs with
            | none => t.timing.pending = some (tableOf bs) ∧ t.timing.sequence = seq bs
            | some _ => t.timing.pending = s.timing.pending ∧ t.timing.sequence = s.timing.sequence)
    ∧ (s.refusal bs = none → (tableOf bs).first ≤ s.time → (tableOf bs).hold = false → s.timing.target ≤ (tableOf bs).watts s.time →
        s.tasks = [] → s.timing.contactS = false → s.timing.contactH = false → s.timing.stabled = false →
        ∃ t, exec (.timetableMessage bs) s = .next t ∧ t.timing.inForce = some (tableOf bs) ∧ t.timing.pending = none
          ∧ t.timing.sequence = seq bs ∧ t.timing.target = (tableOf bs).watts s.time)
    ∧ (let at' := slice a.toNat 51 6 * 64
       let bs := s.physRead at' (64 + 16 * natOfBytes (s.physRead (at' + 2) 2) + 4627)
       s.refusal bs = none → s.time < (tableOf bs).first →
        ∃ t, exec (.ttSubmit a) s = .next t ∧ t.timing.submit = a &&& 0x000FFFFFFFFFFFC0 ∧ t.timing.pending = some (tableOf bs)
          ∧ t.timing.sequence = seq bs ∧ t.timing.inForce = s.timing.inForce)
    ∧ (let at' := slice a.toNat 51 6 * 64
       let points := natOfBytes (s.physRead (at' + 2) 2)
       ∀ reason, s.refusal (s.physRead at' (64 + 16 * points + 4627)) = some reason →
        ∃ t, exec (.ttSubmit a) s = .next t ∧ t.timing.submit = a &&& 0x000FFFFFFFFFFFC0 ∧ t.timing.pending = s.timing.pending
          ∧ t.timing.inForce = s.timing.inForce)
    ∧ (s.tasks = [] → s.timing.contactS = false → s.timing.contactH = false → s.timing.stabled = false →
        (∀ tt, s.timing.pending = some tt → tt.first ≤ s.time → tt.hold = false → s.timing.target ≤ tt.watts s.time →
          ∃ t, exec .timetableInForce s = .next t ∧ t.timing.inForce = some tt ∧ t.timing.pending = none ∧ t.timing.target = tt.watts s.time)
        ∧ (∀ tt, s.timing.inForce = some tt → tt.hold = false →
          ∃ t, exec .timetablePoint s = .next t ∧ t.timing.target = tt.watts s.time ∧ t.timing.inForce = some tt
            ∧ t.timing.evHead = s.timing.evHead + (if tt.watts s.time < s.timing.target ∨ tt.falls s.time = true then 1 else 0)))
    ∧ ∃ t, exec (.evBaseWrite a) s = .next t ∧ t.timing.evBase = (
        if a.toNat % 32 < 6 ∨ 12 < a.toNat % 32 then s.timing.evBase
        else if s.timing.evBase.getLsbD 63 = true ∧ (slice s.timing.evBase.toNat 51 12 ≠ slice a.toNat 51 12 ∨ s.timing.evBase.toNat % 32 ≠ a.toNat % 32)
          then s.timing.evBase
        else a &&& 0x800FFFFFFFFFF01F))

/-- R325, R327-R330: a contact counts when two samples agree; telemetry sets every region's power; a permit window grants the request
that waits alone, and none while the droop stretch is active; the droop alarm and its end; gating and ungating of a die. That a window
moves panel time to a multiple of 200 ns is log entry 147 (DEDUCED); which dies are gated and ungated, and their spacing, log entry 76
(DEDUCED). -/
def Obligations.PowerEvents : Prop :=
  ∀ (s : State) (g : RegionId),
    (∀ cs ch, s.timing.lastS ≠ cs → s.timing.lastH ≠ ch → s.station.active ≠ none →
      exec (.contactSample cs ch) s = .next { s with timing := { s.timing with lastS := cs, lastH := ch, sampleAt := s.time } })
    ∧ (∀ cs ch, s.timing.lastS = cs → s.timing.contactS ≠ cs → s.timing.lastH ≠ ch → s.station.active ≠ none → s.tasks = [] →
        ∃ t, exec (.contactSample cs ch) s = .next t ∧ t.timing.contactS = cs)
    ∧ (s.station.active = none → (∀ cs ch, exec (.contactSample cs ch) s = .next s) ∧ ∀ ws, exec (.telemetrySample ws) s = .next s)
    ∧ (∀ watts : List Nat, s.timing.unmet = [] → s.station.active ≠ none →
        ∃ t, exec (.telemetrySample watts) s = .next t
          ∧ (∀ i : Fin 16, (t.regions[i]).power = BitVec.ofNat 32 ((watts[i.val]?).getD 0))
          ∧ t.timing.samples.getLast? = some (watts.take 16).sum)
    ∧ (s.regions[g].droop = true → exec (.permitWindow g) s = .next { s with time := (s.time + 199) / 200 * 200 })
    ∧ (∀ q : PermitReq, s.regions[g].droop = false → s.regions[g].requests = [q] → q.time ≤ (s.time + 199) / 200 * 200 →
        s.regions[g].lastWindow ≠ some ((s.time + 199) / 200 * 200) →
        ∃ t, exec (.permitWindow g) s = .next t ∧ (t.bank q.row q.side).permit = .held q.cls ∧ (t.regions[g]).requests = [])
    ∧ (exec (.droopAlarm g) s = .next (({ s with
        regions := s.regions.set g.val { s.regions[g] with droop := true, droops := s.regions[g].droops + 1 } } : State).raise (512 + g.val)))
    ∧ (s.regions[g].requests = [] →
        exec (.droopStretchEnd g) s = .next { s with regions := s.regions.set g.val { s.regions[g] with droop := false } })
    ∧ (∀ d rest, s.regions[g].gateList.filter s.gateable = d :: rest →
        ((∀ t, s.regions[g].lastGate = some t → t + 250000 ≤ s.time) →
          ∃ t, exec (.dieGate g) s = .next t ∧ (t.dies[dieNo d]).gated = true ∧ (t.dies[dieNo d]).cache = []
            ∧ (t.regions[g]).lastGate = some s.time ∧ (t.regions[g]).gateList = rest)
        ∧ ∀ u, s.regions[g].lastGate = some u → s.time < u + 250000 →
          ∃ t, exec (.dieGate g) s = .next t ∧ t.dies = s.dies ∧ (u + 250000, .gateDies g) ∈ t.agenda)
    ∧ ∀ d : DieId, s.dieWanted d = true → s.dies[d].gated = true → s.timing.stabled = false →
        (∀ t, (s.regions[regionOf (64 * d.val)]).lastGate = some t → t + 300000 ≤ s.time) →
        ∃ t, exec (.dieUngate d) s = .next t ∧ t.dies[d].gated = false

/-- R363-R370, R380: links that wake and fail, dead dies, detected errors, the error ring's base, scrubbing, injection registers, alarms and
their policy. That a gated die's sleeping link stays so is log entry 92 (DEDUCED); which detections and scrubs an armed register forces, log
entry 85 (DEDUCED). -/
def Obligations.ErrorEvents : Prop :=
  ∀ (s : State) (d : DieId) (j : JunId) (v : Word),
    (s.dies[d].link j.val = .asleep ∨ s.dies[d].link j.val = .waking →
      (s.dies[d].link j.val = .waking ∨ s.dies[d].gated = false → ∃ t, exec (.linkWakeComplete d j) s = .next t ∧ (t.dies[d]).link j.val = .awake)
      ∧ ∃ t, exec (.linkWakeFail d j) s = .next t ∧ (t.dies[d]).link j.val = .failed ∧ t.vectors = s.vectors ++ [512 + d.val / 10])
    ∧ (s.dies[d].dead = false →
        (s.dieReached d = true → ∃ t, exec (.dieDead d) s = .next t ∧ t.dies[d].dead = true ∧ t.dies[d].cache = [])
        ∧ (s.dieReached d = false → exec (.dieDead d) s = .next s))
    ∧ (∀ e : ErrorReport, e.structureCode.val ≠ 0 → injMatches (s.injection e.place) e = false → s.errors.base.getLsbD 63 = false →
        (e.corrected = true → ∃ t, exec (.errorDetected e) s = .next t ∧ t.errors.count = s.errors.count + 1 ∧ t.mem = s.mem ∧ t.poison = s.poison)
        ∧ (e.corrected = false → e.structureCode.val = 9 →
            exec (.errorDetected e) s = .next ((s.postError ⟨1, 9, false, 0, e.place, e.address⟩).poisonLine e.address)))
    ∧ (s.station.active = none →
        ∀ i ∈ ([.rasBaseWrite v, .alarm .supply, .alarm .temp, .alarm .mesh, .alarmPolicyWrite v] : List Instr), exec i s = .next s)
    ∧ (s.station.active ≠ none → ∃ t, exec (.rasBaseWrite v) s = .next t ∧ t.errors.base = (
        if v.toNat % 32 < 6 ∨ 14 < v.toNat % 32 then s.errors.base
        else if s.errors.base.getLsbD 63 = true ∧ (slice s.errors.base.toNat 51 12 ≠ slice v.toNat 51 12 ∨ s.errors.base.toNat % 32 ≠ v.toNat % 32)
          then s.errors.base
        else v &&& 0x800FFFFFFFFFF01F))
    ∧ (injArmed (s.juns[j]).inject = false → ∃ t, exec (.scrubStep (.junction j) .clean) s = .next t
        ∧ (t.juns[j]).scrubPos = (if s.juns[j].scrubPos + 1 < 805306368 then s.juns[j].scrubPos + 1 else 0) ∧ t.mem = s.mem ∧ t.poison = s.poison)
    ∧ (let w := (s.juns[j]).inject
       let count := w.toNat / 2 ^ 40 % 256
       s.errors.base.getLsbD 63 = false → w.getLsbD 63 = true → 0 < count → w.toNat / 2 ^ 32 % 256 = 9 →
        ∃ t, exec (.scrubStep (.junction j) .uncorrectable) s = .next t ∧ t.poison = s.poison ∧ t.errors.head = s.errors.head + (if w.getLsbD 62 then 1 else
            (if (s.errors.last.find? (·.1 == errorKey 9 (.junction j))).any (fun p => s.time < p.2.1 + 1000000) then 0 else 1))
          ∧ (t.juns[j]).inject.toNat / 2 ^ 40 % 256 = count - 1 ∧ (t.juns[j]).inject.getLsbD 63 = decide (count ≠ 1))
    ∧ (s.errors.base.getLsbD 63 = false → injArmed (s.juns[j]).inject = false →
        ∃ t, exec (.scrubStep (.junction j) .uncorrectable) s = .next t
        ∧ physKey s.panelId.toNat (j.val * 0x1000000000 + 64 * s.juns[j].scrubPos) / 64 ∈ t.poison)
    ∧ (s.station.life ≠ .scrapped →
        (∃ t, exec (.injectionArm (.die d) v) s = .next t ∧ t.dies[d].inject = v &&& 0xC000FFFF3F0000FF)
        ∧ ∃ t, exec (.injectionArm (.junction j) v) s = .next t ∧ t.juns[j].inject = v &&& 0xC000FFFF3F0000FF)
    ∧ (s.station.life = .scrapped → exec (.injectionArm (.die d) v) s = .next s ∧ exec (.injectionArm (.junction j) v) s = .next s)
    ∧ (s.station.active ≠ none → ∀ a : AlarmSource, let shift := match a with | .supply => 0 | .temp => 2 | .mesh => 4
        let policy := s.station.alarms.toNat / 2 ^ shift % 4
        (policy = 0 → ∃ t, exec (.alarm a) s = .next t ∧ t.slots = s.slots)
        ∧ (policy ≠ 0 → ∃ t, exec (.alarm a) s = .next t ∧ ∀ n : Fin 64, t.slots[n].key = none ∧ t.slots[n].epoch = s.slots[n].epoch + 1))
    ∧ (s.station.active ≠ none → ∃ t, exec (.alarmPolicyWrite v) s = .next t ∧ t.station.alarms = (
        let f (w : Word) (i : Nat) : Nat := w.toNat / 2 ^ (2 * i) % 4
        if f v 0 = 3 ∨ f v 1 = 3 ∨ f v 2 = 3 then s.station.alarms
        else if s.station.life = .deployed ∧ ∃ i < 3, f v i < f s.station.alarms i ∨ f v i = 0 then s.station.alarms
        else v &&& 0x3F))

/-- R373-R378: a panel reset leaves no key usable, nothing outstanding, no launch, task or block, the timetable unit, worlds and %wgen as after
reset, the lowest station that passed its test active, the named dies and junctions excluded and all of this panel's HBM4 and LPDDR-6
zero; it boots where every component has a verified image, and what it lacks is posted; the measurement covers what the station then runs;
the life cycle and the least security version stay, and memory elsewhere reads as it did to an agent that names no tensor (log entry 86,
DEDUCED). -/
def Obligations.PanelReset : Prop :=
  ∀ (s : State) (stations : BitVec 4) (images : List (List Byte)) (dies : List DieId) (juns : List JunId) (edges : List (Fin 72)),
    ∃ t, exec (.panelReset stations images dies juns edges) s = .next t
      ∧ (∀ n : Fin 64, t.slots[n].key = none) ∧ t.pend = [] ∧ t.launches = [] ∧ t.tasks = [] ∧ t.worlds = State.reset.worlds
      ∧ t.wgen = State.reset.wgen ∧ t.timing = State.reset.timing ∧ t.panelId = s.panelId ∧ t.time = s.time
      ∧ t.station.life = s.station.life ∧ t.station.minVersion = s.station.minVersion ∧ t.station.heartbeat = s.time
      ∧ t.station.active = (List.finRange 4).find? (fun i => stations.getLsbD i.val)
      ∧ (∀ c, c ∈ t.station.lacking ↔ c < 5 ∧ ∀ im ∈ images, s.imageOk (Config.firmwarePart c im) = false)
      ∧ (t.station.booted = true ↔ t.station.lacking = [] ∧ s.station.life ≠ .scrapped ∧ stations ≠ 0)
      ∧ t.station.bootDigest = t.measureBoot
      ∧ (∀ d : DieId, t.dies[d].excluded = dies.contains d) ∧ (∀ j : JunId, t.juns[j].excluded = juns.contains j)
      ∧ (∀ n, (t.bank n .a).phase = .empty ∧ (t.bank n .b).phase = .empty)
      ∧ (Memory.wf s.mem = true → Sparse.risesFrom s.sealed none = true → ∀ a, a < 2 ^ 52 →
          [Memory.byte t.mem (physKey s.panelId.toNat a)] =
            match rangeOf a with
            | .hbm _ | .siding _ => [0]
            | _ => s.physRead a 1)

/-- R374, R375: the station's heartbeat, and a takeover where none has come for 10 ms: no station is active until the spare is ready, within
200 ms (log entry 127, DEDUCED), and the spare boots only with every image verified. -/
def Sys2Proof.Claims.Takeover : Prop :=
  ∀ (s : State),
    (s.station.active ≠ none → exec .heartbeat s = .next { s with station := { s.station with heartbeat := s.time } })
    ∧ (s.station.active = none → exec .heartbeat s = .next s)
    ∧ (∀ x : Spares, s.station.heartbeat + 10000000 ≤ s.time → s.station.standby = none →
        ∃ t, exec (.stationTakeover x) s = .next t ∧ t.station.healthy = x.healthy ∧ t.station.active = none
          ∧ t.station.lacking = s.bootLacks x.images
          ∧ (∀ n : Fin 4, t.station.standby = some n → x.healthy.getLsbD n.val = true ∧ s.station.active ≠ some n
              ∧ s.bootLacks x.images = [] ∧ (s.time + 200000000, .stationReady) ∈ t.agenda))
    ∧ ∀ (n : Fin 4) (rest : List (Nat × Deed)), s.agenda = (s.time, .stationReady) :: rest → s.station.standby = some n →
        ∃ t, step s = .next t ∧ t.station.active = some n ∧ t.station.standby = none ∧ t.timing.inForce = s.timing.inForce

/-- R383-R390: worlds, the mailbox commands, key revocation, firmware staging. That a life-cycle change is signed over the code of its goal is
log entry 130 (DESIGN CHOICE), that the launches of before it are gone log entry 86 (DEDUCED), that firmware is activated with no word of
the open world log entry 129 (DESIGN CHOICE). -/
def Sys2Proof.Claims.StationWork : Prop :=
  ∀ (s : State) (session : BitVec 32) (a : Word), s.station.active ≠ none →
    let m := s.station.mailbox
    (∀ (w : Byte) (rows : Nat) (slots : Word), w ≠ 0 → (∀ k ∈ s.worlds, k.id ≠ w ∧ k.slots &&& slots = 0) → s.station.life = .deployed →
        exec (.worldCreate w rows slots) s = .next { s with
          nextId := s.nextId + 1
          worlds := s.worlds ++ [⟨w, rows, slots, 0, false, some (Config.releaseKey s.nextId)⟩] })
    ∧ (∀ (w : Byte) (k : World), w ≠ 0 → s.worlds.find? (·.id == w) = some k →
        ∃ t, exec (.worldDestroy w) s = .next t ∧ (∀ k ∈ t.worlds, k.id ≠ w)
          ∧ ∀ n : Fin 64, k.slots.getLsbD n.val = true → t.slots[n].key = none)
    ∧ (m.fwState ≠ 2 →
        (∃ t, exec (.measure session a) s = .next t ∧ t.station.mailbox.status = 0 ∧ t.station.mailbox.command = 1 ∧ 530 ∈ t.vectors)
        ∧ ∃ t, exec (.attest session a) s = .next t ∧ t.station.mailbox.command = 2 ∧ 530 ∈ t.vectors
            ∧ t.station.mailbox.status =
              (if s.station.identity = true ∧ s.worlds.any (·.id == Config.sessionWorld session) = true then 0 else 2))
    ∧ (let block := s.physRead (slice a.toNat 51 6 * 64) Config.requestLength
       let n : Fin 64 := ⟨Config.requestField 3 0 block % 64, Nat.mod_lt _ (by decide)⟩
       let world := s.worlds.find? (·.id == Config.sessionWorld session)
       ∃ t, exec (.releaseKey session a) s = .next t ∧
         match world, (world.bind (·.release)).bind fun key => Config.mlkemUnwrap key (Config.requestBytes 3 2 block) with
         | some w, some k =>
           if w.slots.getLsbD n.val = true ∧ s.slots[n].key = none ∧ w.measurement = BitVec.ofNat 512 (Config.requestField 3 1 block)
               ∧ s.station.life = .deployed
             then t.slots = s.slots.set n.val { s.slots[n] with key := some k } ∧ t.station.mailbox.status = 0
             else t.slots = s.slots ∧ t.station.mailbox.status = 2
         | _, _ => t.slots = s.slots ∧ t.station.mailbox.status = 2)
    ∧ (let digest := BitVec.ofNat 512 (Config.requestField 4 0 (s.physRead (slice a.toNat 51 6 * 64) Config.requestLength))
       ∃ t, exec (.acknowledge session a) s = .next t ∧
         if s.station.staged.any (·.digest == digest) = true ∧ s.worlds.any (·.id == Config.sessionWorld session) = true
           then t.station.mailbox.status = 0 ∧ ∀ w ∈ t.worlds, w.id = Config.sessionWorld session → w.acked = true
           else t.station.mailbox.status = 2 ∧ t.worlds = s.worlds)
    ∧ (let block := s.physRead (slice a.toNat 51 6 * 64) Config.requestLength
       ∃ t, exec (.lifeCycle session a) s = .next t ∧
         match lifeOf (Config.requestField 5 0 block) with
         | some goal =>
           if ∃ k ∈ s.lifeKeys goal, fusedVerify k (sha3 [BitVec.ofNat 8 (lifeCode goal)]) (Config.requestBytes 5 1 block) = true
             then t.station.life = goal ∧ t.station.mailbox.status = 0 ∧ (∀ n : Fin 64, t.slots[n] = ⟨none, 0⟩) ∧ t.launches = []
               ∧ t.timing.inForce = none ∧ t.timing.pending = none ∧ t.timing.sequence = 0 ∧ t.station.staged = none
               ∧ (goal = .scrapped → t.station.vendor = 0 ∧ t.station.facility = 0 ∧ t.station.owner = 0 ∧ t.station.identity = false)
             else t.station.life = s.station.life ∧ t.station.mailbox.status = 2 ∧ t.slots = s.slots
         | none => t.station.life = s.station.life ∧ t.station.mailbox.status = 2 ∧ t.slots = s.slots)
    ∧ (s.station.keyStatus.getLsbD 0 = false → a.getLsbD 63 = true →
        ∃ t, exec (.keyRevoke a) s = .next t ∧ t.station.keyStatus.getLsbD 0 = true ∧ t.station.keyRevoke = a &&& 0x3F
          ∧ ∀ q ∈ t.pend, ∀ n b c d e f g h i j, q.op = .cipher n b c d e f g h i j → g.val ≠ a.toNat % 64)
    ∧ (s.station.keyStatus.getLsbD 0 = true →
        ∃ t n, exec .revocationComplete s = .next t ∧ n = (⟨s.station.keyStatus.toNat / 4 % 64, Nat.mod_lt _ (by decide)⟩ : Fin 64)
          ∧ t.slots[n].key = none ∧ t.slots[n].epoch = s.slots[n].epoch + 1 ∧ t.station.keyStatus.getLsbD 0 = false
          ∧ t.station.keyStatus.getLsbD 1 = true)
    ∧ (let image := s.physRead (slice a.toNat 51 6 * 64) Config.firmwareLength
       ∃ t, exec (.fwStage a) s = .next t ∧
         if fusedVerify s.station.vendor (sha3 image) (Config.firmwareSignature image) = true
             ∧ s.station.minVersion ≤ Config.firmwareVersion image ∧ m.fwState ≠ 2
           then t.station.staged = some (readFirmware image) ∧ t.station.stagedAt = s.time
             ∧ t.station.mailbox.fwState = 1 ∧ ∀ w ∈ t.worlds, w.acked = false
           else t.station.staged = s.station.staged ∧ t.station.mailbox.fwState = m.fwState ∧ t.worlds = s.worlds)
    ∧ (m.fwState = 1 → (∀ w ∈ s.worlds, w.acked = true ∨ s.inRun w = false ∨ w.id = 0) →
        (∃ t, exec .fwActivate s = .next t ∧ t.station.mailbox.fwState = 2 ∧ (s.time + 500000, .commitFirmware) ∈ t.agenda)
        ∧ exec .stagingLapse s = .next s)
    ∧ (m.fwState = 1 → (∃ w ∈ s.worlds, w.acked = false ∧ s.inRun w = true ∧ w.id ≠ 0) →
        exec .fwActivate s = .next s
        ∧ (s.station.stagedAt + m.window * 1000000000 ≤ s.time →
            ∃ t, exec .stagingLapse s = .next t ∧ t.station.staged = none ∧ t.station.mailbox.fwState = 0))

/-- R19: without an active station no request to it is answered. -/
def Sys2Proof.Claims.StationSilent : Prop :=
  ∀ (s : State) (session : BitVec 32) (a : Word) (w : Byte) (rows : Nat) (slots : Word), s.station.active = none →
    ∀ i ∈ ([.worldCreate w rows slots, .worldDestroy w, .measure session a, .attest session a, .releaseKey session a,
        .acknowledge session a, .lifeCycle session a, .keyRevoke a, .revocationComplete, .fwStage a, .fwActivate, .stagingLapse] : List Instr),
      exec i s = .next s

/-- R19, R374, R375, R379, R383-R390: the station's heartbeat and takeover, worlds, the mailbox commands, key revocation, firmware staging; what
of them rests on log entries 86, 127, 129 and 130 the claims say. -/
def Obligations.StationEvents : Prop := Claims.Takeover ∧ Claims.StationWork ∧ Claims.StationSilent

/-- R216, R219: a driver's write reaches the register its address names: a governor's droop budget and charges, %barsel, a queue's ring base
and doorbell, an injection register, tt.limit; a write outside the control range, or one that is not 8-byte aligned (log entry 112, DESIGN
CHOICE), changes nothing, nor does one to the station's block while no station is active (R19). -/
def Obligations.RegisterWrites : Prop :=
  ∀ (s : State) (v : Word) (g : RegionId) (i : Fin 10) (thread : Fin 32) (ring : Fin 8),
    let base := 0x200000000000 + 0x8000000 * g.val
    let q : QueueId := ⟨32 * g.val + thread.val, by omega⟩
    exec (.registerWrite base v) s = .next (s.modRegion g fun k => { k with istep := v.setWidth 16 })
    ∧ exec (.registerWrite (base + 8) v) s = .next (s.modRegion g fun k => { k with chgLo := v })
    ∧ exec (.registerWrite (base + 16) v) s = .next (s.modRegion g fun k => { k with chgHi := v })
    ∧ (v.toNat % 16 ≤ 9 → exec (.registerWrite (base + 0x200000) v) s = .next (s.modRegion g fun k => { k with barsel := v.setWidth 8 }))
    ∧ exec (.registerWrite (base + 0x100000 + 0x1000 * thread.val + 0x40 * ring.val) v) s = exec (.ringBaseWrite q ring v) s
    ∧ exec (.registerWrite (base + 0x100000 + 0x1000 * thread.val + 0x40 * ring.val + 16) v) s = exec (.ringDoorbell q ring (v.setWidth 32)) s
    ∧ exec (.registerWrite (base + 0x1080000 + 0x100000 * i.val) v) s = exec (.injectionArm (.die (dieNo (10 * g.val + i.val))) v) s
    ∧ (s.timing.contactS = false → s.tableTarget = s.timing.target → s.timing.stabled = false → s.station.active ≠ none →
        exec (.registerWrite 0x200080000030 v) s = .next { s with timing := { s.timing with limit := v.setWidth 32 } })
    ∧ (s.timing.contactS = true → s.tasks = [] → s.timing.stabled = false → s.station.active ≠ none →
        ∃ t, exec (.registerWrite 0x200080000030 v) s = .next t ∧ t.timing.limit = v.setWidth 32
          ∧ t.timing.target = min s.tableTarget (v.setWidth 32).toNat)
    ∧ (s.station.active = none → ∀ a, 0x200080000000 ≤ a → exec (.registerWrite a v) s = .next s)
    ∧ ∀ a, a < 0x200000000000 ∨ a % 8 ≠ 0 ∨ 0x2000C0000000 ≤ a → exec (.registerWrite a v) s = .next s

/-! ## What every state of a run keeps -/

/-- R26, R378 and the reset rules of each chapter: what the panel holds right after reset. That the local stores and the memory of no wiped
range read 0 where nothing is listed is the model's choice (log entry 4). -/
def Obligations.ResetValues : Prop :=
  (∀ a, Memory.byte State.reset.mem a = 0)
  ∧ (∀ n, let r := State.reset.row n
      r.a.phase = .empty ∧ r.b.phase = .empty ∧ r.a.pc = 0 ∧ r.a.fmt = 0x007F7F00 ∧ (∀ k : Fin 16, r.a.k[k] = 0)
      ∧ ∀ c : Fin 64, let k := r.cores[c]
          (∀ i : Fin 32, k.a.sget i = 0 ∧ k.a.v[i] = 0) ∧ (∀ i : Fin 8, k.a.qget i = if i = 0 then BitVec.allOnes 128 else 0)
          ∧ (∀ i : Fin 8, k.owner[i] = none ∧ k.tiles[i] = 0 ∧ k.a.reel[i] = 0 ∧ k.a.tl[i] = 0) ∧ k.a.nflags = 0
          ∧ ∀ i, Memory.byte k.ls i = 0)
  ∧ State.reset.wgen = 0 ∧ State.reset.timing.target = 48000 ∧ State.reset.timing.limit = 14400
  ∧ (∀ g : Fin 16, State.reset.regions[g].level = 7) ∧ (∀ n : Fin 64, State.reset.slots[n].key = none)

/-- Every step keeps memory in its canonical form, which is the model's (log entry 4): no byte is listed twice, out of order, or at the value
an unlisted one reads as. -/
def Sys2Proof.Claims.PanelMemoryKept : Prop := ∀ s t : State, s.MemoryWf → step s = .next t → t.MemoryWf

/-- Every step keeps every local store in that form, and the ids of operations outstanding below the next to be given. -/
def Sys2Proof.Claims.LocalStoresKept : Prop :=
  ∀ s t : State, s.LocalWf → s.IdsFresh → step s = .next t → t.LocalWf ∧ t.IdsFresh

/-- Every step keeps memory and every local store in the canonical form, which is the model's (log entry 4), and ids fresh. -/
def Obligations.MemoryKept : Prop := Claims.PanelMemoryKept ∧ Claims.LocalStoresKept

/-- Memory and the local stores are in their canonical form right after reset (log entry 4), with nothing outstanding. -/
def Obligations.MemoryAtReset : Prop := State.reset.MemoryWf ∧ State.reset.LocalWf ∧ State.reset.IdsFresh
end

