-- ==== Sys2Proof/Tests/Slice0.lean ====
section
/-! SUPPORT. Tests: the words and values of the spec's worked examples, an ill-formed instruction for each check of WellFormed, and for
each statement of Certificates/Slice0/Obligations.lean a state and operands that meet its hypotheses together. -/

set_option exponentiation.threshold 1100
set_option maxRecDepth 60000

namespace Sys2Proof.Tests
open Sys2Proof Sys2Proof.Machine

/-! ## Small states -/

/-- A calm bank: row 0 after reset with add s0, s0, s0 where it fetches. -/
def calm : State := State.reset.withFetchWord 32 0
/-- The calm bank with its sequencer's part changed. -/
def bank (f : Bank → Bank) : State := calm.modBank 0 .a f
/-- The calm bank with each core changed. -/
def cores (f : Fin 64 → Core → Core) : State := calm.modRow 0 (·.mapCores f)
/-- The calm bank with each core's part changed. -/
def parts (f : CoreBank → CoreBank) : State := cores fun _ k => { k with a := f k.a }
/-- Scalar registers s1 and s2 of every core. -/
def scalars (x y : Word) : State := parts fun b => { b with s := (b.s.set 1 x).set 2 y }
/-- A load-address queue of three scalar and three vector entries with data, in every core. -/
def queues : State :=
  parts fun b => { b with loads := (List.range 6).map fun i => ⟨i, i % 2 == 1, some (BitVec.ofNat 1024 (i + 1)), false, false, 0, 0⟩ }
/-- A calm bank that enters its handler on a trap, with the privileges given. -/
def trapping (p : BitVec 4) : State := bank fun b => { b with trapvec := 0x8005, sysperm := p }
/-- A window of 24,576 bytes. -/
def windowed (f : CoreBank → CoreBank) : State :=
  (parts f).modBank 0 .a fun b => { b with lswin := 0x6000, trapvec := 0x8005 }
/-- What exec answers, looked at. -/
def after {α : Type} (o : Host.Outcome State Fault Refusal) (d : α) (f : State → α) : α :=
  match o with
  | .next t => f t
  | _ => d
/-- Whether exec answers a next state. -/
def goesOn (o : Host.Outcome State Fault Refusal) : Bool := after o false fun _ => true

/-! ## Words the spec writes out -/

/-- Chapter 3's encoding table. -/
theorem test_word_add : decodeSyl 0x00061100#32 = .ok (.add .a 3 1 2 0) := by decide
/-- R123. -/
theorem test_word_li : decodeSyl 0x8BCA091A#32 = .ok (.li .a 5 0x91A#17) := by decide
/-- R123. -/
theorem test_word_lui : decodeSyl 0x8C0A5678#32 = .ok (.lui .a 5 0x5678#17) := by decide
/-- R126. -/
theorem test_word_chk : decodeSyl 0x08003102#32 = .ok (.chk .a 3 2 0 .lt) := by decide
/-- R126, on SB. -/
theorem test_word_addi : decodeSyl 0x9A0E7001#32 = .ok (.addi .b 7 7 1#12) := by decide
/-- Chapter 3's encoding table. -/
theorem test_word_vfadd : decodeSyl 0x35085304#32 = .ok (.vfadd .a 4 5 6 0 .w512 .f32) := by decide
/-- R141, on VB. -/
theorem test_word_vcvt : decodeSyl 0xCB0E22B4#32 = .ok (.vcvt .b 7 2 5 3 .w512 .rne) := by decide
/-- R187. -/
theorem test_word_atom : decodeSyl 0xA40042B4#32 = .ok (.atomAdd 4 5 .die true .i32) := by decide
/-- Chapter 7's example. -/
theorem test_word_tcfg : decodeSyl 0x510002FF#32 = .ok (.tcfg 0 .i32 15 15) := by decide
/-- Chapter 7's example. -/
theorem test_word_mman : decodeSyl 0xD0C01A02#32 = .ok (.mmaN 0 false false 1 true 2 2) := by decide
/-- Chapter 7's example. -/
theorem test_word_tcolr : decodeSyl 0xD2440000#32 = .ok (.tcolR 2 0 0 0 false) := by decide
/-- R206. -/
theorem test_word_cpyin : decodeSyl 0xE0061107#32 = .ok (.cpyIn 3 1 2 0 7) := by decide
/-- Chapter 3's encoding table. -/
theorem test_word_kaddi : decodeSyl 0xF1042001#32 = .ok (.kaddi 2 2 1#12) := by decide
/-- Chapter 4's example. -/
theorem test_word_loop : decodeSyl 0xF6420000#32 = .ok (.loop 1 0) := by decide
/-- R206. -/
theorem test_word_wait : decodeSyl 0xF7401000#32 = .ok (.wait 0 1) := by decide
/-- R74: an opcode no row of SA's table has. -/
theorem test_word_illegal : (decodeSyl 0x0FC00000#32).toOption = none := by decide

/-! ## WellFormed: an ill-formed instruction for each check -/

theorem test_event_is_no_syllable : (Instr.heartbeat).isSyllable = false ∧ encodeSyl true .heartbeat = none := by decide
theorem test_illformed_control_registers : [Instr.mfs .a 1 .loopDepth, .kget 1 .rankCore, .kset 1 .chk, .mtcr 1 .rankCore,
    .mfcr 1 (.tl 0)].all (fun i => !i.wellFormed) = true := by decide
theorem test_illformed_predicates : [Instr.vcmp .a 0 1 2 .eq .w256 .i8, .vfcmp .a 0 1 2 .eq .w256 .f32, .qand .a 0 1 2 .w256,
    .qor .a 0 1 2 .w256, .qxor .a 0 1 2 .w256, .qnot .a 0 1 .w256].all (fun i => !i.wellFormed) = true := by decide
theorem test_illformed_scopes : [Instr.atomAdd 1 2 .lane false .i32, .atomMin 1 2 .lane false .i32, .atomMax 1 2 .lane false .i32,
    .atomAnd 1 2 .lane false .i32, .atomOr 1 2 .lane false .i32, .atomXor 1 2 .lane false .i32, .atomSwap 1 2 .lane false .i32,
    .atomCas 1 2 3 .lane false .i32, .arrive 1 2 .lane false, .waitp 1 2 3 .lane, .acq 1 .lane false, .rel 1 .lane false,
    .red 1 2 3 .i32 .quad, .bar 1 .system, .fence .lane].all (fun i => !i.wellFormed) = true := by decide
theorem test_illformed_float_logic : [Instr.atomAnd 1 2 .row false .f32, .atomOr 1 2 .row false .f32, .atomXor 1 2 .row false .f32].all
    (fun i => !i.wellFormed) = true := by decide
theorem test_illformed_reels : [Instr.mma 0 3 3 false false, .mmaZ 0 3 3 false false, .mmaSat 0 3 3 false false,
    .mmaN 0 false false 3 false 3 0].all (fun i => !i.wellFormed) = true := by decide
theorem test_illformed_counts : [Instr.nop 0, .loopImmediate 0 3].all (fun i => !i.wellFormed) = true := by decide
theorem test_illformed_rounding : (Instr.vcvt .a 1 2 0 0 .w256 .rz).wellFormed = false := by decide

/-! ## Values the spec writes out -/

/-- Scalar register 3 of core 5 after a step. -/
def s3 (i : Instr) (s : State) : Word := after (exec i s) 0 fun t => (t.partHere 5).s[3]
/-- The result a step puts in flight in core 5 for scalar register 3. -/
def fly3 (i : Instr) (s : State) : Word :=
  after (exec i s) 0 fun t => match (t.partHere 5).flights with
    | [f] => match f.dest with
      | .s _ x => x
      | _ => 0
    | _ => 0
/-- The vector result a step puts in flight in core 5, and its flags. -/
def flyV (i : Instr) (s : State) : Vec × Pred × Flags :=
  after (exec i s) (0, 0, 0) fun t => match (t.partHere 5).flights with
    | [f] => match f.dest with
      | .v _ x m => (x, m, f.flags)
      | _ => (0, 0, 0)
    | _ => (0, 0, 0)

theorem test_add_wraps : s3 (.add .a 3 1 2 0) (scalars 0xFFFFFFFFFFFFFFFF 2) = 1 := by decide
theorem test_lui_shifts : s3 (.lui .a 3 0x5678) (parts fun b => { b with s := b.s.set 3 0x91A }) = 0x12345678 := by decide
/-- The division table of R120's example. -/
theorem test_division_table :
    fly3 (.div .a 3 1 2 0) (scalars 0xFFFFFFFFFFFFFFF9 2) = 0xFFFFFFFFFFFFFFFD
    ∧ fly3 (.rem .a 3 1 2 0) (scalars 0xFFFFFFFFFFFFFFF9 2) = 0xFFFFFFFFFFFFFFFF
    ∧ fly3 (.divn .a 3 1 2 0) (scalars 0xFFFFFFFFFFFFFFF9 2) = 0x7FFFFFFFFFFFFFFC
    ∧ fly3 (.remn .a 3 1 2 0) (scalars 0xFFFFFFFFFFFFFFF9 2) = 1
    ∧ fly3 (.div .a 3 1 2 0) (scalars 5 0) = 0xFFFFFFFFFFFFFFFF ∧ fly3 (.rem .a 3 1 2 0) (scalars 5 0) = 5
    ∧ fly3 (.div .a 3 1 2 0) (scalars 0x8000000000000000 0xFFFFFFFFFFFFFFFF) = 0x8000000000000000
    ∧ fly3 (.rem .a 3 1 2 0) (scalars 0x8000000000000000 0xFFFFFFFFFFFFFFFF) = 0 := by decide
/-- The products of the same table. -/
theorem test_product_table :
    fly3 (.mul .a 3 1 2 0) (scalars 0xFFFFFFFFFFFFFFF9 6) = 0xFFFFFFFFFFFFFFD6
    ∧ fly3 (.mulh .a 3 1 2 0) (scalars 0xFFFFFFFFFFFFFFF9 6) = 0xFFFFFFFFFFFFFFFF
    ∧ fly3 (.mulhn .a 3 1 2 0) (scalars 0xFFFFFFFFFFFFFFF9 6) = 5 := by decide
/-- R147's example, fp32 elements 2^24, 1, 1, 1, -2^24, 1, 1, 1: what vred and vscan deliver, with nx. -/
def summands : State := parts fun b => { b with v := b.v.set 5 0x3F8000003F8000003F800000CB8000003F8000003F8000003F8000004B800000 }
theorem test_vred_order : flyV (.vred .a 6 5 (.fadd .f32) 0 .w256) summands
    = (0x40A0000040A0000040A0000040A0000040A0000040A0000040A0000040A00000, 0xFFFFFFFF, 8) := by decide
theorem test_vscan_order : flyV (.vscan .a 8 5 (.fadd .f32) 0 .w256) summands
    = (0x40A0000040A0000040400000404000004B8000014B8000014B8000004B800000, 0xFFFFFFFF, 8) := by decide
/-- R141's example, on VB under q3: bytes 64 to 79, with sat and nx. -/
def narrowed : State := parts fun b => { b with
  v := b.v.set 2 ((0x3F8000003F8000003F8000003F8000003F8000003F8000003F8000003F8000003F8000003F8000003F8000003F8000003F800000C00000003DCCCCCD43FA0000 : Vec) <<< 512)
  q := b.q.set 3 ((0xFFFB : Pred) <<< 64) }
theorem test_vcvt_saturates : (let r := flyV (.vcvt .b 7 2 5 3 .w512 .rne) narrowed
    ((r.1 >>> 512).setWidth 16, (r.1 >>> 536).setWidth 8, r.2)) = ((0x1D7E : BitVec 16), (0x38 : Byte), (0xFFFB : Pred) <<< 64, (0x28 : Flags)) := by decide
/-- R93: kaddi k2, k2, 1 wraps. -/
theorem test_kaddi_wraps : after (α := Word) (exec (.kaddi 2 2 1) (bank fun b => { b with k := b.k.set 2 0xFFFFFFFFFFFFFFFF })) 1 (fun t => t.here.k[2]) = 0 := by
  decide
/-- R98: call pushes the next bundle and branches. -/
theorem test_call_pushes : after (α := List (BitVec 15) × BitVec 15) (exec (.call 9) calm) ([], 0) (fun t => (t.here.calls, t.here.pc)) = ([1], 9) := by decide
/-- R118: a shift by 65 uses bits 5:0 of the count. -/
theorem test_shr_count : s3 (.shr .a 3 1 2 0) (scalars 8 65) = 4 := by decide
/-- R231, R233: trap 7 at syllable 0, trap entry 5: word 0 of the record, %bank bit 4, and the handler's address. -/
theorem test_trap_entry : after (α := Word × Bool × BitVec 15) (exec (.trap 7) (trapping 0)) (0, false, 0) (fun t => (t.here.trapRec[0], t.here.handler, t.here.pc))
    = (0x0007000700000070, true, 5) := by decide
/-- R25, R62: s0 holds nothing written to it. -/
theorem test_s0_discards : after (α := Word) (exec (.li .a 0 5) calm) 1 (fun t => (t.partHere 0).s[0]) = 0 := by decide

/-- The table of R55's example: fp32 to e4m3, saturating and not, rounded to nearest and toward zero. -/
theorem test_convert_table :
    fConvert .e4m3 .rne true .fp32 0x43FA0000 = (0x7E, Flags.sat ||| Flags.nx) ∧ fConvert .e4m3 .rne false .fp32 0x43FA0000 = (0x7F, Flags.of ||| Flags.nx)
    ∧ fConvert .e4m3 .rne true .fp32 0x3DCCCCCD = (0x1D, Flags.nx) ∧ fConvert .e4m3 .rz true .fp32 0x3DCCCCCD = (0x1C, Flags.nx)
    ∧ fConvert .e4m3 .rne true .fp32 0x3A83126F = (0x01, Flags.uf ||| Flags.nx) ∧ fConvert .e4m3 .rz true .fp32 0x3A83126F = (0x00, Flags.uf ||| Flags.nx) := by
  decide
/-- R50's example: the bf16 truncation decides the element, and nx. -/
theorem test_mma_truncates : mmaElement .bf16 0 0xBF800000 ([0x3F80, 0x3580, 0].map Fmt.bf16.value) ([0x3F80, 0x35C0, 0].map Fmt.bf16.value)
    = (0x2B800000, Flags.nx) := by decide
/-- R41's example: X = 9, the bytes 0x35, 0x8B, 0x18 and 0x88. -/
theorem test_q4x_bytes : [0x35, 0x8B, 0x18, 0x88].map (fun b => q4xPair b 9) =
    [(.fin false 5 0, .fin false 3 0, false), (.fin false 0 0, .fin true 11 (-1), false), (.fin false 9 (-1), .fin false 0 0, false),
      (.fin false 0 0, .fin false 0 0, true)] := by decide

/-! ## States and operands that meet each statement's hypotheses -/

/-- A finite number, an infinity, a quiet and a signalling NaN of fp32, and a zero; formats of each class of an mma. -/
theorem test_hyp_FloatingValues : 0x3F800000 < 2 ^ Fmt.fp32.width ∧ 0x3F800000 % 2 ^ 31 ≤ Fmt.fp32.maxFinite ∧ 0x7F800000 % 2 ^ 31 = Fmt.fp32.maxFinite + 1
    ∧ Fmt.fp32.maxFinite + 1 < 0x7FC00000 % 2 ^ 31 ∧ Fmt.fp32.maxFinite + 1 < 0xFF800001 % 2 ^ 31 ∧ Nat.testBit 0xFF800001 22 = false
    ∧ 0x80000000 % 2 ^ 31 = 0 := by decide
/-- Two is 2^1, the value 1 is the integer 1, and 2^1 is the value of an encoding. -/
theorem test_hyp_FloatingValues_powers : (2 : ℚ) ^ ((128 : ℤ) - 127) * (1 + ((0x40000000 % 2 ^ 23 : Nat) : ℚ) / 2 ^ 23) = 2 ^ (1 : ℤ)
    ∧ (2 : ℚ) ^ ((127 : ℤ) - 127) * (1 + ((0x3F800000 % 2 ^ 23 : Nat) : ℚ) / 2 ^ 23) = ((1 : ℤ) : ℚ) := by norm_num
theorem test_hyp_MatrixValues : [0x007F7F00, 0x007F7F21, 0x937F7F55, 0x007F7F43].map (fun w : Nat => (w % 16, w / 16 % 16)) = [(0, 0), (1, 2), (5, 5), (3, 4)] := by
  decide
/-- A core with a step of its bank to land in tile 0, which the bank owns. -/
theorem test_hyp_MatrixValues_lands : let k : Core := { Core.reset with
        owner := Core.reset.owner.set 0 (some .a), a := { Core.reset.a with mops := [⟨1, 0, 0, 0⟩], macc := [(1, 0)] } }
    (k.of .a).mops = [⟨1, 0, 0, 0⟩] ∧ (k.of .a).macc = [(1, 0)] ∧ k.owner[(0 : TReg)] = some .a := by decide

/-- A syllable's own conditions are clear in a calm state. -/
def ready (s : State) (y : Syl) : Bool := s.calm && s.accepts y

theorem test_hyp_DecodeOfEncode : (Instr.add .a 3 1 2 0).wellFormed = true ∧ encodeSyl false (.add .a 3 1 2 0) = some 0x00061100 := by decide
theorem test_hyp_EncodeOfDecode : decodeSyl 0x80061100#32 = .ok (.add .a 3 1 2 0) ∧ sylE 0x80061100#32 = true := by decide
theorem test_hyp_StepRunsInstruction : calm.agenda = [] ∧ (calm.row calm.cur).retired = false ∧ calm.presents calm.cur calm.side = true
    ∧ calm.here.awaitsPermit = false ∧ calm.here.frames = []
    ∧ (calm.syllableAt calm.cur calm.side calm.here.pc.toNat).getLsbD 31 = true
    ∧ decodeSyl (calm.syllableAt calm.cur calm.side calm.here.pc.toNat) = .ok (.add .a 0 0 0 0)
    ∧ goesOn (exec (.add .a 0 0 0 0) calm) = true := by decide
theorem test_hyp_StepRunsInstruction_event : ({ calm with agenda := [(5, .outside .heartbeat)] } : State).agenda = (5, .outside .heartbeat) :: []
    ∧ sylOf .heartbeat = none := ⟨rfl, rfl⟩
theorem test_hyp_StepRunsInstruction_answers : sylOf .ageTick = none ∧ ∀ a w d, Instr.ageTick ≠ .hostAccess a w d := ⟨rfl, nofun⟩
theorem test_hyp_SyllableIssues : ∃ y, sylOf (.add .a 3 1 2 0) = some y ∧ y.permitted calm.here = true ∧ ready calm y = true :=
  ⟨_, rfl, by decide, by decide⟩
theorem test_hyp_SyllableFrame : ∃ y, sylOf (.add .a 3 1 2 0) = some y ∧ y.permitted calm.here = true ∧ ready calm y = true
    ∧ goesOn (exec (.add .a 3 1 2 0) calm) = true := ⟨_, rfl, by decide, by decide, by decide⟩
theorem test_hyp_PrivilegedTraps : (trapping 0).traps = true ∧ (trapping 0).here.sysperm = 0 ∧ (trapping 0).here.sysperm.getLsbD 3 = false := by
  decide
/-- Registers, and pops of all three kinds. -/
theorem test_hyp_pops : queues.calm = true ∧ queues.popsReady .none (.s 1) (.s 2) = true ∧ queues.popsReady (.s 31) (.s 31) (.s 31) = true
    ∧ queues.popsReady (.v 31) (.v 31) (.s 31) = true := by decide
theorem test_hyp_CompareTraps_passes : queues.calm = true ∧ queues.popsReady .none (.s 31) (.s 0) = true
    ∧ (∀ c, ((queues.partHere c).qget 0).getLsbD 0 = true →
        (queues.operands .none (.s 31) (.s 0) c).a ≠ (queues.operands .none (.s 31) (.s 0) c).b) := by decide
theorem test_hyp_CompareTraps_fails : (trapping 0).traps = true ∧ (trapping 0).here.info.skew = 0
    ∧ (trapping 0).popsReady .none (.s 1) (.s 2) = true ∧ (((trapping 0).partHere 0).qget 0).getLsbD 0 = true
    ∧ ((trapping 0).operands .none (.s 1) (.s 2) 0).a = ((trapping 0).operands .none (.s 1) (.s 2) 0).b := by decide
/-- Equal elements fail vchk.lt; q0 enables them. -/
theorem test_hyp_CompareTraps_vector : (trapping 0).popsReady .none (.v 1) (.v 2) = true ∧ ((trapping 0).partHere 5).qget 0 = BitVec.allOnes 128
    ∧ ((List.range (widthBits .w256 / 32)).any fun k =>
        let r := (trapping 0).operands .none (.v 1) (.v 2) 5
        (((trapping 0).partHere 5).qget 0).getLsbD (spanLo .a .w256 + 4 * k)
          && decide ((BitVec.ofNat 32 (spanElement .a .w256 32 r.bv k)).toInt ≤ (BitVec.ofNat 32 (spanElement .a .w256 32 r.av k)).toInt)) = true := by
  decide
/-- The last vector of the window, and the last scalar of a quad slot's window. -/
theorem test_hyp_LocalLoad : let s := windowed fun b => { b with s := (b.s.set 1 0x5F80).set 2 0x29FF8 }
    s.calm = true ∧ s.popsReady .none (.s 1) .none = true
    ∧ ∀ c, let r := s.operands .none (.s 1) .none c
        r.a.toNat % 128 = 0 ∧ r.localIn false r.a 128 = true
        ∧ (s.coreHere (r.localSpot false r.a).1).anyCipher (r.localSpot false r.a).2 128 = false
        ∧ (s.coreHere (r.localSpot false r.a).1).anyPoison (r.localSpot false r.a).2 128 = false
        ∧ (s.operands .none (.s 2) .none c).localIn true (s.operands .none (.s 2) .none c).a 8 = true := by decide
/-- An address that is no multiple of 8, and one just past the window. -/
theorem test_hyp_LocalAccessTraps : let s := windowed fun b => { b with s := (b.s.set 1 0x5FFC).set 2 0x6000 }
    s.traps = true ∧ s.here.info.skew = 0 ∧ s.popsReady .none (.s 1) .none = true ∧ s.popsReady (.s 3) (.s 1) .none = true
    ∧ s.popsReady (.v 3) (.s 1) .none = true ∧ (s.operands .none (.s 1) .none 0).a.toNat % 8 ≠ 0
    ∧ (∀ c, (s.operands .none (.s 2) .none c).a.toNat % 8 = 0)
    ∧ (s.operands .none (.s 2) .none 0).localIn false (s.operands .none (.s 2) .none 0).a 8 = false := by decide
theorem test_hyp_LocalStore : let s := windowed fun b => { b with s := b.s.set 1 0x5FF8 }
    s.calm = true ∧ (∀ c, Memory.wf (s.coreHere c).ls = true) ∧ s.popsReady (.s 3) (.s 1) .none = true
    ∧ ∀ c, let r := s.operands (.s 3) (.s 1) .none c
        r.a.toNat % 8 = 0 ∧ r.localIn false r.a 8 = true
        ∧ (s.coreHere (r.localSpot false r.a).1).anyCipher (r.localSpot false r.a).2 8 = false := by decide
/-- A bank with the flat tensor and tensor 1 of one tile each, cached, readable and writable; s1 is 0, s2 is 1. -/
def mapped : State :=
  (windowed fun b => { b with s := b.s.set 2 1 }).modRow 0 fun r => { r with
    a := { r.a with info := { r.a.info with tableLen := 2 } }
    dcache := [⟨0, 0, [0x8000001000000000, 0, 0x10000, 1, 0, 65536, 0, 0]⟩, ⟨0, 1, [0x80000010FF000000, 0xFFFF, 0x20000, 1, 0, 0, 0, 0]⟩]
    tcache := [⟨0, 0, 0, 0x4060000000000100, 0x10000⟩, ⟨0, 1, 0, 0x4060000000000200, 0x20000⟩] }
theorem test_hyp_LoadsAndStores_tensor : ready mapped (sylLdt 2 1 true) && ready mapped (sylStt 3 2 1 false) = true := by decide
theorem test_hyp_LoadsAndStores_flat : ready mapped (sylLdg 1 false 8) && ready mapped (sylStg 3 1 true 128) = true := by decide
theorem test_hyp_TagTable : queues.popsReady .none (.s 1) .none = true
    ∧ ∀ c, ((mapped.partHere c).qget 0).getLsbD 0 = true → (mapped.operands .none (.s 1) (.s 2) c).b.toNat % 256 < mapped.here.winSize / 256 := by
  decide
theorem test_hyp_Atomics : ready mapped (sylAtomAdd 1 2 .row true .i32) && ready mapped (sylAtomCas 3 1 2 .quad false .i64)
    && ready mapped (sylAtomXor 1 2 .core true .i64) = true := by decide
/-- A clean phase object that expects two arrivals, a free counter and a fresh id in every core. -/
def phased : State := (windowed fun b => { b with s := (b.s.set 1 64).set 2 3 }).modRow 0 (·.mapCores fun _ k => { k with ls := [(64, 2)] })
theorem test_hyp_Atomics_core : ready phased (sylAtomAdd 1 2 .core true .i64) = true ∧ (∀ c, Memory.wf (phased.coreHere c).ls = true)
    ∧ phased.pend = [] ∧ ∀ c, (phased.coreHere c).anyPoison (phased.here.winBase + 64) 8 = false := by decide
theorem test_hyp_PhaseObjectsAndLocks : ready mapped (sylArrive 1 2 .core true) && ready mapped (sylArrive 1 2 .pod false)
    && ready mapped (sylWaitp 3 1 2 .core) && ready mapped (sylWaitp 3 1 2 .die) = true := by decide
theorem test_hyp_PhaseObjectsAndLocks_core : (ready phased (sylArrive 1 2 .core true) && ready phased (sylArrive 1 2 .core false)) = true
    ∧ ∀ c, phaseBad (Memory.read (phased.coreHere c).ls (phased.here.winBase + 64) 64) = false
      ∧ (phased.coreHere c).anyPoison (phased.here.winBase + 64) 64 = false
      ∧ phased.releaseClear phased.cur phased.side .core true c (phased.here.winBase + 64) phased.here.cycle = true := by decide
theorem test_hyp_PhaseObjectsAndLocks_acq : let s := mapped.modBank 0 .a fun b => { b with asked := true }
    s.here.asked = true ∧ s.lockPending s.cur s.side = false ∧ ready s (sylAcq 1 .row true) = true := by decide
/-- Core 0 holds the lock at byte 64 of its window; the release of it has been asked for and is the bundle due. -/
def releasing : State :=
  let s : State := ((windowed fun b => { b with s := b.s.set 1 64 }).modRow 0 (·.mapCores fun c k => if c = 0 then
    { k with ls := Memory.write k.ls 64 (bytesOfWord (ownerTag 0 0 .a true 0)) } else k)).modBank 0 .a fun b => { b with asked := true }
  { s.withFetchWord 32 ((encodeSyl true (.rel 1 .core true)).getD 0).toNat with
    pend := [⟨3, 0, .a, 0, 0, none, .unlock .core true [(0, .ls 0 0 64)], false, false⟩], nextId := 4 }
theorem test_hyp_PhaseObjectsAndLocks_rel : releasing.here.asked = true ∧ ready releasing (sylRel 1 .core true) = true
    ∧ releasing.pend.find? (fun q => q.row == releasing.cur && q.side == releasing.side && q.op.atIssue)
        = some ⟨3, 0, .a, 0, 0, none, .unlock .core true [(0, .ls 0 0 64)], false, false⟩
    ∧ Sparse.risesFrom releasing.rows none = true ∧ releasing.due = some (.rel 1 .core true) ∧ releasing.moves = [] ∧ Memory.wf releasing.mem = true
    ∧ releasing.wordSealed (.ls 0 0 64) = false ∧ (∀ c, Memory.wf (releasing.coreHere c).ls = true) :=
  ⟨by decide, by decide, by decide, by decide, by decide, by decide, by decide, by decide, by decide⟩
/-- The same with s2 naming a tensor past the table's end. -/
def foreign : State := mapped.modRow 0 (·.mapBanks .a fun _ b => { b with s := b.s.set 2 7 })
theorem test_hyp_DiscardPrefetch : ready mapped (sylDiscard 2 1 4) = true ∧ mapped.popsReady .none (.s 2) (.s 1) = true
    ∧ foreign.calm = true ∧ foreign.popsReady .none (.s 2) (.s 1) = true
    ∧ (checkTensor (foreign.lone (sylPref 2 1 true 0)) fun c => [tensorAcc 64 true (foreign.operands .none (.s 2) (.s 1) c)]).isClear = false :=
  ⟨by decide, by decide, by decide, by decide, by decide⟩
/-- Reels 1 and 2 of 4 entries, reel 1 with three of them committed; tile 0 16 x 16 fp32, tile 1 the same of int32. -/
def reeled : State :=
  (windowed fun b => { b with reel := (b.reel.set 1 0x8000000000020003).set 2 0x8000000004020103, s := b.s.set 1 64 }).modBank 0 .a
    fun b => { b with deckle := 0xBFDFF }
theorem test_hyp_MatrixAndPush_push : ready reeled (sylVpush 2 4 3) = true ∧ (∀ c, Memory.wf (reeled.coreHere c).ls = true) := ⟨by decide, by decide⟩
theorem test_hyp_MatrixAndPush_mma : ready reeled (sylMma 0 1 2 true true) && ready reeled (sylMmaN 0 true true 1 true 2 255) = true := by decide
theorem test_hyp_MatrixAndPush_clean : ∀ c, ∀ reel ∈ [(1 : Reel), 2],
    (reeled.coreHere c).anyCipher ((reeled.coreHere c).headByte reeled.here reeled.side reel) 512 = false
    ∧ (reeled.coreHere c).anyPoison ((reeled.coreHere c).headByte reeled.here reeled.side reel) 512 = false := by decide
theorem test_hyp_MatrixAndPush_sat : ready (reeled.modBank 0 .a fun b => { b with fmt := 0x007F7F33 }) (sylMmaSat 1 1 2 false false) = true := by
  decide
theorem test_hyp_TileConfigureStore : ready calm (sylTcfg 7 .i32 15 0) && ready reeled (sylTst 0 0 1) = true := by decide
theorem test_hyp_TileWritesReads : ready reeled (sylTzero 0) && ready reeled (sylTrowW 0 4 15 1 true) && ready reeled (sylTcolW 1 4 0 0 false)
    && ready reeled (sylTld 0 0 1) && ready reeled (sylTrowR 3 0 15 0 true) && ready reeled (sylTcolR 3 1 0 0 false) = true := by decide
theorem test_hyp_CopyIssues : ready mapped (sylCpyIn 1 2 1 3 7) && ready mapped (sylCpyOut 1 2 1 0 0) && ready mapped (sylCpyGat 1 2 1 1 0)
    && ready mapped (sylCpySct 1 2 1 1 0) = true := by decide
theorem test_hyp_CopyIssues_reel :
    ready (mapped.modRow 0 (·.mapBanks .a fun _ b => { b with reel := b.reel.set 2 0x8000000000020000 })) (sylCpyInR 2 2 1 1) = true := by decide
theorem test_hyp_EngineIssues : ready mapped (sylCpyLl 1 2 0 3 false) && ready mapped (sylSend 4 1 2 1) && ready mapped (sylRed 4 2 1 .f32 .pod)
    = true := by decide
/-- A parameter block of 64 bytes to cipher at window byte 0. -/
theorem test_hyp_EngineIssues_cipher : let s := (windowed fun b => { b with s := b.s.set 1 64 }).modRow 0 (·.mapCores fun _ k => { k with ls := [(4, 64)] })
    ready s (sylSeal 1 1 0) && ready s (sylOpn 1 1 0) = true := by decide
theorem test_hyp_sequencer : calm.calm = true ∧ calm.here.steps[(7 : Fin 8)].bound = none := by decide
theorem test_hyp_Branches : calm.here.frames = [] ∧ calm.here.k[(1 : Fin 16)] = 0 ∧ calm.here.calls.length < 4
    ∧ (bank fun b => { b with calls := [7] }).calm = true ∧ (bank fun b => { b with calls := [7] }).here.calls = 7 :: [] := by decide
/-- A loop of the largest count about to begin, one of count 0, and a body of 3 bundles in its last bundle but one. -/
theorem test_hyp_Loops : let s := bank fun b => { b with k := b.k.set 1 65535, frames := [⟨2, 0, 3, 1, 0, []⟩] }
    s.calm = true ∧ loopUnnested s.here 1 = false ∧ s.here.k[(1 : Fin 16)].toNat = 65535 ∧ s.here.k[(2 : Fin 16)].toNat = 0
    ∧ s.here.frames.length < 6 ∧ s.here.k[(1 : Fin 16)] ≠ 0 := by decide
theorem test_hyp_WaitsBarriersPermits : let s := bank fun b => { b with
      permit := .held 3, asking := some .permit, go := true, atBar := some (0, 15, .pod), info := { b.info with cohort := true, barriers := 0x8000 } }
    s.calm = true ∧ s.here.k[(1 : Fin 16)].toNat ≤ s.here.numbers[(7 : Fin 8)]
    ∧ (∀ c, s.here.k[(1 : Fin 16)].toNat ≤ (s.partHere c).tl[(7 : Fin 8)].toNat) ∧ s.fenceClear s.cur s.side .system = true
    ∧ s.here.info.cohort = true ∧ s.here.info.barriers.getLsbD 15 = true ∧ s.here.atBar = some (s.here.pc, 15, .pod) ∧ s.here.go = true
    ∧ s.here.permit = .held 3 ∧ s.here.asking = some .permit := by decide
theorem test_hyp_SegmentsAndHalt : let s := bank fun b => { b with asking := some .rendezvous, go := true }
    calm.here.handler = false ∧ (∀ c, (calm.partHere c).loads = []) ∧ calm.commitOpen calm.cur calm.side = false ∧ calm.here.info.cohort = false
    ∧ s.calm = true ∧ s.here.asking = some .rendezvous ∧ s.here.go = true := by decide
/-- States in which the rows of ControlTraps hold. -/
theorem test_hyp_ControlTraps_flow : let l : Frame := ⟨2, 0, 9, 0, 0, []⟩
    let s := bank fun b => { b with trapvec := 0x8000, frames := List.replicate 6 l }
    let t := bank fun b => { b with trapvec := 0x8000, calls := [1, 2, 3, 4], k := b.k.set 1 65536 }
    s.traps = true ∧ s.here.frames ≠ [] ∧ loopUnnested s.here 1 = false ∧ 6 ≤ s.here.frames.length ∧ loopUnnested s.here 64 = true
    ∧ t.traps = true ∧ 4 ≤ t.here.calls.length ∧ 65535 < t.here.k[(1 : Fin 16)].toNat ∧ t.here.frames = [] ∧ (trapping 0).here.calls = [] := by decide
theorem test_hyp_ControlTraps_others : let s := bank fun b => { b with
      trapvec := 0x8000, permit := .held 2, steps := b.steps.set 3 ⟨⟨true, 0, 0, .d, 0, 0⟩, some 0⟩, k := b.k.set 1 1 }
    s.traps = true ∧ s.here.steps[(3 : Fin 8)].bound ≠ none ∧ s.here.numbers[(0 : Fin 8)] < s.here.k[(1 : Fin 16)].toNat
    ∧ s.here.info.cohort = false ∧ s.here.permit = .held 2 ∧ calm.here.permit = .none := by decide
theorem test_hyp_TrapEntry : (trapping 0).traps = true ∧ calm.calm = true ∧ calm.here.armed = none ∧ calm.here.trapvec.getLsbD 15 = false := by
  decide
/-- In a handler, a double trap, of a launch that is counted. -/
theorem test_hyp_TrapEntry_double : let s := (trapping 0).modBank 0 .a fun b => { b with handler := true }
    s.calm = true ∧ s.here.armed = none ∧ s.here.handler = true := by decide
theorem test_hyp_ReturnFromTrap : let c : SavedControl := ⟨[⟨2, 0, 3, 2, 5, []⟩], [4], Vector.replicate 8 StepEntry.reset, 7, 8⟩
    let s := bank fun b => { b with handler := true, savedCtl := some c }
    s.calm = true ∧ s.here.handler = true ∧ s.here.savedCtl = some c := by decide
/-- %barsel's largest die index, and one past it. -/
theorem test_hyp_ControlRegisters : let s := (trapping 0xF).modBank 0 .a fun b => { b with k := (b.k.set 1 0xF9).set 2 0xFA }
    s.traps = true ∧ s.here.sysperm.getLsbD 0 = true ∧ s.here.sysperm.getLsbD 3 = true ∧ s.here.k[(1 : Fin 16)].toNat % 16 ≤ 9
    ∧ 9 < s.here.k[(2 : Fin 16)].toNat % 16 := by decide
theorem test_hyp_RequestsAndOtherBank : let s := (trapping 0xF).modBank 0 .a fun b => { b with answer := some 9, asking := some .hold }
    s.calm = true ∧ s.here.sysperm.getLsbD 1 = true ∧ s.here.answer = some 9 ∧ s.here.sysperm.getLsbD 2 = true ∧ s.here.asking = some .hold
    ∧ (s.bank s.cur .b).phase = .empty ∧ otherSide s.side = .b := by decide
/-- The other bank runs as hold asks for its stop. -/
theorem test_hyp_RequestsAndOtherBank_hold : let s := (trapping 0xF).modBank 0 .b fun b => { b with phase := .run }
    s.calm = true ∧ s.here.asking = none ∧ (s.bank s.cur (otherSide s.side)).phase = .run ∧ s.pend = [] ∧ s.moves = [] ∧ (s.row s.cur).walks = [] := by
  decide
theorem test_hyp_RequestsAndOtherBank_other : ((trapping 0xF).modBank 0 .b fun b => { b with phase := .stopped .hold }).calm = true
    ∧ ((trapping 0xF).modBank 0 .b fun b => { b with phase := .dormant }).calm = true ∧ (calm.row calm.cur).arrivals = [] := by decide
/-- The calm bank in segmented mode, about to issue an irrevocable tagclr. -/
def segmented : State :=
  (bank fun b => { b with segment := some ⟨⟨3, b.k, [], [], b.steps, [], [], false, none⟩, 2, 3, 4, 5, 6⟩ }).withFetchWord 32
    ((encodeSyl true (.tagclrAll 0)).getD 0).toNat
/-- A guarded trap that waits out its held cycles. -/
def waiting : State := (trapping 0).modBank 0 .a fun b => { b with
  heldLeft := 3
  verdict := some (⟨.chkFail, 0, 1, 0, 0, 0, 0, false, false⟩, 0, 0) }
theorem test_hyp_RowCycleEvents : calm.due = some (.add .a 0 0 0 0) ∧ Sparse.risesFrom calm.rows none = true
    ∧ goesOn (exec (.add .a 0 0 0 0) calm) = true := by decide
theorem test_hyp_RowCycleEvents_unfreeze : let s := bank fun b => { b with frozen := some .drain }
    s.unfreezable s.cur s.side = true ∧ s.due = some (.add .a 0 0 0 0) := by decide
theorem test_hyp_RowCycleEvents_calm : let s := bank fun b => { b with frozen := some .drain }
    ∃ y, s.due = some (.add .a 0 0 0 0) ∧ sylOf (.add .a 0 0 0 0) = some y ∧ y.permitted s.here = true ∧ ready s y = true ∧ s.here.frozen ≠ none
      ∧ Sparse.risesFrom s.rows none = true :=
  ⟨_, by decide, rfl, by decide, by decide, by decide, by decide⟩
theorem test_hyp_RowCycleEvents_trap : let s := (trapping 0).withFetchWord 32 ((encodeSyl true (.trap 7)).getD 0).toNat
    s.traps = true ∧ s.due = some (.trap 7) ∧ goesOn (exec (.trap 7) s) = true := by decide
theorem test_hyp_RowCycleEvents_segment : segmented.presents segmented.cur segmented.side = true ∧ segmented.here.frames = []
    ∧ Sparse.risesFrom segmented.rows none = true
    ∧ (match segmented.bankPlan segmented.cur segmented.side with
      | some .endSegment => true
      | _ => false) = true := ⟨by decide, by decide, by decide, by decide⟩
theorem test_hyp_RowCycleEvents_verdict : let b := waiting.bank waiting.cur .a
    b.phase = .run ∧ b.verdict ≠ none ∧ 0 < b.heldLeft ∧ b.handler = false ∧ b.trapvec.getLsbD 15 = true ∧ b.armed = none
    ∧ waiting.pend = [] ∧ b.seq = [] ∧ b.matOps = [] := by decide
theorem test_hyp_LandingEvents : let s := (parts fun b => { b with flights := [⟨9, 0, .s 31 7, 5⟩] }).modBank 0 .a fun b => { b with cycle := 9 }
    let v := bank fun b => { b with cycle := 9, votes := [⟨9, 3, 0xAB⟩] }
    (s.bank 0 .a).seq = [] ∧ (s.bank 0 .a).votes = [] ∧ (s.bank 0 .a).fmtNext = []
    ∧ ((s.row 0).cb .a 5).flights = [⟨9, 0, .s 31 7, 5⟩] ∧ 9 ≤ (s.bank 0 .a).cycle
    ∧ (v.bank 0 .a).seq = [] ∧ (v.bank 0 .a).votes = [⟨9, 3, 0xAB⟩] ∧ 9 ≤ (v.bank 0 .a).cycle
    ∧ ((calm.modRow 0 fun r => { r with walks := [⟨.a, 0, 1, 2⟩] }).row 0).walks = ⟨.a, 0, 1, 2⟩ :: [] := by decide
/-- An mma.n of two steps at matrix time 60, issued at 10, with `next` steps begun and `landed` landed. -/
def stepping (next landed : Nat) : MatrixOp := ⟨1, 0, 0x1FF, 0x007F7F00, 1, 2, false, true, false, false, 2, 10, next, landed, false⟩
theorem test_hyp_LandingEvents_begin : let s := reeled.modBank 0 .a fun b => { b with matOps := [stepping 0 0], matTime := 60 }
    (stepping 0 0).due (s.bank 0 .a).matTime = true ∧ (s.row 0).reelsReady .a (stepping 0 0) = true
    ∧ ∀ c : Fin 64, ∀ reel ∈ [(1 : Reel), 2], let k := (s.row 0).cores[c]
        k.anyCipher (k.headByte (s.bank 0 .a) .a reel) 512 = false ∧ k.anyPoison (k.headByte (s.bank 0 .a) .a reel) 512 = false := by decide
theorem test_hyp_LandingEvents_land : (stepping 1 0).landsBy 60 = true ∧ (stepping 1 0).landed + 1 < (stepping 1 0).steps
    ∧ (stepping 2 1).landsBy 60 = true ∧ (stepping 2 1).landed + 1 = (stepping 2 1).steps ∧ (stepping 2 1).next = (stepping 2 1).steps := by decide
/-- The calm panel with one operation outstanding. -/
def outstanding (o : PendOp) : State := { calm with pend := [⟨3, 0, .a, 5, 0, none, o, false, false⟩] }
theorem test_hyp_PerformEvents : ([.load 1 (.ls 0 5 64) 8 [], .store (.ls 0 5 64) [1], .atom 0 .i32 .core false 1 [(5, .ls 0 5 64, 1, 2)],
      .arrive .core false [(5, .ls 0 5 64, 0)], .lock .core 0 [(5, .ls 0 5 64, false)], .discard (.ls 0 5 64) 1,
      .copyIn 0 1 [(.phys 0 64 0 0 0 0 255, 64)] none, .copyOut 0 1 [(64, .phys 0 64 0 0 0 0 255)], .copyLocal 0 1 0 6 0 64,
      .red 1 .i32 .core [(5, .ls 0 5 128, 1)], .cipher 1 true 0 64 128 64 0 0 [] 0,
      .send 1 0 0 ⟨0, 0, 0, 5, .a, 0, 0, 0, 1, false⟩ .panel] : List PendOp).all (fun o =>
    match (outstanding o).pend with
    | [q] => (outstanding o).enabled q && (outstanding o).pend.find? (·.id == 3) == some q && !q.poison
        && (match o with | .arrive a b c => (outstanding o).arrivalsDue q a b c == c | _ => true)
    | _ => false) = true := by decide
/-- An arrival of two cores, one of which has a store of its own still to perform. -/
def arriving : State :=
  { calm with pend := [⟨2, 0, .a, 6, 0, none, .store (.ls 0 6 128) [1], false, false⟩,
      ⟨3, 0, .a, 5, 1, none, .arrive .core false [(5, .ls 0 5 64, 0), (6, .ls 0 6 64, 0)], false, false⟩] }
theorem test_hyp_PerformEvents_arrivals : (match arriving.pend with
    | [_, q] => arriving.enabled q && arriving.arrivalsDue q .core false [(5, .ls 0 5 64, 0), (6, .ls 0 6 64, 0)] == [(5, .ls 0 5 64, 0)]
        && arriving.pend.find? (·.id == 3) == some q && !q.poison
    | _ => false) = true := by decide
theorem test_hyp_PerformEvents_acknowledge : (outstanding .ack).pend.find? (fun p => p.row == 0 && p.side == .a && (match p.op with | .ack => true | _ => false))
    = some ⟨3, 0, .a, 5, 0, none, .ack, false, false⟩ := by decide
/-- The calm panel's local stores are in canonical form; so are those of a panel with the same rows. -/
theorem test_calm_LocalWf : calm.LocalWf := by
  intro n c
  by_cases h : n = 0
  · subst h; revert c; decide
  · have : calm.row n = Row.reset n := by
      show (Sparse.find [(0, _)] n).getD _ = _
      rw [Sparse.find, if_neg (Ne.symm h)]; rfl
    rw [this]
    have : (Row.reset n).cores[c] = Core.reset := by
      simp [Row.reset]
    rw [this]; rfl
/-- No row of the calm panel lags behind its sequencer. -/
theorem test_calm_lines : ∀ row, (calm.row row).line .a = [] := by
  intro n
  by_cases h : n = 0
  · subst h; decide
  · have : calm.row n = Row.reset n := by
      show (Sparse.find [(0, _)] n).getD _ = _
      rw [Sparse.find, if_neg (Ne.symm h)]; rfl
    rw [this]; rfl
/-- Every kind of operation is one that may perform, over bytes that are plaintext and clean, in a panel in canonical form. -/
theorem test_hyp_PerformEffects : ([.atom 0 .i32 .core true 1 [(5, .ls 0 5 64, 1, 2), (6, .phys 0 0x5000 0 0 0 0 255, 1, 2)],
      .arrive .core false [(5, .ls 0 5 64, 0)], .copyIn 0 1 [(.phys 0 64 0 0 0 0 255, 64)] none, .copyOut 0 1 [(64, .phys 0 64 0 0 0 0 255)],
      .red 1 .i32 .core [(5, .phys 0 128 0 0 0 0 255, 1)], .cipher 1 true 0 64 128 64 0 0 [] 0] : List PendOp).all (fun o =>
    let s := outstanding o
    (match s.pend with
    | [q] => s.enabled q && !q.poison && q.spans.all fun y => !s.placeCipher y.2.1 y.2.2 && !s.placePoison y.2.1 y.2.2
    | _ => false) && Memory.wf s.mem && s.moves.isEmpty && s.allFrames.isEmpty && (s.bank 0 .a).info.world == 0
    && !phaseBad (s.readPlace (.ls 0 5 64) 64)
    && !(Place.ls 0 5 64).meets 4 (.phys 0 0x5000 0 0 0 0 255) 4 && ((s.row 0).cb .a 5).doneOps.isEmpty) = true := by decide
/-- A free lock word of core 5, and what it is asked for with. -/
theorem test_hyp_PerformEffects_lock : let s := outstanding (.lock .core 0 [(5, .ls 0 5 64, false)])
    s.pend.all (fun q => s.enabled q && !q.poison) = true ∧ s.wordSealed (.ls 0 5 64) = false ∧ s.placeWord (.ls 0 5 64) = 0 := by decide
theorem test_hyp_PerformEffects_stores : (outstanding (.store (.phys 0 0x5000 0 0 0 0 255) [1])).LocalWf := test_calm_LocalWf
/-- A message to the armed bank of row 0, dormant. -/
theorem test_hyp_PerformEffects_send : let s := bank fun b => { b with phase := .dormant, armed := some 4 }
    s.delivery 0 0 0 = .take ∧ (s.row 0).armedSide = some .a ∧ (s.bank 0 .a).phase = .dormant ∧ calm.delivery 0 0 0 = .refuse := by decide
theorem test_hyp_PerformValues : Memory.wf ((calm.row 0).cores[(5 : Fin 64)]).ls = true
    ∧ ((calm.row 0).cores[(5 : Fin 64)]).anyCipher 12280 8 = false ∧ ((calm.row 0).cores[(5 : Fin 64)]).anyPoison 12280 8 = false := by decide
/-- A launch of two blocks, one of them placed, changed. -/
def launch (f : Launch → Launch) (g : Bank → Bank) : State :=
  { (bank fun b => g { b with info := { b.info with launch := 7 } }) with
    launches := [f ⟨7, 0, false, false, false, 0, 0, 0, 3, 4, 16, 2, 2, 3, 0x10000, 0, 0, 0x4000, none, 0, [], 1, 1, 0, 0, none, none, [], none, none, false,
      none, none, none, none⟩]
    worlds := [⟨0, 10240, 0, 0, false, none⟩] }
theorem test_hyp_BankEvents : ((bank fun b => { b with request := some (false, 0x1000) }).bank 0 .a).request = some (false, 0x1000)
    ∧ (bank fun b => { b with request := some (false, 0x1000) }).recordBad 0x1000 = true
    ∧ ((bank fun b => { b with since := 256 }).modBank 0 .b fun b => { b with phase := .run }).switchDue 0 = .take true
    ∧ (calm.bank 0 .a).phase = .run ∧ (calm.bank 0 .a).stopReq = none ∧ (calm.bank 0 .a).atBoundary = true
    ∧ (calm.bank 0 .a).armed = none ∧ calm.bankQuiet 0 .a = true ∧ (calm.row 0).retired = false := by decide
def words (xs : List Nat) : List Byte := xs.flatMap fun x => bytesOfNat x 8
/-- Panel 0 with a well-formed record of one block at 64 KiB, its image of one syllable at 128 KiB, and the bank's request of it, in a world of
as many rows as given. -/
def spawning (rows : Nat) : State :=
  let s := bank fun b => { b with request := some (false, 0x10000) }
  { s with
    mem := Memory.write (Memory.write s.mem (physKey 0 0x10000) (words [2 ^ 63, 0x100010000, 0x20000, 0x30000, 0, 0x40000]))
      (physKey 0 0x20000) (words [1])
    worlds := [⟨0, rows, 0, 0, false, none⟩] }

theorem test_hyp_BankEvents_spawn : ((spawning 1).bank 0 .a).request = some (false, 0x10000) ∧ (spawning 1).recordBad 0x10000 = false
    ∧ (spawning 1).recCohort 0x10000 = false ∧ (spawning 1).worldRows 0 < (spawning 1).allowance 0
    ∧ (spawning 0).recordBad 0x10000 = false ∧ ¬(spawning 0).worldRows 0 < (spawning 0).allowance 0 := by decide
theorem test_hyp_BankEvents_retirement : calm.station.active ≠ none
    ∧ ({ calm with station := { calm.station with active := none } } : State).station.active = none := by decide
theorem test_hyp_BankEvents_armed : let s := bank fun b => { b with phase := .halted, armed := some 4 }
    (s.bank 0 .a).heldLeft = 0 ∧ (s.bank 0 .a).armed ≠ none ∧ (s.bank 0 .a).phase = .halted ∧ s.bankQuiet 0 .a = true ∧ s.bankLanded 0 .a = true ∧ (s.row 0).arrivals = [] := by
  decide
theorem test_hyp_BankEvents_launch : let s := launch (fun l => { l with rendezvous := some (4, [0]) }) fun b => { b with atBar := some (0, 0, .die) }
    s.barReleased 0 .a 0 .die = true ∧ s.launchBanks 7 = [(0, .a)] ∧ (s.launchOf 7).isSome = true
    ∧ s.launches.all (fun l => !l.cohort || !l.barriers.getLsbD 0) = true := by decide
theorem test_hyp_LaunchEvents_place : let s := launch id id
    s.timing.stabled = false ∧ s.timing.wake ≤ s.time ∧ s.tasks = [] ∧ s.launches.all (fun l => l.asker.isNone && !l.cohort && l.world == 0 && !l.killing && l.next < l.blocks && l.rerun.isNone
      && !l.traced && (s.launchBanks l.id).length < l.maxRows && (s.findPlace l l.next).isSome) = true := by decide
theorem test_hyp_LaunchEvents_ends : let s := launch (fun l => { l with ended := 2, killing := true }) fun b => { b with phase := .killed }
    let r := launch (fun l => { l with ended := 1, killing := true, rerun := some ⟨0x8000, 0, 0, [], [0], [], []⟩ }) id
    Sparse.risesFrom s.sealed none = true
    ∧ s.launches.all (fun l => l.ended == l.blocks && l.rerun.isNone && !l.traced && l.queue.isNone && !s.addressBad l.completion 64 64
      && !s.agentWaits l.completion 64 && (s.heldBanks l.id).all fun p => s.bankQuiet p.1 p.2) = true ∧ s.moves = [] ∧ Memory.wf s.mem = true
    ∧ r.launches.all (fun l => l.rerun.any (fun k => l.ended == k.sel.length) && l.killing && l.queue.isNone) = true := by decide
theorem test_hyp_LaunchEvents_round : let s := launch (fun l => { l with ended := 1, rerun := some ⟨0x8000, 0, 0, [], [0], [], []⟩ }) id
    s.launches.all (fun l => l.rerun.any (fun k => l.ended == k.sel.length) && !l.killing && l.queue.isNone && l.refused.isNone) = true := by decide
theorem test_hyp_LaunchEvents_resume : let s := { launch id (fun b => { b with
        phase := .stopped .park, parked := [⟨[], 0, 0, []⟩] }) with tasks := [⟨5, 1, 0, [⟨3, 1, 0⟩], 0, false, 7, false, [], false⟩] }
    s.tasks.find? (·.id == 5) = some ⟨5, 1, 0, [⟨3, 1, 0⟩], 0, false, 7, false, [], false⟩ ∧ s.heldBanks 7 = [(0, .a)]
    ∧ s.timing.wake ≤ s.time ∧ (s.bank 0 .a).forSiding = true ∧ (s.bank 0 .a).rest = .run ∧ (s.bank 0 .a).parked ≠ [] ∧ (s.bank 0 .a).faults = [] ∧ (s.bank 0 .a).info.world = 0
    ∧ (s.dies[dieFin 0]).gated = false := by decide
/-- Queue 3 with a fence packet waiting at the head of its ring 2. -/
def ringed : State := { (calm.modQueue 3 fun z => { z with rings := z.rings.set 2 { Ring.reset with base := 0x8000000000010004, tail := 3, head := 1, taken := 1 } }) with
  mem := Memory.write [] (physKey 0 (0x10000 + 64)) (bytesOfNat (7 + 9 * 2 ^ 32 + 6 * 2 ^ 64) 64) }
theorem test_hyp_QueueEvents : ringed.station.booted = true ∧ (ringed.queue 3).live = true ∧ (ringed.queue 3).taken = [] ∧ (ringed.queue 3).arrays = []
    ∧ ringed.mergeRing (ringed.queue 3) = some 2
    ∧ parsePacket (ringed.ringEntry (ringed.queue 3).rings[2]) = some (⟨9, false, false⟩, .fence 6) ∧ ringed.packetBad (.fence 6) = false
    ∧ ringed.packetBad (.fence 5) = true := by decide
/-- A doorbell to the ring's whole size, and to one past it. -/
theorem test_hyp_QueueEvents_registers : let r := (ringed.queue 3).rings[2]
    (r.tail - r.head).toNat ≤ ((17 : BitVec 32) - r.head).toNat ∧ ((17 : BitVec 32) - r.head).toNat ≤ 2 ^ (r.base.toNat % 32)
    ∧ 2 ^ (r.base.toNat % 32) < ((18 : BitVec 32) - r.head).toNat ∧ ((2 : BitVec 32) - r.head).toNat < (r.tail - r.head).toNat
    ∧ (ringed.queue 3).state ≠ 2 ∧ ((calm.modQueue 3 fun z => { z with state := 2, error := 2 }).queue 3).state = 2 := by decide
/-- The head of an empty ring's memory is no packet; a poisoned table; a packet taken and not started as a doorbell goes wrong; a queue
stopped for its table, whose registers are sound or not. -/
theorem test_hyp_QueueEvents_stops : let t : Taken := ⟨⟨9, false, false⟩, .fence 6, 0, some 2, 2, [], false, false, none⟩
    let bad : State := { ringed with mem := Memory.write [] (physKey 0 (0x10000 + 64)) (bytesOfNat (15 + 9 * 2 ^ 32) 64) }
    let s := ringed.modQueue 3 fun z => { z with taken := [t] }
    let z5 := ringed.modQueue 3 fun z => { z with state := 2, error := 5 }
    let p5 := ringed.modQueue 3 fun z => { z with state := 2, error := 5, rings := z.rings.set 1 { Ring.reset with badBase := true } }
    bad.mergeRing (bad.queue 3) = some 2 ∧ parsePacket (bad.ringEntry (bad.queue 3).rings[2]) = none
    ∧ (ringed.modQueue 3 fun z => { z with poison := true }).queue 3 = { ringed.queue 3 with poison := true } ∧ (ringed.queue 3).poisoned = false
    ∧ ((ringed.modQueue 3 fun z => { z with poison := true }).queue 3).poisoned = true
    ∧ (s.queue 3).taken = [t] ∧ t.started = false ∧ t.launch = none ∧ t.ring = some 2
    ∧ (z5.queue 3).state = 2 ∧ (z5.queue 3).halted = false ∧ (z5.queue 3).error = 5 ∧ (z5.queue 3).rings.toList.any Ring.poisoned = false
    ∧ (p5.queue 3).rings.toList.any Ring.poisoned = true := by decide
theorem test_hyp_QueueEvents_start : let t : Taken := ⟨⟨9, false, false⟩, .fence 6, 0, none, 2, [], false, false, none⟩
    let s := calm.modQueue 3 fun z => { z with taken := [t] }
    (s.queue 3).live = true ∧ (s.queue 3).taken = [t] ∧ s.timing.stabled = false ∧ s.timing.wake ≤ s.time := by decide
theorem test_hyp_QueueEvents_bodies : let t (b : Packet) : Taken := ⟨⟨9, false, false⟩, b, 0, none, 2, [], false, false, none⟩
    let s (b : Packet) := (spawning 1).modQueue 3 fun z => { z with taken := [t b] }
    (s (.launch 0x10000)).recordBad 0x10000 = false ∧ (s (.launch 0x10000)).timing.wake ≤ (s (.launch 0x10000)).time
    ∧ ((s (.launch 0x10000)).queue 3).taken = [t (.launch 0x10000)] ∧ (s (.signal 0 0x40000 1)).moves = []
    ∧ Sparse.risesFrom (s (.signal 0 0x40000 1)).sealed none = true ∧ (s (.signal 0 0x40000 1)).agentWaits 0x40000 8 = false ∧ Memory.wf (s (.signal 0 0x40000 1)).mem = true
    ∧ (1 : Nat) ≤ ((s (.wait 2 0x20000 1)).physWord 0x20000).toNat ∧ ((s (.wait 2 0x20000 2)).physWord 0x20000).toNat < 2 := by decide
/-- Junction 0 above its high mark, with three frames its entries say are resident. -/
def crowded : State := { calm with
  juns := calm.juns.set 0 { calm.juns[(0 : Fin 160)] with
    frames := [1, 2, 3].map fun i => ⟨i, some (0x100000 + 8 * i), none, i, 0, false, false, false⟩
    marks := ⟨2, 1, 3⟩ }
  mem := Memory.write [] (physKey 0 0x100008) ([1, 2, 3].flatMap fun i => bytesOfNat (2 ^ 62 + i) 8) }
theorem test_hyp_TierEvents : calm.xinvSel.getLsbD 63 = false ∧ (calm.unitMarks (.junction 0)).used ≤ (calm.unitMarks (.junction 0)).high
    ∧ (crowded.unitMarks (.junction 0)).high < (crowded.unitMarks (.junction 0)).used
    ∧ (crowded.unitMarks (.junction 0)).low < (crowded.unitMarks (.junction 0)).used ∧ crowded.moves = []
    ∧ (crowded.unitMarks (.junction 0)).low < (crowded.unitUse (.junction 0)).length
    ∧ (pickVictim (crowded.victims (.junction 0))).map (·.frame) = some 3 ∧ (crowded.lowestFree (.siding 0)).isSome = true := by decide
theorem test_hyp_TierEvents_roomiest : ∃ d g, crowded.roomiest crowded.sidingUnits = some d ∧ crowded.lowestFree d = some g :=
  ⟨_, _, rfl, rfl⟩
theorem test_hyp_TierEvents_moves : let m : Move := ⟨4, .demotion, 0x100008, 0x4000000000000001, teMoved 0x4000000000000001 0 1 0 0x40000000, [], false, ⟨255, 0, 0, 0⟩, none, none⟩
    m.needsHost = false ∧ m.answer = none ∧ m.held = [] ∧ teTier m.old ≠ 4 ∧ teTier m.final ≠ 4 ∧ Memory.wf crowded.mem = true
    ∧ crowded.frameWaits (teFrame m.old) = false ∧ Sparse.risesFrom crowded.sealed none = true ∧ calm.station.active ≠ none
    ∧ ({ calm with hostRings := calm.hostRings.set 1 ⟨0, 0, 1, [(4, 1, 5)]⟩ } : State).hostRings[(1 : Fin 4)].entries.any (·.1 == 4) = true
    ∧ ({ calm with hostRings := calm.hostRings.set 1 ⟨0, 0, 1, [(4, 1, 5)]⟩ } : State).hostRings[(1 : Fin 4)].entries.any
        (fun e => e.1 == 4 && e.2.1 == 0) = false
    ∧ ({ calm with hostRings := calm.hostRings.set 1 ⟨0, 0, 1, [(4, 0, 5)]⟩ } : State).hostRings[(1 : Fin 4)].entries.any
        (fun e => e.1 == 4 && e.2.1 == 0) = true := by decide
theorem test_hyp_TierEvents_invalidation : let s := after (exec (.xinvGo 3) calm) calm id
    s.xinvSel.getLsbD 63 = true ∧ s.xinvJob = some (0, 3) := by decide
theorem test_hyp_TierEvents_frames : let m : Move := ⟨4, .demotion, 0x100008, 0x4000000000000001, teMoved 0x4000000000000001 0 1 0 0x40000000, [], false, ⟨255, 0, 0, 0⟩, none, none⟩
    crowded.frameNamed (teFrame m.old) = false ∧ teFrame m.old ≠ teFrame m.final ∧ m.entry + 8 ≤ 65536 * teFrame m.final := by decide
/-- The last byte of a junction's HBM4 range, and the byte after it. -/
theorem test_hyp_CoherenceEvents : calm.dieServes 159 = true ∧ calm.pod.recovery = [] ∧ rangeOf 0x9FBFFFFFFFF = .hbm 159
    ∧ (match rangeOf 0x9FC00000000 with | .hbm _ => false | _ => true) = true ∧ calm.timing.stabled = false ∧ calm.moves = [] := by decide
/-- Line 5 in recovery; a home entry of a switch, and none. -/
theorem test_hyp_CoherenceEvents_lines : let r : State := { calm with pod := { calm.pod with recovery := [(5, 0)] } }
    let p : State := { calm with juns := calm.juns.set (calm.homeOf 5) { calm.juns[calm.homeOf 5] with home := [⟨5, .pod 2 true, [], 0⟩] } }
    calm.lineWaits 5 (some 159) false = false ∧ calm.lineWaits 5 (some 159) true = false ∧ calm.lineWaits 5 none true = false
    ∧ calm.hostBias 5 = false ∧ (dirFind (calm.juns[calm.homeOf 5]).home 5) = none ∧ (∃ q ∈ r.pod.recovery, q.1 = 5)
    ∧ calm.agentWaits 0x5000 64 = false ∧ r.agentWaits 320 64 = true ∧ Sparse.risesFrom calm.sealed none = true ∧ Memory.wf calm.mem = true
    ∧ dirFind (p.juns[p.homeOf 5]).home 5 = some ⟨5, .pod 2 true, [], 0⟩ ∧ r.waiting = [] ∧ Memory.wf r.mem = true ∧ Memory.wf p.mem = true := by
  decide
/-- R360: a recalled line comes home with its dirty data, and its entry leaves state P. -/
theorem test_recall_returns_data :
    let p : State := { calm with juns := calm.juns.set (calm.homeOf 5) { calm.juns[calm.homeOf 5] with home := [⟨5, .pod 2 true, [], 0⟩] } }
    let t := p.switchRecall 5 (some ⟨0x1AB, false, false⟩)
    Memory.read t.mem 320 3 = [0xAB, 0x01, 0] ∧ (dirFind (t.juns[p.homeOf 5]).home 5).isNone = true := by decide
theorem test_hyp_CoherenceEvents_control : rangeOf 0x200080000030 = .control ∧ rangeOf (0x200080000030 + 7) = .control ∧ 0x200080000030 % 8 = 0
    ∧ rangeOf 0x1FFFFFFFFFFF ≠ .control ∧ rangeOf 0x300000000000 ≠ .control ∧ (match rangeOf 0x300000000000 with | .hbm _ => false | _ => true) = true := by decide
theorem test_hyp_TimetableEvents : calm.refusal [] = some 4 ∧ calm.time < (tableOf (List.replicate 64 1)).first
    ∧ calm.refusal (calm.physRead 0x40 (64 + 16 * natOfBytes (calm.physRead (0x40 + 2) 2) + 4627)) = some 4 := by decide
theorem test_hyp_TimetableEvents_points : let t : Timetable := ⟨9, 100, 10000, [(100, 48000), (300, 50000)], true, false⟩
    calm.tasks = [] ∧ calm.timing.contactS = false ∧ calm.timing.contactH = false ∧ calm.timing.stabled = false ∧ t.first ≤ 150 ∧ t.hold = false
    ∧ t.watts 150 = calm.timing.target ∧ calm.timing.target < t.watts 350 := by decide
/-- A message of one point at 100 ns, of 48,000 W, for sequence number 9 and panel 0, valid until 10,000 ns, with a signature of zeros. -/
def message : List Byte :=
  bytesOfNat (1 + 2 ^ 16) 8 ++ bytesOfNat 9 8 ++ bytesOfNat 100 8 ++ bytesOfNat 10000 8 ++ List.replicate 32 0 ++ bytesOfNat 100 8 ++ bytesOfNat 48000 8
    ++ List.replicate 4627 0
/-- Whether its signature is good is the free value's; where it is, it is accepted, before its first time and after. -/
theorem test_hyp_TimetableEvents_accepted : messageBad message = false ∧ msgNat message 32 2 = 0 ∧ calm.timing.sequence.toNat < msgNat message 8 8
    ∧ calm.time < msgNat message 24 8 ∧ calm.time < (tableOf message).first ∧ (tableOf message).hold = false
    ∧ calm.timing.target ≤ (tableOf message).watts 200 := by decide
theorem test_hyp_TimetableEvents_falls : let t : Timetable := ⟨9, 100, 10000, [(100, 48000), (300, 40000)], true, false⟩
    t.hold = false ∧ t.watts 350 < calm.timing.target := by decide
/-- The calm panel without an active station. -/
def silent : State := { calm with station := { calm.station with active := none } }
theorem test_hyp_StationSilent : silent.station.active = none ∧ calm.station.active ≠ none := by decide
theorem test_hyp_PowerEvents : calm.timing.lastS ≠ true ∧ calm.timing.lastH ≠ true ∧ calm.station.active ≠ none
    ∧ ({ calm.timing with lastS := true } : Timing).contactS ≠ true ∧ calm.timing.unmet = [] ∧ (calm.regions[(2 : Fin 16)]).droop = false
    ∧ (calm.regions[(2 : Fin 16)]).requests = [] ∧ (200 : Nat) ≤ (1 + 199) / 200 * 200 := by decide
/-- A gated die to which a bank of a resumed task is to return. -/
theorem test_hyp_PowerEvents_dies : let s := (({ launch id id with tasks := [⟨5, 1, 0, [⟨3, 1, 0⟩], 0, false, 7, false, [], false⟩] } : State).modBank 192 .a fun b =>
      { b with phase := .stopped .park, parked := [⟨[], 0, 0, []⟩], info := { b.info with launch := 7 } }).modDie 3 fun d => { d with gated := true }
    s.dieWanted 3 = true ∧ (s.dies[(3 : Fin 160)]).gated = true ∧ (s.regions[regionOf (64 * 3)]).lastGate = none ∧ s.timing.stabled = false := by
  decide
/-- A die that a governor is to gate; one that has just been gated in its region. -/
theorem test_hyp_PowerEvents_gates : let s := calm.modRegion 1 fun k => { k with gateList := [10, 11] }
    (s.regions[(1 : Fin 16)]).gateList.filter s.gateable = [10, 11] ∧ (s.regions[(1 : Fin 16)]).lastGate = none ∧ (5 : Nat) < 5 + 250000
    ∧ (calm.regions[(1 : Fin 16)]).lastWindow = none := by decide
theorem test_hyp_ErrorEvents : (((calm.modDie 4 fun d => { d with links := [(3, .asleep)] }).dies[(4 : Fin 160)]).link 3 = .asleep)
    ∧ (calm.dies[(4 : Fin 160)]).gated = false ∧ (calm.dies[(4 : Fin 160)]).dead = false
    ∧ injMatches (calm.injection (.junction 3)) ⟨9, .junction 3, false, 0x12340, 4, .a, 0⟩ = false ∧ calm.errors.base.getLsbD 63 = false
    ∧ ((calm.modDie 4 fun d => { d with links := [(3, .waking)] }).dies[(4 : Fin 160)]).link 3 = .waking
    ∧ calm.dieReached 4 = true ∧ ((calm.modDie 4 fun d => { d with links := (junctionsOfDie 4).map fun j => (j, .asleep) }).dieReached 4) = false
    ∧ injArmed (calm.juns[(3 : Fin 160)]).inject = false ∧ ({ calm.station with life := .scrapped } : Station).life = .scrapped
    ∧ calm.station.active ≠ none ∧ ({ calm.station with alarms := 0 } : Station).alarms.toNat / 2 ^ 2 % 4 = 0
    ∧ calm.station.life ≠ .scrapped ∧ calm.station.alarms.toNat / 4 % 4 = 1 := by decide
/-- Junction 3 armed for one scrub of structure 9. -/
theorem test_hyp_ErrorEvents_scrub : let w : Word := 0x8000010900000000
    calm.errors.base.getLsbD 63 = false ∧ w.getLsbD 63 = true ∧ 0 < w.toNat / 2 ^ 40 % 256 ∧ w.toNat / 2 ^ 32 % 256 = 9
    ∧ (calm.juns.set 3 { calm.juns[(3 : Fin 160)] with inject := w })[3].inject = w := by decide
theorem test_hyp_PanelReset : Sparse.risesFrom calm.sealed none = true ∧ Memory.wf calm.mem = true ∧ rangeOf 0x5000 = .hbm 0 ∧ (match rangeOf 0x200000000000 with | .hbm _ | .siding _ => false | _ => true) = true := by
  decide
/-- The panel deployed with world 3 holding slots 4 to 7. -/
def deployed : State := { calm with
  station := { calm.station with life := .deployed, mailbox := { calm.station.mailbox with fwState := 1 } }
  worlds := [⟨0, 10240, 0, 0, false, none⟩, ⟨3, 10, 0xF0, 5, true, some 9⟩] }
/-- A spare that has become ready. -/
theorem test_hyp_StationEvents_takeover : let s : State := { calm with
        time := 10000000, agenda := [(10000000, .stationReady)], station := { calm.station with active := none, standby := some 1 } }
    calm.station.heartbeat + 10000000 ≤ s.time ∧ calm.station.standby = none ∧ s.agenda = (s.time, .stationReady) :: [] ∧ s.station.standby = some 1 := by
  decide
theorem test_hyp_StationEvents : deployed.station.active ≠ none
    ∧ (∀ k ∈ deployed.worlds, k.id ≠ 4 ∧ k.slots &&& 0x0F = 0) ∧ deployed.station.life = .deployed ∧ (∃ k ∈ deployed.worlds, k.id = 3)
    ∧ deployed.station.mailbox.fwState = 1 ∧ deployed.station.mailbox.fwState ≠ 2
    ∧ (∀ w ∈ deployed.worlds, w.acked = true ∨ deployed.inRun w = false ∨ w.id = 0)
    ∧ deployed.station.stagedAt + deployed.station.mailbox.window * 1000000000 ≤ 600000000000
    ∧ (deployed.worlds.find? (·.id == 3)).isSome = true ∧ ({ deployed.station with keyStatus := 1 } : Station).keyStatus.getLsbD 0 = true
    ∧ deployed.station.keyStatus.getLsbD 0 = false ∧ (0x8000000000000005 : Word).getLsbD 63 = true := by decide
/-- A tenant in RUN that has not acknowledged what is staged. -/
theorem test_hyp_StationEvents_lapse : let s : State := { (bank fun b => { b with info := { b.info with world := 3 } }) with
        station := deployed.station, worlds := [⟨3, 10, 0xF0, 5, false, none⟩] }
    ∃ w ∈ s.worlds, w.acked = false ∧ s.inRun w = true ∧ w.id ≠ 0 := ⟨_, List.mem_singleton.mpr rfl, by decide, by decide, by decide⟩
theorem test_hyp_RegisterWrites : calm.timing.stabled = false ∧ calm.station.active ≠ none ∧ (0xF9 : Word).toNat % 16 ≤ 9 ∧ (0x1FFFFFFFFFF8 : Nat) < 0x200000000000 ∧ 0x200000000004 % 8 ≠ 0 := by decide
theorem test_hyp_RegisterWrites_limit : let s : State := { calm with timing := { calm.timing with contactS := true } }
    s.timing.contactS = true ∧ s.tasks = [] ∧ s.timing.stabled = false ∧ calm.timing.contactS = false ∧ calm.tableTarget = calm.timing.target := by decide
theorem test_hyp_MemoryKept : calm.MemoryWf ∧ calm.LocalWf ∧ calm.IdsFresh ∧ goesOn (step calm) = true :=
  ⟨by unfold State.MemoryWf; decide, test_calm_LocalWf, nofun, by decide⟩

end Sys2Proof.Tests
end

/-! SUPPORT. The scalar instructions (R115-R124). First the words their values are, then what exec makes of each form in a calm bank. -/

namespace Sys2Proof.Machine

/-! ## Values of the two-source scalar instructions (R118-R120) -/

theorem rolWord_eq_rotateLeft (x y : Word) : rolWord x y = x.rotateLeft (y.toNat % 64) := by
  rw [BitVec.rotateLeft_def, Nat.mod_mod]
  rfl

theorem ite_sle_eq (x y a b : Word) : (if x.sle y then a else b) = if x.toInt ≤ y.toInt then a else b := by
  simp only [BitVec.sle_iff_toInt_le]

theorem wordOfBool_slt (x y : Word) : wordOfBool (x.slt y) = if x.toInt < y.toInt then 1 else 0 := by
  simp only [wordOfBool, BitVec.slt_iff_toInt_lt]

theorem wordOfBool_ult (x y : Word) : wordOfBool (x.ult y) = if x.toNat < y.toNat then 1 else 0 := by
  simp only [wordOfBool, BitVec.ult_iff_toNat_lt]

theorem wordOfBool_beq (x y : Word) : wordOfBool (x == y) = if x = y then 1 else 0 := by
  simp only [wordOfBool, beq_iff_eq]

theorem wordOfBool_bne (x y : Word) : wordOfBool (x != y) = if x ≠ y then 1 else 0 := by
  simp only [wordOfBool, bne_iff_ne]

theorem mul_eq_ofInt (x y : Word) : x * y = BitVec.ofInt 64 (x.toInt * y.toInt) := by
  rw [BitVec.ofInt_mul, BitVec.ofInt_toInt, BitVec.ofInt_toInt]

/-- Bits 64 to 127 of a product's two's complement are its quotient by 2^64. -/
theorem extractLsb'_ofInt_128 (z : Int) : (BitVec.ofInt 128 z).extractLsb' 64 64 = BitVec.ofInt 64 (z / 2 ^ 64) := by
  apply BitVec.eq_of_toNat_eq
  simp only [BitVec.extractLsb'_toNat, BitVec.toNat_ofInt, Nat.shiftRight_eq_div_pow]
  omega

theorem mulh_eq_extractLsb' (x y : Word) :
    BitVec.ofInt 64 (x.toInt * y.toInt / 2 ^ 64) = (x.signExtend 128 * y.signExtend 128).extractLsb' 64 64 := by
  rw [← extractLsb'_ofInt_128, BitVec.ofInt_mul]
  rfl

theorem mulhn_eq_extractLsb' (x y : Word) :
    BitVec.ofNat 64 (x.toNat * y.toNat / 2 ^ 64) = (x.setWidth 128 * y.setWidth 128).extractLsb' 64 64 := by
  apply BitVec.eq_of_toNat_eq
  simp only [BitVec.extractLsb'_toNat, BitVec.toNat_mul, BitVec.toNat_setWidth, BitVec.toNat_ofNat, ← Nat.mul_mod,
    Nat.shiftRight_eq_div_pow]
  omega

/-- The one signed overflow of a division, by its operands' bits and by their values (R120). -/
theorem divOverflows_iff (x y : Word) :
    (x = 0x8000000000000000 ∧ y = BitVec.allOnes 64) ↔ (x.toInt = -2 ^ 63 ∧ y.toInt = -1) := by
  rw [← BitVec.toInt_inj, ← BitVec.toInt_inj (x := y)]
  exact Iff.rfl

theorem divWord_eq (x y : Word) : divWord x y =
    if y = 0 then 0xFFFFFFFFFFFFFFFF
    else if x.toInt = -2 ^ 63 ∧ y.toInt = -1 then 0x8000000000000000 else BitVec.ofInt 64 (x.toInt.tdiv y.toInt) := by
  simp only [divWord, divOverflows_iff]
  rfl

theorem remWord_eq (x y : Word) : remWord x y =
    if y = 0 then x else if x.toInt = -2 ^ 63 ∧ y.toInt = -1 then 0 else BitVec.ofInt 64 (x.toInt.tmod y.toInt) := by
  simp only [remWord, divOverflows_iff, Int.tmod_def]

/-! ## Values of the one-source scalar instructions (R121, R123) -/

/-- The bits above the highest one bit, for a word that has one. -/
theorem clzWord_toNat {x : Word} (hx : x ≠ 0) : (clzWord x).toNat = 63 - x.toNat.log2 := by
  rw [clzWord, if_neg hx, BitVec.toNat_ofNat]
  omega

theorem log2_toNat_lt {x : Word} (hx : x ≠ 0) : x.toNat.log2 < 64 :=
  (Nat.log2_lt (by simpa [BitVec.toNat_eq] using hx)).2 x.isLt

theorem clzWord_spec {x : Word} (hx : x ≠ 0) : (clzWord x).toNat < 64 ∧ x.getLsbD (63 - (clzWord x).toNat) = true ∧
    ∀ j, 63 - (clzWord x).toNat < j → x.getLsbD j = false := by
  have hlog := log2_toNat_lt hx
  have htop : 63 - (63 - x.toNat.log2) = x.toNat.log2 := by omega
  rw [clzWord_toNat hx, htop]
  refine ⟨by omega, Nat.testBit_log2 (by simpa [BitVec.toNat_eq] using hx), fun j hj => ?_⟩
  exact Nat.testBit_lt_two_pow (Nat.lt_of_lt_of_le Nat.lt_log2_self (Nat.pow_le_pow_right (by decide) hj))

theorem ctzWord_zero : ctzWord 0 = 64 := by decide

/-- ctz answers the lowest one bit, for a word that has one. -/
theorem ctzWord_spec {x : Word} (hx : x ≠ 0) : (ctzWord x).toNat < 64 ∧ x.getLsbD (ctzWord x).toNat = true ∧
    ∀ j < (ctzWord x).toNat, x.getLsbD j = false := by
  cases hfind : (List.range 64).find? (fun i => x.getLsbD i) with
  | none =>
    refine absurd (BitVec.eq_of_getLsbD_eq fun i hi => ?_) hx
    simpa using List.find?_eq_none.1 hfind i (List.mem_range.2 hi)
  | some n =>
    obtain ⟨hbit, hn, hlow⟩ := List.find?_range_eq_some.1 hfind
    have hlt : n < 64 := List.mem_range.1 hn
    have hval : (ctzWord x).toNat = n := by
      rw [ctzWord, hfind, Option.getD_some, BitVec.toNat_ofNat]
      omega
    rw [hval]
    exact ⟨hlt, hbit, fun j hj => by simpa using hlow j hj⟩

theorem foldl_count_eq_onesBelow (x : Word) (n : Nat) :
    (List.range n).foldl (fun k i => if x.getLsbD i then k + 1 else k) 0 = Claims.onesBelow x n := by
  induction n with
  | zero => rfl
  | succ n ih =>
    rw [List.range_succ, List.foldl_append, ih]
    cases h : x.getLsbD n <;> simp [Claims.onesBelow, h]

theorem popcWord_eq (x : Word) : popcWord x = BitVec.ofNat 64 (Claims.onesBelow x 64) := by
  rw [popcWord, foldl_count_eq_onesBelow]

theorem signext_toNat (x : Word) {n : Nat} (hn : 0 < n) : signext x.toNat n = (x.setWidth n).toInt := by
  have hpow : 2 ^ (n - 1) * 2 = 2 ^ n := Nat.two_pow_pred_mul_two hn
  rw [signext, BitVec.toInt_eq_toNat_cond, BitVec.toNat_setWidth]
  congr 1
  rw [eq_iff_iff]
  omega

theorem sextWord_eq (m : ExtW) (x : Word) : sextWord m x = (x.setWidth (extBits m)).signExtend 64 := by
  rw [sextWord, signext_toNat x (by cases m <;> decide)]
  rfl

theorem zextWord_eq (m : ExtW) (x : Word) : zextWord m x = (x.setWidth (extBits m)).setWidth 64 := by
  apply BitVec.eq_of_toNat_eq
  rw [zextWord, BitVec.toNat_ofNat, BitVec.toNat_setWidth, BitVec.toNat_setWidth]

/-- The bits lui shifts in lie below those it keeps (R123). -/
theorem shiftLeft_or_eq_mul_add (x : Word) (imm : BitVec 17) :
    x <<< 17 ||| imm.setWidth 64 = BitVec.ofNat 64 (x.toNat * 2 ^ 17 + imm.toNat) := by
  have hdisjoint : x <<< 17 &&& imm.setWidth 64 = 0 := by
    apply BitVec.eq_of_getLsbD_eq
    intro i hi
    by_cases h : i < 17
    · simp [h]
    · simp [BitVec.getLsbD_of_ge imm i (by omega)]
  rw [← BitVec.add_eq_or_of_and_eq_zero _ _ hdisjoint]
  apply BitVec.eq_of_toNat_eq
  simp only [BitVec.toNat_add, BitVec.toNat_shiftLeft, BitVec.toNat_setWidth, BitVec.toNat_ofNat, Nat.shiftLeft_eq]
  omega

/-! ## A syllable whose whole meaning is the results it puts in flight (R115) -/

section
variable {s : State} {u : Fin 8} {a b : Src} {reads writes : List Loc}

/-- Such a syllable has no condition but its pops. -/
theorem clear_of_popsReady {fly : Rd → List Flight} (hpop : s.popsReady .none a b = true) :
    Clear s { unit := u, a := a, b := b, reads := reads, writes := writes, fly := fly } where
  interval := nofun
  check := rfl
  frames := rfl
  acks := rfl
  pops := hpop
  room := .inl rfl
  saves := nofun
  lines := nofun

theorem popsReady_none (s : State) : s.popsReady .none .none .none = true := by
  rw [State.popsReady, allCores_all]
  exact fun _ => rfl

/-- One scalar result of latency 1, in the cores where `on` holds. -/
theorem Calm.presentOne_latency1 (h : Calm s) (hpop : s.popsReady .none a b = true) (i : Instr) (d : SDst)
    (on : Rd → Bool) (f : Rd → Word) :
    Machine.presentOne s { unit := u, a := a, b := b, reads := reads, writes := writes
                           fly := fun r => if on r then [r.scalar u 1 d (f r)] else [] } i
      = s.issued (pops .none a b) fun c k =>
          let r := s.operands .none a b c
          if on r then (k.popped .none a b).sput d (f r) else k.popped .none a b := by
  rw [h.landing rfl (clear_of_popsReady hpop) i rfl (fun _ _ => rfl) (fun _ _ => rfl) u d (fun c => on (s.operands .none a b c))
    (fun c => f (s.operands .none a b c)) (fun _ => rfl), Syl.isGuarded_pops _ rfl]
  rfl

/-- An unpredicated result of latency 1. -/
theorem Calm.exec_unpredicated (h : Calm s) (hpop : s.popsReady .none a b = true) {i : Instr} {d : SDst} {f : Rd → Word}
    (hi : exec i s = .next (Machine.presentOne s { unit := u, a := a, b := b, reads := reads, writes := writes
                                                   fly := fun r => [r.scalar u 1 d (f r)] } i))
    (g : Fin 64 → CoreBank → Word) (hv : ∀ c, f (s.operands .none a b c) = g c (s.partHere c)) :
    exec i s = .next (s.issued (pops .none a b) fun c k => (k.popped .none a b).sput d (g c k)) := by
  rw [hi]
  refine congrArg _ ((h.presentOne_latency1 hpop i d (fun _ => true) f).trans (s.issued_congr _ _ _ fun c => ?_))
  rw [← hv c]
  rfl

/-- A predicated result of latency 1. -/
theorem Calm.exec_predicated (h : Calm s) (hpop : s.popsReady .none a b = true) {i : Instr} {d : SDst} {q : QReg} {f : Rd → Word}
    (hi : exec i s = .next (Machine.presentOne s { unit := u, a := a, b := b, reads := reads, writes := writes
                                                   fly := fun r => if r.on q then [r.scalar u 1 d (f r)] else [] } i))
    (g : Rd → Word) (hv : ∀ r, f r = g r) :
    exec i s = .next (s.issued (pops .none a b) fun c k =>
      if (k.qget q).getLsbD 0 then (k.popped .none a b).sput d (g (s.operands .none a b c)) else k.popped .none a b) := by
  rw [hi, ← funext hv]
  exact congrArg _ ((h.presentOne_latency1 hpop i d (·.on q) f).trans (s.issued_congr _ _ _ fun _ => rfl))

end

/-! ## The scalar forms (R115) -/

section
variable {s : State} {u : Twin} {d : SDst} {a b : SReg} {q : QReg} {i : Instr}

theorem Calm.exec_scalarRR_latency1 (h : Calm s) (hpop : s.popsReady .none (.s a) (.s b) = true) {f g : Word → Word → Word}
    (hi : exec i s = .next (Machine.presentOne s (scalarRR u d a b q 1 f) i)) (hv : ∀ x y, f x y = g x y) :
    exec i s = .next (s.issued (pops .none (.s a) (.s b)) fun c k =>
      let r := s.operands .none (.s a) (.s b) c
      let k' := k.popped .none (.s a) (.s b)
      if (k.qget q).getLsbD 0 then k'.sput d (g r.a r.b) else k') :=
  h.exec_predicated hpop hi (fun r => g r.a r.b) fun r => hv r.a r.b

/-- Results of a latency above 1 are still in flight after the issue cycle. -/
theorem Calm.exec_scalarRR_flying (h : Calm s) (hpop : s.popsReady .none (.s a) (.s b) = true) {l : Nat} (hl : 1 < l)
    {f g : Word → Word → Word} (hi : exec i s = .next (Machine.presentOne s (scalarRR u d a b q l f) i)) (hv : ∀ x y, f x y = g x y) :
    exec i s = .next (s.issued (pops .none (.s a) (.s b)) fun c k =>
      let r := s.operands .none (.s a) (.s b) c
      (k.popped .none (.s a) (.s b)).flying
        (if (k.qget q).getLsbD 0 then [s.inFlight l (unitS u) (.scalar d (g r.a r.b)) 0] else [])) := by
  obtain rfl : f = g := funext fun x => funext (hv x)
  have hland : ∀ c, ∀ F ∈ (scalarRR u d a b q l f).fly ((s.lone (scalarRR u d a b q l f)).rd c), s.here.cycle + 1 < F.land := by
    intro c F hF
    simp only [scalarRR] at hF
    split_ifs at hF
    · rw [List.mem_singleton.1 hF]
      exact Nat.add_lt_add_left hl _
    · exact absurd hF List.not_mem_nil
  rw [hi, h.flying (y := scalarRR u d a b q l f) rfl (clear_of_popsReady hpop) i rfl (fun _ _ => rfl) (fun _ _ => rfl) hland,
    Syl.isGuarded_pops _ rfl]
  exact congrArg _ (s.issued_congr _ _ _ fun _ => rfl)

theorem Calm.exec_scalarR (h : Calm s) (hpop : s.popsReady .none (.s a) .none = true) {f g : Word → Word}
    (hi : exec i s = .next (Machine.presentOne s (scalarR u d a q f) i)) (hv : ∀ x, f x = g x) :
    exec i s = .next (s.issued (pops .none (.s a) .none) fun c k =>
      let k' := k.popped .none (.s a) .none
      if (k.qget q).getLsbD 0 then k'.sput d (g (s.operands .none (.s a) .none c).a) else k') :=
  h.exec_predicated hpop hi (fun r => g r.a) fun r => hv r.a

theorem Calm.exec_scalarI (h : Calm s) (hpop : s.popsReady .none (.s a) .none = true) {f : Word → Word}
    (hi : exec i s = .next (Machine.presentOne s (scalarI u d a f) i)) :
    exec i s = .next (s.issued (pops .none (.s a) .none) fun c k =>
      (k.popped .none (.s a) .none).sput d (f (s.operands .none (.s a) .none c).a)) :=
  h.exec_unpredicated hpop hi (fun c _ => f (s.operands .none (.s a) .none c).a) fun _ => rfl

/-- An unpredicated result of latency 1 of a syllable that names no source. -/
theorem Calm.exec_sourceless (h : Calm s) {reads writes : List Loc} {f : Rd → Word}
    (hi : exec i s = .next (Machine.presentOne s { unit := unitS u, reads := reads, writes := writes
                                                   fly := fun r => [r.scalar (unitS u) 1 d (f r)] } i))
    (g : Fin 64 → CoreBank → Word) (hv : ∀ c, f (s.operands .none .none .none c) = g c (s.partHere c)) :
    exec i s = .next (s.issued false fun c k => k.sput d (g c k)) := by
  have hpopped : ∀ k : CoreBank, k.popped .none .none .none = k := CoreBank.dropPops_zero
  have hexec := h.exec_unpredicated (popsReady_none s) hi g hv
  simp only [hpopped] at hexec
  exact hexec

end

/-! ## What mfs reads (R124) -/

theorem Bank.creg_index (b : Bank) (n : Fin 6) :
    b.creg (.index n) = match b.frames[n.val]? with | some f => BitVec.ofNat 64 (f.pass % 2 ^ 32) | none => 0 := by
  rw [Bank.creg, Bank.loopIndex]
  cases b.frames[n.val]? <;> rfl

theorem Calm.creg_chk {s : State} (h : Calm s) : s.here.creg .chk = 0 := by
  rw [Bank.creg, h.chk]
  rfl

theorem Calm.exec_mfs {s : State} (h : Calm s) (u : Twin) (d : SDst) (r : CReg) (g : Fin 64 → CoreBank → Word)
    (hv : ∀ c, (s.operands .none .none .none c).creg r = g c (s.partHere c)) :
    exec (.mfs u d r) s = .next (s.issued false fun c k => k.sput d (g c k)) :=
  h.exec_sourceless (u := u) (f := (·.creg r)) rfl g hv

/-! ## Settling the scalar family -/

theorem scalarTwoSource : Claims.ScalarTwoSource := by
  intro s u d a b q hcalm hpop
  have h := s.calm_iff hcalm
  rw [← List.forall_iff_forall_mem]
  exact ⟨
    -- add, sub, and, or, xor, andn, shl, shr, sar
    h.exec_scalarRR_latency1 hpop rfl fun _ _ => rfl,
    h.exec_scalarRR_latency1 hpop rfl fun _ _ => rfl,
    h.exec_scalarRR_latency1 hpop rfl fun _ _ => rfl,
    h.exec_scalarRR_latency1 hpop rfl fun _ _ => rfl,
    h.exec_scalarRR_latency1 hpop rfl fun _ _ => rfl,
    h.exec_scalarRR_latency1 hpop rfl fun _ _ => rfl,
    h.exec_scalarRR_latency1 hpop rfl fun _ _ => rfl,
    h.exec_scalarRR_latency1 hpop rfl fun _ _ => rfl,
    h.exec_scalarRR_latency1 hpop rfl fun _ _ => rfl,
    h.exec_scalarRR_latency1 hpop rfl rolWord_eq_rotateLeft, -- rol
    h.exec_scalarRR_latency1 hpop rfl fun x y => ite_sle_eq x y x y, -- min
    h.exec_scalarRR_latency1 hpop rfl fun x y => ite_sle_eq y x x y, -- max
    -- minn, maxn
    h.exec_scalarRR_latency1 hpop rfl fun _ _ => rfl,
    h.exec_scalarRR_latency1 hpop rfl fun _ _ => rfl,
    h.exec_scalarRR_latency1 hpop rfl wordOfBool_slt, -- slt
    h.exec_scalarRR_latency1 hpop rfl wordOfBool_ult, -- sltn
    h.exec_scalarRR_latency1 hpop rfl wordOfBool_beq, -- seq
    h.exec_scalarRR_latency1 hpop rfl wordOfBool_bne⟩ -- sne

theorem scalarMultiplyDivide : Claims.ScalarMultiplyDivide := by
  intro s u d a b q hcalm hpop
  have h := s.calm_iff hcalm
  have h3 : 1 < 3 := by decide
  have h12 : 1 < 12 := by decide
  rw [← List.forall_iff_forall_mem]
  exact ⟨
    h.exec_scalarRR_flying hpop h3 rfl mul_eq_ofInt,
    h.exec_scalarRR_flying hpop h3 rfl mulh_eq_extractLsb',
    h.exec_scalarRR_flying hpop h3 rfl mulhn_eq_extractLsb',
    h.exec_scalarRR_flying hpop h12 rfl divWord_eq,
    h.exec_scalarRR_flying hpop h12 rfl fun _ _ => rfl,
    h.exec_scalarRR_flying hpop h12 rfl remWord_eq,
    h.exec_scalarRR_flying hpop h12 rfl fun _ _ => rfl⟩

/-- Settles O8: each instruction is its form (scalarRR), which lands or flies, at the value the statement gives. -/
theorem scalarArithmetic : Obligations.ScalarArithmetic := ⟨scalarTwoSource, scalarMultiplyDivide⟩

theorem scalarCountsExtensionsSelect : Claims.ScalarCountsExtensionsSelect := by
  refine ⟨fun s u d a q hcalm hpop => ⟨clzWord, ctzWord, fun _ => clzWord_spec, rfl, fun _ => ctzWord_spec, ctzWord_zero, ?_⟩,
    fun s u d a b q hcalm hpop => ?_⟩
  · have h := s.calm_iff hcalm
    rw [← List.forall_iff_forall_mem]
    exact ⟨
      h.exec_scalarR hpop rfl fun _ => rfl,
      h.exec_scalarR hpop rfl fun _ => rfl,
      h.exec_scalarR hpop rfl popcWord_eq,
      h.exec_scalarR hpop rfl (sextWord_eq .w8),
      h.exec_scalarR hpop rfl (sextWord_eq .w16),
      h.exec_scalarR hpop rfl (sextWord_eq .w32),
      h.exec_scalarR hpop rfl (zextWord_eq .w8),
      h.exec_scalarR hpop rfl (zextWord_eq .w16),
      h.exec_scalarR hpop rfl (zextWord_eq .w32)⟩
  · exact (s.calm_iff hcalm).exec_unpredicated hpop rfl
      (fun c k => let r := s.operands .none (.s a) (.s b) c; if (k.qget q).getLsbD 0 then r.a else r.b) fun _ => rfl

theorem scalarImmediates : Claims.ScalarImmediates := by
  intro s u d a imm n long hcalm
  have h := s.calm_iff hcalm
  refine ⟨fun hpop => ?_, ?_, ?_⟩
  · rw [← List.forall_iff_forall_mem]
    exact ⟨
      h.exec_scalarI hpop rfl,
      h.exec_scalarI hpop rfl,
      h.exec_scalarI hpop rfl,
      h.exec_scalarI hpop rfl,
      h.exec_scalarI hpop rfl,
      h.exec_scalarI hpop rfl,
      h.exec_scalarI hpop rfl⟩
  · exact h.exec_sourceless (u := u) rfl (fun _ _ => long.signExtend 64) fun _ => rfl
  · exact h.exec_sourceless (u := u) rfl
      (fun _ k => BitVec.ofNat 64 ((k.sget (d.castLE (by decide))).toNat * 2 ^ 17 + long.toNat)) fun _ => shiftLeft_or_eq_mul_add _ _

theorem readControlRegister : Claims.ReadControlRegister := by
  intro s u d hcalm
  have h := s.calm_iff hcalm
  refine ⟨?_, fun n => h.exec_mfs u d _ _ fun _ => rfl, fun n => h.exec_mfs u d _ _ fun _ => s.here.creg_index n⟩
  rw [← List.forall_iff_forall_mem]
  exact ⟨
    -- %rank.blk, %rank.region, %rank.die, %rank.row, %rank.quad, %rank.core, %fmt, %mxstep
    h.exec_mfs u d _ _ fun _ => rfl,
    h.exec_mfs u d _ _ fun _ => rfl,
    h.exec_mfs u d _ _ fun _ => rfl,
    h.exec_mfs u d _ _ fun _ => rfl,
    h.exec_mfs u d _ _ fun _ => rfl,
    h.exec_mfs u d _ _ fun _ => rfl,
    h.exec_mfs u d _ _ fun _ => rfl,
    h.exec_mfs u d _ _ fun _ => rfl,
    h.exec_mfs u d _ _ fun _ => h.creg_chk, -- %chk
    -- %lswin, %tsave, %nflags
    h.exec_mfs u d _ _ fun _ => rfl,
    h.exec_mfs u d _ _ fun _ => rfl,
    h.exec_mfs u d _ _ fun _ => rfl⟩

/-- Settles O9: the one-source forms, sel, the immediates and mfs, each a form whose one result lands at the boundary. -/
theorem scalarOthers : Obligations.ScalarOthers :=
  ⟨scalarCountsExtensionsSelect, scalarImmediates, readControlRegister⟩

end Sys2Proof.Machine

/-! SUPPORT. The vector instructions that move elements (R139, R142-R144, R148, R149). First how the elements of a span pack into a vector,
then what exec makes in a calm bank of a syllable whose results fly, and of one whose result is a vector of elements. -/

namespace Sys2Proof.Machine

/-! ## The elements of a span (R127) -/

theorem mul_two_pow_lt {x m k n : Nat} (hx : x < 2 ^ m) (hn : k + m ≤ n) : x * 2 ^ k < 2 ^ n :=
  calc x * 2 ^ k < 2 ^ m * 2 ^ k := Nat.mul_lt_mul_of_pos_right hx (Nat.two_pow_pos k)
    _ = 2 ^ (k + m) := by rw [← Nat.pow_add, Nat.add_comm]
    _ ≤ 2 ^ n := Nat.pow_le_pow_right Nat.two_pos hn

theorem digit_ofDigits_of_lt {b : Nat} {ds : List Nat} (hds : ∀ x ∈ ds, x < b) {i : Nat} (hi : i < ds.length) :
    Nat.ofDigits b ds / b ^ i % b = ds[i] := by
  have hdigit : ds[i] < b := hds _ (List.getElem_mem hi)
  rw [Nat.ofDigits_div_pow_eq_ofDigits_drop i (Nat.zero_lt_of_lt hdigit) ds hds, List.drop_eq_getElem_cons hi, Nat.ofDigits_cons,
    Nat.add_mul_mod_self_left]
  exact Nat.mod_eq_of_lt hdigit

section
variable {lo w : Nat} {xs : List Nat}

theorem lt_of_mem_map_mod {x : Nat} (hx : x ∈ xs.map (· % 2 ^ w)) : x < 2 ^ w := by
  obtain ⟨y, -, rfl⟩ := List.mem_map.1 hx
  exact Nat.mod_lt _ (Nat.two_pow_pos w)

/-- A vector that holds every element packed reads as their digits in base 2^w, lowest element first. -/
theorem vecOf_toNat (hpos : 0 < w) (hfit : 8 * lo + w * xs.length ≤ 1024) :
    (vecOf lo w xs).toNat = Nat.ofDigits (2 ^ w) (xs.map (· % 2 ^ w)) * 2 ^ (8 * lo) := by
  have hdigits : xs.foldr (fun x acc => x % 2 ^ w + 2 ^ w * acc) 0 = Nat.ofDigits (2 ^ w) (xs.map (· % 2 ^ w)) := by
    rw [Nat.ofDigits_eq_foldr, List.foldr_map]
    rfl
  have hlt := Nat.ofDigits_lt_base_pow_length (Nat.one_lt_two_pow hpos.ne') fun _ => lt_of_mem_map_mod (w := w) (xs := xs)
  rw [List.length_map, ← Nat.pow_mul] at hlt
  rw [vecOf, hdigits]
  exact Nat.mod_eq_of_lt (mul_two_pow_lt hlt hfit :)

/-- An element of a packed vector is the one packed there. -/
theorem vecAt_vecOf (hw : 8 ∣ w) (hpos : 0 < w) (hfit : 8 * lo + w * xs.length ≤ 1024) {i : Nat} (hi : i < xs.length) :
    vecAt (vecOf lo w xs) (lo + i * w / 8) w = xs[i] % 2 ^ w := by
  have hbit : 8 * (lo + i * w / 8) = 8 * lo + w * i := by
    rw [Nat.mul_add, Nat.mul_div_cancel' (hw.mul_left i), Nat.mul_comm i]
  rw [vecAt, vecOf_toNat hpos hfit, hbit, Nat.pow_add, ← Nat.div_div_eq_div_mul, Nat.mul_div_cancel _ (Nat.two_pow_pos _), Nat.pow_mul,
    digit_ofDigits_of_lt (fun _ => lt_of_mem_map_mod) (by simpa using hi), List.getElem_map]

end

/-- Both units' spans lie in the vector (R89, R127). -/
theorem spanLo_add_widthBits_le (u : Twin) (wd : Width) : 8 * spanLo u wd + widthBits wd ≤ 1024 := by
  cases u <;> cases wd <;> decide

theorem spanElement_vecOf (u : Twin) (wd : Width) {n w : Nat} (hw : 8 ∣ w) (hpos : 0 < w) (hfit : n * w ≤ widthBits wd) (f : Nat → Nat)
    {i : Nat} (hi : i < n) : spanElement u wd w (vecOf (spanLo u wd) w ((List.range n).map f)) i = f i % 2 ^ w := by
  have hspan := spanLo_add_widthBits_le u wd
  rw [spanElement, vecAt_vecOf hw hpos (by rw [List.length_map, List.length_range, Nat.mul_comm w]; omega) (by simpa using hi),
    List.getElem_map, List.getElem_range]

theorem spanElement_mod (u : Twin) (wd : Width) (w : Nat) (x : Vec) (i : Nat) :
    spanElement u wd w x i % 2 ^ w = spanElement u wd w x i := Nat.mod_mod _ _

theorem spanElement_byte (u : Twin) (wd : Width) (x : Vec) (i : Nat) : spanElement u wd 8 x i = vecAt x (spanLo u wd + i) 8 := by
  rw [spanElement, Nat.mul_div_cancel _ (by decide)]

/-- An element width of the vector instructions: whole bytes, of which whole elements fill each span. -/
structure ElementWidth (w : Nat) : Prop where
  pos : 0 < w
  bytes : 8 ∣ w
  fills : ∀ wd, widthBits wd / w * w = widthBits wd

theorem elementWidth_byte : ElementWidth 8 := ⟨by decide, by decide, fun wd => by cases wd <;> rfl⟩

theorem elementWidth_eBits (t : EType) : ElementWidth (eBits t) where
  pos := by cases t <;> decide
  bytes := by cases t <;> decide
  fills wd := by cases t <;> cases wd <;> rfl

theorem elementWidth_fmtOf (f : FType) : ElementWidth (fmtOf f).width where
  pos := by cases f <;> decide
  bytes := by cases f <;> decide
  fills wd := by cases f <;> cases wd <;> rfl

/-! ## The flags of a span's elements (R128) -/

theorem zipIdx_map_range {α : Type} (n : Nat) (f : Nat → α) : ((List.range n).map f).zipIdx = (List.range n).map fun i => (f i, i) := by
  apply List.ext_getElem <;> simp

theorem foldl_zipIdx_eq_spanFlags (m : Pred) (lo w n : Nat) (f : Nat → Nat × Flags) :
    ((List.range n).map f).zipIdx.foldl (fun g e => if m.getLsbD (lo + e.2 * w / 8) then g ||| e.1.2 else g) 0
      = Claims.spanFlags m lo w n fun i => (f i).2 := by
  rw [zipIdx_map_range, List.foldl_map]
  rfl

/-- Elements that raise no flag raise none together. -/
theorem spanFlags_zero (m : Pred) (lo w n : Nat) : (Claims.spanFlags m lo w n fun _ => 0) = 0 :=
  List.foldl_fixed' (fun _ => by simp) _

/-! ## A syllable whose results fly (R76, R77) -/

section
variable {s : State} {a b : Src} {reads writes : List Loc} {i : Instr}

/-- One result of a latency above 1, in every core. -/
theorem Calm.exec_flight (h : Calm s) (hpop : s.popsReady .none a b = true) {u : Fin 8} {bits l : Nat} (hl : 1 < l) {F : Rd → Flight}
    (hland : ∀ r, (F r).land = r.bank.cycle + l)
    (hi : exec i s = .next (Machine.presentOne s { unit := u, a := a, b := b, reads := reads, writes := writes, width := bits
                                                   fly := fun r => [F r] } i)) :
    exec i s = .next (s.issued (pops .none a b) fun c k => (k.popped .none a b).flying [F (s.operands .none a b c)]) := by
  have hclear : Clear s { unit := u, a := a, b := b, reads := reads, writes := writes, width := bits, fly := fun r => [F r] } :=
    { clear_of_popsReady (u := u) (reads := reads) (writes := writes) (fly := fun r => [F r]) hpop with }
  rw [hi, h.flying rfl hclear i rfl (fun _ _ => rfl) (fun _ _ => rfl), Syl.isGuarded_pops _ rfl]
  · rfl
  · intro c G hG
    rw [List.mem_singleton.1 hG, hland]
    exact Nat.add_lt_add_left hl _

/-- A vector result of `n` elements, written over `bytes` bytes of the span: value and flags element by element. -/
theorem Calm.exec_vector (h : Calm s) (hpop : s.popsReady .none a b = true) {u : Twin} {wd : Width} {q : QReg} {d : VDst} {n w l : Nat}
    (hw : ElementWidth w) (hfit : n * w ≤ widthBits wd) {bytes : Nat} (hbytes : n * w / 8 = bytes) (hl : 1 < l) {f : Rd → Nat → Nat × Flags}
    (hi : exec i s = .next (Machine.presentOne s { unit := unitV u, a := a, b := b, reads := reads, writes := writes, width := widthBits wd
                                                   fly := fun r => [r.vector u wd q n w l d (f r)] } i))
    {val : Fin 64 → Nat → Nat} (hval : ∀ c, ∀ j < n, (f (s.operands .none a b c) j).1 % 2 ^ w = val c j)
    {g : Fin 64 → Nat → Flags} (hflag : ∀ c j, (f (s.operands .none a b c) j).2 = g c j) :
    ∃ X : Fin 64 → Vec, (∀ c, ∀ j < n, spanElement u wd w (X c) j = val c j)
      ∧ exec i s = .next (s.issued (pops .none a b) fun c k => (k.popped .none a b).flying
          [s.inFlight l (unitV u) (.vector d (X c) (k.qget q &&& byteMask (spanLo u wd) bytes))
            (Claims.spanFlags (k.qget q) (spanLo u wd) w n (g c))]) := by
  subst hbytes
  refine ⟨fun c => vecOf (spanLo u wd) w ((List.range n).map fun j => (f (s.operands .none a b c) j).1), fun c j hj => ?_, ?_⟩
  · rw [spanElement_vecOf u wd hw.bytes hw.pos hfit _ hj, hval c j hj]
  · rw [h.exec_flight hpop hl (fun _ => rfl) hi]
    refine congrArg _ (s.issued_congr _ _ _ fun c => ?_)
    have hflags := foldl_zipIdx_eq_spanFlags ((s.partHere c).qget q) (spanLo u wd) w n (f (s.operands .none a b c))
    rw [funext (hflag c)] at hflags
    rw [← hflags, Rd.vector, List.map_map]
    rfl

/-- A vector result over the whole span that raises no flag. -/
theorem Calm.exec_quietSpan (h : Calm s) (hpop : s.popsReady .none a b = true) {u : Twin} {wd : Width} {q : QReg} {d : VDst} {w l : Nat}
    (hw : ElementWidth w) (hl : 1 < l) {f : Rd → Nat → Nat}
    (hi : exec i s = .next (Machine.presentOne s { unit := unitV u, a := a, b := b, reads := reads, writes := writes, width := widthBits wd
                                                   fly := fun r => [r.vector u wd q (widthBits wd / w) w l d fun j => quiet (f r j)] } i))
    {val : Fin 64 → Nat → Nat} (hval : ∀ c j, f (s.operands .none a b c) j % 2 ^ w = val c j) :
    ∃ X : Fin 64 → Vec, (∀ c, ∀ j < widthBits wd / w, spanElement u wd w (X c) j = val c j)
      ∧ exec i s = .next (s.issued (pops .none a b) fun c k => (k.popped .none a b).flying
          [s.inFlight l (unitV u) (.vector d (X c) (k.qget q &&& byteMask (spanLo u wd) (widthBits wd / 8))) 0]) := by
  have hvector := h.exec_vector hpop hw (hw.fills wd).le (congrArg (· / 8) (hw.fills wd)) hl hi (fun c j _ => hval c j)
    (g := fun _ _ => 0) fun _ _ => rfl
  simp only [spanFlags_zero] at hvector
  exact hvector

end

/-! ## Values of the instructions that move elements -/

/-- vsel's own predicate is q0, which leaves the span's mask as it is (R139). -/
theorem qget_zero_and (k : CoreBank) (m : Pred) : k.qget 0 &&& m = m := BitVec.allOnes_and

/-- vext's value: an element, sign-extended (R143). -/
theorem ofInt_signext (x : Nat) {n : Nat} (hn : 0 < n) : BitVec.ofInt 64 (signext x n) = (BitVec.ofNat n x).signExtend 64 := by
  have hpow : 2 ^ (n - 1) * 2 = 2 ^ n := Nat.two_pow_pred_mul_two hn
  rw [BitVec.signExtend, signext, BitVec.toInt_eq_toNat_cond, BitVec.toNat_ofNat]
  congr 2
  rw [eq_iff_iff]
  omega

/-- The clamp to -7 ... 7 as minimum and maximum, and when it changes its argument (R148). -/
theorem packNibble_eq (x : Nat) :
    packNibble x = (wrap (max (-7) (min 7 (signext x 8))) 4, decide (signext x 8 < -7) || decide (7 < signext x 8)) := by
  simp only [packNibble]
  generalize signext x 8 = v
  rcases lt_or_ge v (-7) with hlow | hlow
  · simp [hlow, show max (-7) (min 7 v) = -7 by omega, show ¬-7 = v by omega]
  · rcases lt_or_ge 7 v with hhigh | hhigh
    · simp [hlow.not_gt, hhigh, show max (-7) (min 7 v) = 7 by omega, show ¬7 = v by omega]
    · simp [hlow.not_gt, hhigh.not_gt, show max (-7) (min 7 v) = v by omega]

theorem wrap_lt (x : Int) (n : Nat) : wrap x n < 2 ^ n := by
  have hpos : (0 : Int) < ((2 ^ n : Nat) : Int) := by exact_mod_cast Nat.two_pow_pos n
  have hnonneg := Int.emod_nonneg x hpos.ne'
  have hlt := Int.emod_lt_of_pos x hpos
  rw [wrap]
  omega

/-- Two clamped elements fit in a byte (R148). -/
theorem packedByte_eq (x y : Nat) :
    ((packNibble x).1 + 16 * (packNibble y).1) % 2 ^ 8
      = wrap (max (-7) (min 7 (signext x 8))) 4 + 16 * wrap (max (-7) (min 7 (signext y 8))) 4 := by
  have hx := wrap_lt (max (-7) (min 7 (signext x 8))) 4
  have hy := wrap_lt (max (-7) (min 7 (signext y 8))) 4
  rw [packNibble_eq, packNibble_eq]
  exact Nat.mod_eq_of_lt (by omega)

/-- sat is raised where either element lies outside -7 ... 7 (R148). -/
theorem packedFlags_eq (x y : Nat) :
    Flags.when ((packNibble x).2 || (packNibble y).2) Flags.sat
      = if (decide (signext x 8 < -7) || decide (7 < signext x 8)) || (decide (signext y 8 < -7) || decide (7 < signext y 8))
        then Flags.sat else 0 := by
  rw [packNibble_eq, packNibble_eq]
  rfl

/-- The packed bytes of a span are half its bytes (R148). -/
theorem packedBytes_mul_le (wd : Width) : widthBits wd / 16 * 8 ≤ widthBits wd := by cases wd <;> decide

/-! ## Settling the family of moves -/

theorem vectorSelectPermute : Claims.VectorSelectPermute := by
  intro s u d a b x q wd t f hcalm w span
  have h := s.calm_iff hcalm
  have hlat : 1 < 2 := by decide
  have hw : ElementWidth w := elementWidth_eBits t
  refine ⟨fun hpop => ⟨?vsel, ?vperm⟩, fun hpop => ?vbcast, fun hpop => ?vpack, fun hpop => ?vunpack⟩
  case vsel =>
    have hvsel := h.exec_quietSpan hpop elementWidth_byte hlat (i := .vsel u d a b q wd) (q := 0) rfl fun c j =>
      (apply_ite (· % 2 ^ 8) _ _ _).trans (by rw [spanElement_mod, spanElement_mod])
    simp only [qget_zero_and] at hvsel
    exact hvsel
  case vperm => exact h.exec_quietSpan hpop hw hlat rfl fun c j => spanElement_mod u wd w _ _
  case vbcast => exact h.exec_quietSpan hpop hw hlat rfl fun c j => Nat.mod_mod _ _
  case vpack =>
    exact h.exec_vector hpop elementWidth_byte (packedBytes_mul_le wd) (Nat.mul_div_cancel _ (by decide)) hlat rfl
      (fun c m _ => packedByte_eq _ _) fun c m => packedFlags_eq _ _
  case vunpack =>
    have hF := elementWidth_fmtOf f
    exact h.exec_vector hpop hF (hF.fills wd).le (congrArg (· / 8) (hF.fills wd)) hlat rfl
      (fun c j _ => by simp only [spanElement_byte]) fun c j => by simp only [spanElement_byte, Flags.when]

theorem vectorExtract : Claims.VectorExtract := by
  intro s u d a b wd t hcalm hpop
  have h := s.calm_iff hcalm
  rw [h.exec_flight (i := .vext u d a b wd t) hpop (l := 2) (by decide) (fun _ => rfl) rfl]
  simp only [ofInt_signext _ (elementWidth_eBits t).pos]
  rfl

/-- Settles O15: each instruction is a syllable whose one result flies, a vector by its elements or vext's word. -/
theorem vectorMove : Obligations.VectorMove := ⟨vectorSelectPermute, vectorExtract⟩

end Sys2Proof.Machine

/-! SUPPORT. The return from a trap (R234). First what exec makes in a calm bank of a syllable that changes the sequencer's part alone. -/

namespace Sys2Proof.Machine

/-! ## Changes of the sequencer's part that its cycle passes by -/

/-- A change of a bank that leaves what a cycle reads of it as it is: what is due to land, the tile save areas, and the counts that the
cycle moves on. -/
structure Bank.KeepsTime (g : Bank → Bank) : Prop where
  seq : ∀ b, (g b).seq = b.seq
  votes : ∀ b, (g b).votes = b.votes
  fmtNext : ∀ b, (g b).fmtNext = b.fmtNext
  matOps : ∀ b, (g b).matOps = b.matOps
  saveArea : ∀ b t, (g b).saveArea t = b.saveArea t
  cycle : ∀ b, (g b).cycle = b.cycle
  tick : ∀ b, (g b).tick = g b.tick

theorem Row.tick_modBank {g : Bank → Bank} (hg : Bank.KeepsTime g) (r : Row) (x : Side) :
    (r.modBank x g).tick x = (r.tick x).modBank x g := by
  have hland : ∀ c : Core, c.landDue (g (r.bank x)) x ((r.bank x).cycle + 1) = c.landDue (r.bank x) x ((r.bank x).cycle + 1) :=
    fun c => c.landDue_bank _ _ x _ (hg.saveArea _)
  simp only [Row.tick, Row.bank_modBank, hg.cycle, hland, Row.mapCores_modBank, Row.modBank_modBank, hg.tick]

theorem Row.stretch_modBank (r old : Row) (x : Side) (p : List (Fin 64 × Nat × List Byte)) (g : Bank → Bank) :
    (r.modBank x g).stretch old x p = (r.stretch old x p).modBank x g := by
  simp only [Row.stretch]
  split_ifs
  · rfl
  · cases x <;> rfl

theorem State.modBank_congr (s : State) (n : Nat) (x : Side) {f g : Bank → Bank} (h : f (s.bank n x) = g (s.bank n x)) :
    s.modBank n x f = s.modBank n x g :=
  s.modRow_congr n _ _ (Row.modBank_congr _ x f g h)

theorem State.issued_bank (s : State) (guarded : Bool) (f : Fin 64 → CoreBank → CoreBank) :
    (s.issued guarded f).bank s.cur s.side = s.here.moved guarded := by
  rw [State.issued, State.bank, State.row_modRow, Row.stretch_bank, Row.walked_bank, Row.bank_modBank, Row.mapBanks, Row.bank_mapCores]
  rfl

theorem Core.mod_self (c : Core) (x : Side) : (c.mod x fun b => b) = c := by cases x <;> rfl

theorem State.entered_bank (s : State) (y : Syl) (w : BitVec 32) :
    (s.entered y w).bank s.cur s.side = s.here.leave [⟨y, w⟩] (s.here.pc + 1) := by
  rw [State.entered, State.bank, State.row_modRow, Row.bank_modBank, Row.enter, Row.walked_bank, Row.mapBanks, Row.bank_mapCores]
  rfl

/-! ## A syllable that changes the sequencer's part alone -/

section
variable {s : State} {y : Syl}

/-- The cycle of a syllable of a calm bank whose effect changes the sequencer's part alone: the change, the boundary, the skew line. -/
theorem Calm.commit_sequencer (h : Calm s) (w : BitVec 32) (ht : y.touch = none) (hput : ∀ i c, y.put i c = none) {g : Bank → Bank}
    (hg : Bank.KeepsTime g) (he : ∀ t, y.effect (s.lone y) t = t.modBank s.cur s.side g) :
    s.commit s.cur s.side [⟨y, w⟩] (s.here.pc + 1)
      = (s.entered y w).modRow s.cur fun r => ((r.modBank s.side g).tick s.side).stretch (s.row s.cur) s.side [] := by
  have hputs : putsOf [((⟨y, w⟩ : Part), s.lone y)] = [] := putsOf_none y w _ fun c => hput _ c
  have hbank : ((s.entered y w).modBank s.cur s.side g).bank s.cur s.side = g (s.here.leave [⟨y, w⟩] (s.here.pc + 1)) := by
    rw [State.bank_modBank, s.entered_bank]
  have hstart : ((s.entered y w).modBank s.cur s.side g).startCycle s.cur s.side = (s.entered y w).modBank s.cur s.side g :=
    startCycle_calm _ _ _ (by rw [hbank, hg.matOps]; exact h.matOps) h.due
  have hpass : ((s.entered y w).modBank s.cur s.side g).passCycle s.cur s.side false
      = ((s.entered y w).modBank s.cur s.side g).modRow s.cur (·.tick s.side) := by
    apply passCycle_calm <;> rw [hbank]
    exacts [(hg.seq _).trans h.seq, (hg.votes _).trans h.votes, (hg.fmtNext _).trans h.fmtNext, (hg.matOps _).trans h.matOps]
  rw [h.commit_eq w ht, he, hstart, State.putAll, State.putPrior, hputs, List.foldl_nil, hpass, State.modBank_eq, State.modRow_modRow,
    State.modRow_modRow]
  rfl

/-- Of a syllable without results or pops the cores show nothing: the change is made of the bank as it stands once the cycle has passed. -/
theorem Calm.commit_issuedBank (h : Calm s) (w : BitVec 32) (ht : y.touch = none) (hput : ∀ i c, y.put i c = none)
    (hfly : ∀ r, y.fly r = []) (hpops : y.pops = (0, 0)) (hguarded : y.isGuarded = false) {g : Bank → Bank} (hg : Bank.KeepsTime g)
    (he : ∀ t, y.effect (s.lone y) t = t.modBank s.cur s.side g) :
    s.commit s.cur s.side [⟨y, w⟩] (s.here.pc + 1) = s.issuedBank g := by
  have hcores : ∀ c : Fin 64, ((s.coreHere c).mod s.side fun b =>
      { b.dropPops y.pops with flights := b.flights ++ y.fly ((s.lone y).rd c) }).landDue s.here s.side (s.here.cycle + 1)
        = (s.coreHere c).mod s.side fun k => k := by
    intro c
    simp only [hpops, hfly, CoreBank.dropPops_zero, List.append_nil, Core.mod_self]
    exact h.landDue c _ _
  have hmoved : ((s.row s.cur).mapBanks s.side fun _ k => k).modBank s.side (fun b => (b.leave [⟨y, w⟩] (s.here.pc + 1)).tick)
      = ((s.row s.cur).mapBanks s.side fun _ k => k).modBank s.side (·.moved false) := by
    apply Row.modBank_congr
    rw [Row.mapBanks, Row.bank_mapCores]
    exact hguarded ▸ s.here.tick_leave y w h.segment
  rw [h.commit_sequencer w ht hput hg he, State.entered, State.modRow_modRow, State.issuedBank, State.issued, State.modBank_eq,
    State.modRow_modRow]
  apply State.modRow_congr
  rw [Row.tick_modBank hg, Row.stretch_modBank,
    Row.tick_enter (s.row s.cur) s.side y.pops (fun c => y.fly ((s.lone y).rd c)) (·.leave [⟨y, w⟩] (s.here.pc + 1)) rfl
      (fun _ => rfl) (fun _ k => k) hcores, hmoved]

/-- What exec does with a syllable that only changes the sequencer's part of the bank it is issued by. -/
theorem Calm.presentOne_issuedBank (h : Calm s) {u : Fin 8} {reads writes : List Loc} {right : Bank → Bool}
    {effect : Issue → State → State} (hright : right s.here = true) {g : Bank → Bank} (hg : Bank.KeepsTime g)
    (he : ∀ i t, effect i t = t.modBank i.row i.side g) (i : Instr) :
    Machine.presentOne s { unit := u, reads := reads, writes := writes, permitted := right, effect := effect } i = s.issuedBank g := by
  have hclear : Clear s { unit := u, reads := reads, writes := writes, permitted := right, effect := effect } :=
    { clear_of_popsReady (u := u) (reads := reads) (writes := writes) (fly := fun _ => []) (popsReady_none s) with }
  rw [h.presentOne hright hclear]
  exact h.commit_issuedBank _ rfl (fun _ _ => rfl) (fun _ => rfl) rfl rfl hg fun t => he _ t

end

/-! ## The return (R234) -/

theorem Bank.returnFromTrap_none {b : Bank} (hc : b.savedCtl = none) (skip : Bool) :
    b.returnFromTrap skip = { b with handler := false } := by
  simp only [Bank.returnFromTrap, hc]

theorem Bank.returnFromTrap_resume {b : Bank} {c : SavedControl} (hc : b.savedCtl = some c) : b.returnFromTrap false =
    { b with handler := false, savedCtl := none, frames := c.frames, calls := c.calls, steps := c.steps, pc := c.pc } := by
  simp only [Bank.returnFromTrap, hc]
  rfl

theorem Bank.returnFromTrap_skip {b : Bank} {c : SavedControl} (hc : b.savedCtl = some c) : b.returnFromTrap true =
    let r := loopAdvance 1 c.frames c.next
    { b with handler := false, savedCtl := none, frames := r.1, calls := c.calls
             steps := mapSteps c.steps (unbind r.1.length), pc := r.2 } := by
  simp only [Bank.returnFromTrap, hc]
  rfl

/-- The return changes %bank bit 4, what the trap saved, and the sequencer's place in the program. -/
theorem Bank.returnFromTrap_frame (b : Bank) (skip : Bool) : ∃ saved frames calls steps pc, b.returnFromTrap skip =
    { b with handler := false, savedCtl := saved, frames := frames, calls := calls, steps := steps, pc := pc } := by
  rcases hc : b.savedCtl with _ | c
  · exact ⟨_, _, _, _, _, Bank.returnFromTrap_none hc skip⟩
  · cases skip
    · exact ⟨_, _, _, _, _, Bank.returnFromTrap_resume hc⟩
    · exact ⟨_, _, _, _, _, Bank.returnFromTrap_skip hc⟩

theorem Bank.returnFromTrap_tick (b : Bank) (skip : Bool) : (b.returnFromTrap skip).tick = b.tick.returnFromTrap skip := by
  rcases hc : b.savedCtl with _ | c
  · rw [Bank.returnFromTrap_none hc, Bank.returnFromTrap_none (b := b.tick) hc]
    rfl
  · cases skip
    · rw [Bank.returnFromTrap_resume hc, Bank.returnFromTrap_resume (b := b.tick) hc]
      rfl
    · rw [Bank.returnFromTrap_skip hc, Bank.returnFromTrap_skip (b := b.tick) hc]
      rfl

theorem Bank.keepsTime_returnFromTrap (skip : Bool) : Bank.KeepsTime (·.returnFromTrap skip) := by
  refine ⟨fun b => ?_, fun b => ?_, fun b => ?_, fun b => ?_, fun b _ => ?_, fun b => ?_, fun b => b.returnFromTrap_tick skip⟩
  all_goals
    obtain ⟨saved, frames, calls, steps, pc, hframe⟩ := b.returnFromTrap_frame skip
    exact hframe ▸ rfl

theorem State.issuedBank_congr (s : State) {f g : Bank → Bank} (h : f (s.here.moved false) = g (s.here.moved false)) :
    s.issuedBank f = s.issuedBank g :=
  State.modBank_congr _ _ _ (by rw [State.issued_bank]; exact h)

/-- Settles O39: a calm bank in its handler issues the return as a change of the sequencer's part alone, and passing its own bundle leaves
what the trap saved. -/
theorem returnFromTrap : Obligations.ReturnFromTrap := by
  intro s c hcalm hhandler hsaved
  have h := s.calm_iff hcalm
  have hreturn : ∀ skip i, Machine.presentOne s (tretForm skip) i = s.issuedBank (·.returnFromTrap skip) := fun skip i =>
    h.presentOne_issuedBank hhandler (Bank.keepsTime_returnFromTrap skip) (fun _ _ => rfl) i
  have hmoved : (s.here.moved false).savedCtl = some c := hsaved
  constructor
  · exact congrArg _ ((hreturn false .tret).trans (s.issuedBank_congr (Bank.returnFromTrap_resume hmoved)))
  · exact congrArg _ ((hreturn true .tretSkip).trans (s.issuedBank_congr (Bank.returnFromTrap_skip hmoved)))

end Sys2Proof.Machine
